-- ==== Sys2Proof/Word.lean ====
section
/-! DEFINITION. The bytes that the two links, the profile sections and the stored copy are made of, and the two CRC registers (R10, R188, R189). Every other quantity of the part is an integer in a stated unit (00_scope.md 4.1). -/

namespace Sys2Proof

/-- One byte of a frame, of a section or of the stored copy. -/
abbrev Byte := BitVec 8

/-- The CRC-16 register of the links (R189). -/
abbrev Crc16 := BitVec 16

/-- The CRC-32 register of the profile store (R10). -/
abbrev Crc32 := BitVec 32

end Sys2Proof
end

