-- ==== Sys2Proof/Syntax.lean ====
section
/-! DEFINITION. The commands of the TB-640: one constructor for each row of the opcode table. A request command names the slot of its link that holds the request (R190, R191); an event command carries what the outside brings to it. -/

namespace Sys2Proof

/-- The two serial links (00_scope.md section 6). -/
inductive Link where
  | console
  | terminal
  deriving DecidableEq, Repr

/-- The two limit switches of a valve (R84). -/
inductive Limit where
  | openLimit
  | closedLimit
  deriving DecidableEq, Repr

/-- A command to the block. Slots are numbered 0 to 7 on each link, valves 0 to 28 (R84), pumps 1 to 4, steps 1 to 48, order ids 1 to 255 (00_scope.md 4.4). -/
inductive Instr where
  | powerOn
  | warmReset
  | uptimeSecond
  | frameReceived (link : Link) (bytes : List Byte)
  | frameDiscarded (link : Link) (bytes : List Byte)
  | frameIncompleteTimeout (link : Link)
  | frameTransmitStart (link : Link)
  | replyTransmitComplete (link : Link)
  | delivery (link : Link)
  | popn (slot : Nat)
  | pdat (slot : Nat)
  | pcls (slot : Nat)
  | profileChecksComplete
  | nonVolatileWriteComplete (readBack : List Byte)
  | copn (slot : Nat)
  | cend (slot : Nat)
  | clks (slot : Nat)
  | setp (slot : Nat)
  | scanPeriodTick
  | conversionComplete (code : Fin 65536)
  | gcal (slot : Nat)
  | tmap (slot : Nat)
  | dens (slot : Nat)
  | sndg (slot : Nat)
  | gqry (slot : Nat)
  | liveEvaluationComplete
  | previewComplete
  | prev (slot : Nat)
  | hqry (slot : Nat)
  | valveLimitChange (valve : Nat) (limit : Limit) (present : Bool)
  | strokeTimerExpiry (valve : Nat)
  | pressureProvenChange (pump : Nat) (present : Bool)
  | pumpRunningFeedbackChange (pump : Nat) (present : Bool)
  | proveTimerExpiry (order : Nat)
  | pumpStopTimerExpiry (pump : Nat)
  | prst (slot : Nat)
  | xovr (slot : Nat)
  | gang (slot : Nat)
  | ordr (slot : Nat)
  | stallWindowExpiry (order : Nat)
  | ocan (slot : Nat)
  | orel (slot : Nat)
  | oqry (slot : Nat)
  | hwin (slot : Nat)
  | plan (slot : Nat)
  | pclr (slot : Nat)
  | hcor (slot : Nat)
  | sreq (slot : Nat)
  | holdTimerExpiry (step : Nat)
  | sfrc (slot : Nat)
  | sskp (slot : Nat)
  | scan (slot : Nat)
  | taly (slot : Nat)
  | sfin (slot : Nat)
  | settleTimerExpiry (step : Nat)
  | lstp (slot : Nat)
  | tatt (slot : Nat)
  | tdet (slot : Nat)
  | quietTimerExpiry
  | sqry (slot : Nat)
  | rcfg (slot : Nat)
  | rreq (slot : Nat)
  | aenb (slot : Nat)
  | aack (slot : Nat)
  | aqry (slot : Nat)
  | wrst (slot : Nat)
  | startByteFound (link : Link) (bytes : List Byte)
  | powerLoss
  deriving DecidableEq, Repr

end Sys2Proof
end

