-- ==== Sys2Proof/Decode.lean ====
section
/-! DEFINITION. The command a word of the opcode table spells. The part is reached over two links that carry framed messages, and no row of spec/opcode_table.json gives bits, so no word spells a command. The frames themselves are read by Machine/Wire.lean and Machine/Operands.lean. -/

namespace Sys2Proof

/-- The command whose bits are `w`, numbered as the table numbers them: no row gives bits. -/
def decodeTableWord (_nbits _w : Nat) : Option Instr := none

end Sys2Proof
end

