-- ==== Sys2Proof/Config.lean ====
section
/-! DEFINITION. The sizes the manual fixes for every part, and the free values: what the part makes of a field value that passes every test of its rule and that the manual gives no meaning. A free value is an opaque constant: nothing can be proved of which value it has (log 11, 12). -/

namespace Sys2Proof.Config

/-- Largest value of the uptime clock and of a pump's run seconds (R22, R101). -/
def clockMax : Nat := 4294967295

/-- Largest value of the call clock (R23). -/
def callClockMax : Nat := 2147483647

/-- Largest mass the hull engine takes for a compartment, in t (R51, R53). -/
def massMax : Int := 2000000

/-- Largest body length of a frame (R188). -/
def bodyMax : Nat := 1024

/-- Request slots of each link (R190). -/
def slotCount : Nat := 8

/-- Port replies a port holds for transmission (R190). -/
def portReplyMax : Nat := 8

/-- Slots of the order table (R108). -/
def orderSlots : Nat := 16

/-- Steps of the pour plan (R134). -/
def planMax : Nat := 48

/-- Records of the report queue (R174). -/
def reportQueueMax : Nat := 8

/-- Most declared tanks that the hold-off windows may hold (R132). -/
def heldMax : Nat := 18

/-- The value that stands for ABSENT in a reply or report field (00_scope.md 4.5, R195). -/
def absentCode : Int := -2147483648

/-- FREE VALUE (log 11). What MF or WV means when it is neither 0 (clear) nor 1 (set). R111 and R133 name no test for such a value, so the request goes on. -/
opaque otherFlag : Int → Bool

/-- FREE VALUE (log 11). The length mode that an accepted RCFG sets for an LM that is neither 0 (AUTO) nor 1 (FIXED): `none`, AUTO; `some v`, FIXED with the length `v + 4`. R169 names no test for such a value, so the request goes on. -/
opaque otherLengthMode : Int → Option (Fin 61)

/-- FREE VALUE (log 12). The zero code that an accepted GCAL puts in for a ZC outside 0 to 65,535. R31 names no test for it and accepts the request. -/
opaque otherZeroCode : Int → Fin 65536

/-- FREE VALUE (log 12). The gain, less 1, that an accepted GCAL puts in for a GN outside 1 to 65,535 that is not 0. R31 tests GN against 0 alone and accepts the request. -/
opaque otherGain : Int → Fin 65535

end Sys2Proof.Config
end

