-- ==== Sys2Proof/Machine/State.lean ====
section
/-! DEFINITION. Every piece of state the manual gives the TB-640, block by block (00_scope.md section 2), the queue of pending commands, the reasons a step can stop, and the state after reset. Quantities are integers in the units of 00_scope.md 4.1. -/

namespace Sys2Proof.Machine

/-! ### Named values -/

/-- The call state (R17). -/
inductive CallState where
  | noProfile
  | idle
  | inCall
  | closing
  deriving DecidableEq, Repr

/-- Rates of a link (00_scope.md section 8). -/
inductive Rate where
  | b9600
  | b38400
  | b115200
  deriving DecidableEq, Repr

/-- A ballast main (R91). -/
inductive Main where
  | port
  | stbd
  deriving DecidableEq, Repr

/-- A pump group (R90). -/
inductive Group where
  | a
  | b
  deriving DecidableEq, Repr

/-- The eight section names of a profile (R3). -/
inductive SecName where
  | gen
  | tnk
  | snd
  | hld
  | frm
  | ksf
  | kbm
  | hyd
  deriving DecidableEq, Repr

/-- The state of a tank's gauge (3.6). -/
inductive GaugeState where
  | normal
  | suspect
  | withdrawn
  | unmapped
  deriving DecidableEq, Repr

/-- Where a tank's level came from (R42). -/
inductive LevelSource where
  | gauge
  | frozen
  | manual
  deriving DecidableEq, Repr

/-- Where a hold's mass came from (R138). -/
inductive HoldSource where
  | tally
  | estimate
  | corrected
  deriving DecidableEq, Repr

/-- The band of an evaluation's peak (R66). Band NONE of the hull condition record is the absence of a live result (R76). -/
inductive Band where
  | green
  | amber
  | red
  deriving DecidableEq, Repr

/-- The first utilisation that equals the peak (R65). -/
inductive PeakSource where
  | sf (frame : Nat)
  | bm (frame : Nat)
  | draft
  | trim
  deriving DecidableEq, Repr

/-- The stop state (R76). -/
inductive StopState where
  | clear
  | stopped
  deriving DecidableEq, Repr

/-- The last kind of evaluation (R49). -/
inductive LastKind where
  | none
  | live
  | preview
  deriving DecidableEq, Repr

/-- The direction of a preview (R75). -/
inductive Direction where
  | relieving
  | loading
  deriving DecidableEq, Repr

/-- The state of a pump (R90). -/
inductive PumpState where
  | stopped
  | priming
  | running
  | stopping
  | withdrawn
  deriving DecidableEq, Repr

/-- The state of a valve (R86). -/
inductive ValveState where
  | closed
  | opening
  | opened
  | closing
  | fault
  deriving DecidableEq, Repr

/-- The mode of a main (R91). -/
inductive MainMode where
  | idle
  | filling
  | discharging
  | transferring
  deriving DecidableEq, Repr

/-- The crossover mode (R102). -/
inductive CrossMode where
  | straight
  | crossed
  | changing
  | fault
  deriving DecidableEq, Repr

/-- The crossover target: a mode that serves (R102). -/
inductive CrossTarget where
  | straight
  | crossed
  deriving DecidableEq, Repr

/-- The phase of an attempt (R92). -/
inductive Phase where
  | liningUp
  | priming
  | running
  | takingDown
  deriving DecidableEq, Repr

/-- Why an attempt failed (R92). -/
inductive FailCause where
  | lineupFail
  | startFail
  | trip
  deriving DecidableEq, Repr

/-- The action of an order (R109). -/
inductive Action where
  | fill
  | discharge
  | transfer
  deriving DecidableEq, Repr

/-- The states of an order (R110). -/
inductive OrderState where
  | admitting
  | queued
  | lineup
  | starting
  | active
  | stopping
  | suspended
  | done
  | failed
  | cancelled
  deriving DecidableEq, Repr

/-- Stop, suspension and failure reasons of an order (R110). -/
inductive Reason where
  | target
  | destFull
  | cancel
  | hull
  | preempted
  | noGauge
  | stall
  | lineupFail
  | startFail
  | trip
  | held
  deriving DecidableEq, Repr

/-- The target of an order as given: a level in mm (TL) or a mass in t (TM) (R109). -/
inductive Target where
  | level (mm : Int)
  | mass (t : Int)
  deriving DecidableEq, Repr

/-- The ten states of a pour step (R137). -/
inductive StepState where
  | planned
  | evaluating
  | waiting
  | blocked
  | pouring
  | halted
  | settling
  | reporting
  | done
  | skipped
  deriving DecidableEq, Repr

/-- The first unmet check of a step (R142). -/
inductive WaitReason where
  | report
  | ballast
  | hull
  deriving DecidableEq, Repr

/-- What began a halt (R152). -/
inductive HaltCause where
  | hull
  | overshoot
  | link
  deriving DecidableEq, Repr

/-- The gate preview state (R143). -/
inductive GatePreview where
  | none
  | forStep (step : Nat)
  | discard
  deriving DecidableEq, Repr

/-- The terminal link state (R158). -/
inductive LinkState where
  | detached
  | up
  | quiet
  | lost
  deriving DecidableEq, Repr

/-- Kinds of report (R167). -/
inductive ReportKind where
  | step
  | survey
  | exception
  | departure
  deriving DecidableEq, Repr

/-- Route of a report (R168). -/
inductive Route where
  | console
  | terminal
  | both
  deriving DecidableEq, Repr

/-- Length mode of a report (R168). -/
inductive LengthMode where
  | auto
  | fixed (length : Nat)
  deriving DecidableEq, Repr

/-- A record's flag for one link (R174). -/
inductive LinkFlag where
  | clear
  | pending
  | sending
  deriving DecidableEq, Repr

/-- Reply outcomes (R195). -/
inductive Oc where
  | ok
  | clamped
  | format
  | unknown
  | state
  | busy
  | full
  | conflict
  | range
  | limit
  | held
  | noGauge
  | route
  | sequence
  | profile
  | profileCrc
  | grant
  | wait
  | refuse
  deriving DecidableEq, Repr

/-- Request kinds of both links (12.4, 9.5). -/
inductive Kind where
  | POPN | PDAT | PCLS | COPN | CEND | CLKS | SETP | TMAP | GCAL | DENS | SNDG | GQRY | PREV | HQRY
  | PRST | XOVR | GANG | ORDR | OCAN | OREL | OQRY | HWIN | PLAN | PCLR | SFRC | SSKP | HCOR
  | RREQ | RCFG | AENB | AACK | AQRY | WRST
  | TATT | TDET | SREQ | TALY | SFIN | LSTP | SCAN | SQRY
  deriving DecidableEq, Repr

/-- Two-letter field names of requests, replies and notices. -/
inductive Field where
  | SN | XI | SD | CR | CL | SC | SW | SM | SL | VT | PV | PS | DB | SI | HP | QT | OA | RO | WT | RS | DL | TN | TX | RA | RB
  | TK | GC | ZC | GN | OF | DN | LV | CM | MS | PU | XM | GA | GM | OI | AC | DT | PR | RT | MF | TL | TM
  | WN | WV | WB | WM | ST | HD | PT | CP | HC | RK | RU | CH | LM | LL | IC | EM | CN | TY | FN
  | QK | OC | CS | RV | LS | QC | SS | RN | SR | QN | D1 | D2 | NC
  deriving DecidableEq, Repr

/-! ### Clocks and settings (chapter 2) -/

/-- The two clocks (R22, R23). `call = none` is ABSENT. -/
structure Clocks where
  uptime : Nat
  call : Option Nat
  deriving DecidableEq, Repr

/-- The settings in force, each under its field name (R25). -/
structure Settings where
  sc : Int
  sw : Int
  sm : Int
  sl : Int
  vt : Int
  pv : Int
  ps : Int
  db : Int
  si : Int
  hp : Int
  qt : Int
  oa : Int
  ro : Int
  wt : Int
  rs : Int
  dl : Int
  tn : Int
  tx : Int
  ra : Int
  rb : Int
  deriving DecidableEq, Repr

/-- The strap pins of one link, bit 1 and bit 0 (00_scope.md section 8). -/
structure Straps where
  bit1 : Bool
  bit0 : Bool
  deriving DecidableEq, Repr

/-- The strap pins, which belong to the outside, and the rates sampled from them at power-on and warm reset (R24). -/
structure Rates where
  consoleStraps : Straps
  terminalStraps : Straps
  console : Rate
  terminal : Rate
  deriving DecidableEq, Repr

/-! ### The profile (chapter 1) -/

/-- One accepted section: its name, index and section data (R3). -/
structure Sec where
  name : SecName
  index : Nat
  data : List Byte
  deriving DecidableEq, Repr

/-- A point of a sounding table (R6). -/
structure SndPoint where
  level : Nat
  volume : Nat
  deriving DecidableEq, Repr

/-- A tank of the profile: its TNK section (R5) with its sounding table (R6). -/
structure TankData where
  name : List Byte
  main : Main
  lcg : Nat
  maxLevel : Nat
  minLevel : Nat
  density : Nat
  allowance : Nat
  channel : Option Nat
  points : List SndPoint
  deriving DecidableEq, Repr

/-- A hold of the profile (R7). -/
structure HoldData where
  name : List Byte
  lcg : Nat
  capacity : Nat
  deriving DecidableEq, Repr

/-- A check frame of the profile (R7) with its 33 shear and 33 moment coefficients (R8). -/
structure FrameData where
  position : Nat
  sf0 : Int
  bm0 : Int
  sfPos : Nat
  sfNeg : Nat
  hog : Nat
  sag : Nat
  kS : List Int
  kB : List Int
  deriving DecidableEq, Repr

/-- A row of the hydrostatic table (R9). -/
structure HydRow where
  displacement : Nat
  meanDraft : Nat
  lcb : Nat
  mctc : Nat
  deriving DecidableEq, Repr

/-- The profile in force: W0, x0 and the declared tanks, holds, frames and rows, whose counts are the lengths of the lists (R4). -/
structure Profile where
  w0 : Nat
  x0 : Nat
  tanks : List TankData
  holds : List HoldData
  frames : List FrameData
  rows : List HydRow
  deriving DecidableEq, Repr

/-- What a set closing flag stands for: the slot of the waiting PCLS, the CRC it carried, and whether the checks have passed and the non-volatile write is under way (R13, R14). -/
structure Closing where
  slot : Nat
  cr : Crc32
  writing : Bool
  deriving DecidableEq, Repr

/-- The load record (R1). The closing flag is set when `closing` is present. -/
structure LoadRecord where
  sections : List Sec
  crc : Crc32
  byteCount : Nat
  closing : Option Closing
  deriving DecidableEq, Repr

/-- The profile state with what it holds: a profile in force only in VALID, a load record only in LOADING (R1). -/
inductive ProfileState where
  | empty
  | loading (record : LoadRecord)
  | valid (profile : Profile)
  deriving DecidableEq, Repr

/-- The stored copy in non-volatile memory (R2). -/
structure StoredCopy where
  mark : Bool
  bytes : List Byte
  count : Nat
  crc : Crc32
  deriving DecidableEq, Repr

/-! ### Gauging and the tank table (chapter 3) -/

/-- The record of one gauge channel (R30). -/
structure Channel where
  zeroCode : Nat
  gain : Nat
  offset : Int
  lastRaw : Option Nat
  deriving DecidableEq, Repr

/-- A running scan round: the fixed channel list and the position reached in it (R28). -/
structure Round where
  channels : List Nat
  position : Nat
  deriving DecidableEq, Repr

/-- The gauge scanner (R27, R30). -/
structure Gauge where
  channels : List Channel
  timer : Option Nat
  round : Option Round
  deriving DecidableEq, Repr

/-- The record of one declared tank (R45). Its number is its place in the table; its name and main are read from the profile; its allowance is derived (R44). -/
structure Tank where
  channel : Option Nat
  gauge : GaugeState
  score : Nat
  reinstatement : Nat
  ring : List Nat
  level : Nat
  source : LevelSource
  density : Nat
  mass : Nat
  lastGood : Option Nat
  held : Bool
  deriving DecidableEq, Repr

/-! ### The hull engine and supervisor (chapters 4 and 5) -/

/-- The latched inputs of an evaluation (R51), for a preview with its overrides applied (R53). The lists run over compartments 0 to 32; `saturated` says that a latched or overriding mass was clamped. -/
structure Inputs where
  mass : List Nat
  allowance : List Nat
  saturated : Bool
  profile : Profile
  dl : Int
  tn : Int
  tx : Int
  uptime : Nat
  deriving DecidableEq, Repr

/-- The requester of a preview with the reference by which it knows it (R68). -/
inductive Requester where
  | order (id : Nat)
  | gate (step : Nat)
  | console (slot : Nat)
  deriving DecidableEq, Repr

/-- An entry of the preview queue (R68). -/
structure PreviewEntry where
  requester : Requester
  overrides : List (Nat × Int)
  deriving DecidableEq, Repr

/-- What is being evaluated: a live evaluation with its report mark, or a preview with its reference peak (R49, R75). -/
inductive EvalKind where
  | live (mark : Bool)
  | preview (entry : PreviewEntry) (reference : Option Int)
  deriving DecidableEq, Repr

/-- The running record (R49). -/
structure Running where
  kind : EvalKind
  inputs : Inputs
  deriving DecidableEq, Repr

/-- The hull engine with its evaluation queue (R49, R68). It is IDLE when `running` is absent. -/
structure Engine where
  running : Option Running
  lastKind : LastKind
  pendingLive : Bool
  reportMark : Bool
  previews : List PreviewEntry
  deriving DecidableEq, Repr

/-- A result record (R67). The per-frame lists run over frames 1 to 12; `none` is ABSENT. -/
structure EvalResult where
  isLive : Bool
  displacement : Int
  lcg : Int
  tMean : Int
  tAft : Int
  tFwd : Int
  trim : Int
  sf : List (Option Int)
  bm : List (Option Int)
  sfUtil : List (Option Int)
  bmUtil : List (Option Int)
  draftUtil : Int
  trimUtil : Int
  peak : Int
  peakSource : PeakSource
  band : Band
  tableLow : Bool
  tableHigh : Bool
  saturated : Bool
  uptime : Nat
  ballast : Int
  cargo : Int
  deriving DecidableEq, Repr

/-- The hull condition record (R76). Its band is the live result's band, NONE when there is none. -/
structure Hull where
  live : Option EvalResult
  stop : StopState
  completedAt : Option Nat
  deriving DecidableEq, Repr

/-! ### Pumps, valves and mains (chapter 6) -/

/-- A hold of an input line: the samples still to come until the debounced level takes the new level (R85). -/
structure InputHold where
  samplesLeft : Nat
  deriving DecidableEq, Repr

/-- An input line of the plant chain: the level the outside puts on it, the raw level of its latest sample, its debounced level and a hold in progress (R85). `true` is present. -/
structure InputLine where
  pin : Bool
  raw : Bool
  debounced : Bool
  hold : Option InputHold
  deriving DecidableEq, Repr

/-- A pump record (R90). Its feedbacks are the debounced levels of its input lines. -/
structure Pump where
  state : PumpState
  holder : Option Nat
  failures : Nat
  runSeconds : Nat
  startLine : Bool
  stopTimer : Option Nat
  deriving DecidableEq, Repr

/-- A valve record (R86). `commandedOpen` is the commanded position and the level of the command line. -/
structure Valve where
  commandedOpen : Bool
  state : ValveState
  stroke : Option Nat
  users : Nat
  deriving DecidableEq, Repr

/-- A main record (R91). -/
structure MainRec where
  mode : MainMode
  orders : List Nat
  deriving DecidableEq, Repr

/-- An attempt record (R92), with the pumps that became WITHDRAWN in the attempt (R99). -/
structure Attempt where
  order : Nat
  action : Action
  main : Main
  pumps : List Nat
  valves : List Nat
  phase : Phase
  cause : Option FailCause
  prove : Option Nat
  withdrawn : List Nat
  deriving DecidableEq, Repr

/-- The pump and valve controller. Input lines: 0 to 3 running feedback and 4 to 7 pressure proven of pumps 1 to 4, 8 to 36 the open limits and 37 to 65 the closed limits of valves 0 to 28 (R84). -/
structure Plant where
  lines : List InputLine
  pumps : List Pump
  valves : List Valve
  portMain : MainRec
  stbdMain : MainRec
  attempts : List Attempt
  crossMode : CrossMode
  crossTarget : CrossTarget
  gangedA : Bool
  gangedB : Bool
  deriving DecidableEq, Repr

/-! ### Ballast orders (chapter 7) -/

/-- A running stall window (R123). -/
structure Stall where
  expiry : Nat
  baseline : Nat
  deriving DecidableEq, Repr

/-- An order record (R109). `slot` is the request slot of an ORDR whose reply waits, `clamped` says that the reply is to be CLAMPED (R113 to R115); rank 0 means not yet admitted. -/
structure Order where
  id : Nat
  tank : Nat
  action : Action
  dest : Option Nat
  target : Target
  priority : Nat
  retries : Nat
  manual : Bool
  targetLevel : Nat
  startMass : Nat
  toMove : Nat
  endSource : Nat
  endDest : Option Nat
  direction : Option Direction
  state : OrderState
  reason : Option Reason
  attempts : Nat
  pumps : List Nat
  rank : Nat
  admitted : Option Nat
  started : Option Nat
  ended : Option Nat
  moved : Nat
  progress : Nat
  stall : Option Stall
  gaugeLost : Bool
  slot : Option Nat
  clamped : Bool
  deriving DecidableEq, Repr

/-- A hold-off window (R132). -/
structure Window where
  valid : Bool
  base : Nat
  mask : Nat
  deriving DecidableEq, Repr

/-- The order engine. `runOwed` is the model's own: an arbiter run has been called for and not yet made (R116, log 14). -/
structure Orders where
  slots : List (Option Order)
  rank : Nat
  windows : List Window
  runOwed : Bool
  deriving DecidableEq, Repr

/-! ### The pour gate (chapter 8) -/

/-- A companion of a step: an order id and a required progress (R134). -/
structure Companion where
  order : Nat
  required : Nat
  deriving DecidableEq, Repr

/-- A step record (R134). `replyPending` is the terminal slot of an SREQ whose reply waits. -/
structure Step where
  number : Nat
  hold : Nat
  planned : Nat
  companions : List Companion
  holdPeriod : Option Nat
  state : StepState
  waitReason : Option WaitReason
  replyPending : Option Nat
  base : Option Nat
  lastTally : Option Nat
  tallyAtHalt : Option Nat
  haltCause : Option HaltCause
  overshootMark : Bool
  overshootAccepted : Bool
  runOnRaised : Bool
  loaderStopped : Bool
  final : Option Nat
  grantTime : Option Nat
  endTime : Option Nat
  reportSerial : Option Nat
  holdTimer : Option Nat
  settleTimer : Option Nat
  deriving DecidableEq, Repr

/-- A tally with its arrival uptime (R138). -/
structure Tally where
  tonnes : Nat
  arrival : Nat
  deriving DecidableEq, Repr

/-- A hold record (R138). -/
structure Hold where
  mass : Nat
  source : HoldSource
  latest : Option Tally
  previous : Option Tally
  estimate : Option Nat
  deriving DecidableEq, Repr

/-- The pour gate (R134, R138, R141, R143). Hold h is entry h - 1 of `holds`. -/
structure Pour where
  plan : List Step
  holds : List Hold
  preview : GatePreview
  outstanding : Option Nat
  deriving DecidableEq, Repr

/-! ### The terminal link record (chapter 9) -/

/-- GRNT, HALT and BLKD frames (9.5). -/
inductive Unsolicited where
  | grnt (step hold planned : Nat)
  | halt (step : Nat) (reason : Int)
  | blkd (step : Nat) (reason : Int)
  deriving DecidableEq, Repr

/-- The link record (R158). -/
structure TermLink where
  state : LinkState
  count : Nat
  quietTimer : Option Nat
  kept : List Unsolicited
  deriving DecidableEq, Repr

/-! ### Port reports (chapter 10) -/

/-- The settings of one kind of report (R168). Item codes are 16-bit numbers, family in the high byte (10.3). -/
structure ReportSettings where
  route : Route
  channel : Option Nat
  lengthMode : LengthMode
  content : List Nat
  deriving DecidableEq, Repr

/-- An item place: a code and a value, `none` for ABSENT (R172). -/
structure Item where
  code : Nat
  value : Option Int
  deriving DecidableEq, Repr

/-- A report record: header and item places as composed at the trigger (R172), and the two link flags (R174). -/
structure Report where
  kind : ReportKind
  serial : Nat
  channel : Nat
  truncated : Bool
  tableLow : Bool
  tableHigh : Bool
  callClock : Option Nat
  uptime : Nat
  step : Nat
  items : List Item
  consoleFlag : LinkFlag
  terminalFlag : LinkFlag
  deriving DecidableEq, Repr

/-- The report builder (R168, R173 to R175). -/
structure Reports where
  stepSet : ReportSettings
  surveySet : ReportSettings
  exceptionSet : ReportSettings
  departureSet : ReportSettings
  queue : List Report
  counter : Option Nat
  consoleGap : Nat
  terminalGap : Nat
  deriving DecidableEq, Repr

/-! ### The attention unit (chapter 11) -/

/-- The record of one condition (R181). `cause` is used by level conditions alone. -/
structure Condition where
  pending : Bool
  count : Nat
  first : Option Nat
  latest : Option Nat
  cause : Bool
  deriving DecidableEq, Repr

/-- The attention unit. A condition's notice-owed flag is its presence in `owed`, which keeps the order in which the flags were set (R184). -/
structure Attention where
  conditions : List Condition
  mask : BitVec 14
  owed : List Nat
  deriving DecidableEq, Repr

/-! ### Requests, replies and the ports (chapter 12) -/

/-- A field of a PREV, in request order (R74). -/
inductive PrevField where
  | cm (compartment : Int)
  | ms (mass : Int)
  deriving DecidableEq, Repr

/-- The fields of an ORDR (R111). -/
structure OrdrFields where
  oi : Int
  tk : Int
  ac : Int
  pr : Int
  rt : Int
  dt : Option Int
  mf : Option Int
  tl : Option Int
  tm : Option Int
  deriving DecidableEq, Repr

/-- The fields of an RCFG (R169). -/
structure RcfgFields where
  rk : Int
  ru : Option Int
  ch : Option Int
  lm : Option Int
  ll : Option Int
  ic : List Int
  deriving DecidableEq, Repr

/-- A request with the fields its port parsed from the body (R190). -/
inductive Request where
  | popn
  | pdat (sn : List Byte) (xi : Int) (sd : List Byte)
  | pcls (cr : Crc32)
  | copn
  | cend
  | clks (cl : Int)
  | setp (values : List (Field × Int))
  | tmap (tk gc : Int)
  | gcal (gc : Int) (zc gn off : Option Int)
  | dens (tk dn : Int)
  | sndg (tk lv : Int)
  | gqry (tk gc : Option Int)
  | prev (fields : List PrevField)
  | hqry
  | prst (pu : Int)
  | xovr (xm : Option Int)
  | gang (ga gm : Int)
  | ordr (fields : OrdrFields)
  | ocan (oi : Int)
  | orel (oi : Int)
  | oqry (oi : Option Int)
  | hwin (wn : Int) (wv wb wm : Option Int)
  | plan (st hd pt : Int) (cp : List Companion) (hc : Option Int)
  | pclr (st : Option Int)
  | sfrc (st : Int)
  | sskp (st : Int)
  | hcor (hd ms : Int)
  | rreq
  | rcfg (fields : RcfgFields)
  | aenb (em : Int)
  | aack (cn : List Int)
  | aqry
  | wrst
  | tatt
  | tdet
  | sreq (st : Int)
  | taly (hd ty : Int)
  | sfin (st fn : Int)
  | lstp (st : Int)
  | scan (st : Int)
  | sqry (st : Option Int)
  deriving DecidableEq, Repr

/-- How far the owner has come with a request (R190, R191): handed over and not yet dealt with, taken up with its reply still to be composed, or replied with the reply not yet sent. -/
inductive SlotPhase where
  | handed
  | taken
  | replied
  deriving DecidableEq, Repr

/-- An occupied request slot (R190). `arrival` ranks it among the requests held on its link: a lower number came first (R12; log 51). -/
structure Slot where
  request : Request
  kind : Kind
  tag : Byte
  phase : SlotPhase
  arrival : Nat
  deriving DecidableEq, Repr

/-- A value in a reply: a number, ABSENT, or a run of bytes (R195). -/
inductive Val where
  | num (n : Int)
  | absent
  | raw (bytes : List Byte)
  deriving DecidableEq, Repr

/-- A composed reply. `slot = none` marks a port reply (R190, R191). -/
structure Reply where
  slot : Option Nat
  tag : Byte
  kind : List Byte
  outcome : Oc
  callState : CallState
  fields : List (Field × Val)
  deriving DecidableEq, Repr

/-- Frames of class 1 (R192). -/
inductive Class1 where
  | reply (r : Reply)
  | unsolicited (u : Unsolicited)
  deriving DecidableEq, Repr

/-- A NOTE with what it carries, read as its transmission begins (R184). -/
structure Note where
  condition : Nat
  first : Option Nat
  latest : Option Nat
  count : Nat
  deriving DecidableEq, Repr

/-- A frame on its way out (R192). An RPRT carries its report and the carried count (R176). -/
inductive TxFrame where
  | class1 (f : Class1)
  | note (n : Note)
  | rprt (r : Report) (carried : Nat)
  deriving DecidableEq, Repr

/-- A transmission under way: the frame and the bytes that leave the link (R194). -/
structure Transmission where
  frame : TxFrame
  wire : List Byte
  deriving DecidableEq, Repr

/-- A link's receiver: hunting or collecting, the bytes taken in and not yet dealt with, and the uptime at which the last byte came in (R188). -/
structure Receiver where
  collecting : Bool
  bytes : List Byte
  lastByteAt : Nat
  deriving DecidableEq, Repr

/-- A link port (R190 to R192). -/
structure Port where
  rx : Receiver
  slots : List (Option Slot)
  queue : List Class1
  tx : Option Transmission
  deriving DecidableEq, Repr

/-! ### The whole part -/

/-- The state of the TB-640 with the queue of commands that wait for it. -/
structure State where
  powered : Bool
  clocks : Clocks
  call : CallState
  settings : Settings
  rates : Rates
  profile : ProfileState
  stored : StoredCopy
  gauge : Gauge
  tanks : List Tank
  engine : Engine
  hull : Hull
  plant : Plant
  orders : Orders
  pour : Pour
  term : TermLink
  reports : Reports
  attention : Attention
  console : Port
  terminal : Port
  wrstPending : Bool
  pending : List Instr
  deriving DecidableEq, Repr

/-- Reasons a step can stop with a fault. The manual names no event that stops the part with a fault (log 1), so there is none: no command raises a fault, which is safe. -/
inductive Fault where
  deriving DecidableEq, Repr

/-- Reasons a command is refused by the model. -/
inductive Refusal where
  /-- Raised by exec alone, for a command that has no meaning yet; safe, since the model then says nothing of it. No arm uses it. -/
  | notModelled (mnemonic : String)
  deriving DecidableEq, Repr

/-! ### Values after power-on and warm reset -/

/-- The default settings (R25). -/
def Settings.default : Settings where
  sc := 2
  sw := 120
  sm := 20
  sl := 50
  vt := 90
  pv := 30
  ps := 20
  db := 200
  si := 30
  hp := 2
  qt := 30
  oa := 5
  ro := 300
  wt := 900
  rs := 980
  dl := 18000
  tn := -50
  tx := 300
  ra := 3000
  rb := 64500

/-- The rate a link's straps select (00_scope.md section 8). -/
def Straps.rate (s : Straps) : Rate :=
  match s.bit1, s.bit0 with
  | false, false => .b9600
  | false, true => .b38400
  | true, false => .b115200
  | true, true => .b9600

/-- A channel record after power-on and warm reset (R30). -/
def Channel.initial : Channel where
  zeroCode := 13107
  gain := 7813
  offset := 0
  lastRaw := none

/-- The gauge scanner after power-on and warm reset (R27, R30). -/
def Gauge.initial : Gauge where
  channels := List.replicate 32 Channel.initial
  timer := none
  round := none

/-- The hull engine after power-on and warm reset (R50, R68). -/
def Engine.initial : Engine where
  running := none
  lastKind := .none
  pendingLive := false
  reportMark := false
  previews := []

/-- The hull condition record after a reset of it (R83). -/
def Hull.initial : Hull where
  live := none
  stop := .clear
  completedAt := none

/-- A pump after power-on and warm reset (R107). -/
def Pump.initial : Pump where
  state := .stopped
  holder := none
  failures := 0
  runSeconds := 0
  startLine := false
  stopTimer := none

/-- A valve after power-on and warm reset (R107). -/
def Valve.initial : Valve where
  commandedOpen := false
  state := .closed
  stroke := none
  users := 0

/-- An input line after power-on and warm reset: the debounced level is the raw level of the first sample (R85). -/
def InputLine.firstSample (l : InputLine) : InputLine where
  pin := l.pin
  raw := l.pin
  debounced := l.pin
  hold := none

/-- The pump and valve controller after power-on and warm reset (R107). -/
def Plant.initial (lines : List InputLine) : Plant where
  lines := lines.map InputLine.firstSample
  pumps := List.replicate 4 Pump.initial
  valves := List.replicate 29 Valve.initial
  portMain := { mode := .idle, orders := [] }
  stbdMain := { mode := .idle, orders := [] }
  attempts := []
  crossMode := .straight
  crossTarget := .straight
  gangedA := false
  gangedB := false

/-- An invalid hold-off window (R108); base and mask are the model's choice (log 32). -/
def Window.initial : Window where
  valid := false
  base := 0
  mask := 0

/-- The order engine after power-on and warm reset (R108). -/
def Orders.initial : Orders where
  slots := List.replicate Config.orderSlots none
  rank := 0
  windows := List.replicate 4 Window.initial
  runOwed := false

/-- A hold record after COPN, CEND, power-on and warm reset (R138). -/
def Hold.initial : Hold where
  mass := 0
  source := .tally
  latest := none
  previous := none
  estimate := none

/-- The pour gate after power-on and warm reset (R157). -/
def Pour.initial : Pour where
  plan := []
  holds := List.replicate 9 Hold.initial
  preview := .none
  outstanding := none

/-- The link record after power-on and warm reset (R166). -/
def TermLink.initial : TermLink where
  state := .detached
  count := 0
  quietTimer := none
  kept := []

/-- Default report settings (R168). -/
def ReportSettings.default : ReportKind → ReportSettings
  | .step => { route := .both, channel := none, lengthMode := .auto, content := [0x0DFF, 0x0AFF, 0x04FF, 0x08FF, 0x09FF] }
  | .survey => { route := .console, channel := none, lengthMode := .auto, content := [0x02FF, 0x03FF, 0x0AFF] }
  | .exception => { route := .both, channel := none, lengthMode := .auto, content := [0x0AFF, 0x0DFF, 0x05FF, 0x06FF, 0x07FF] }
  | .departure => { route := .both, channel := none, lengthMode := .auto, content := [0x0AFF, 0x02FF, 0x04FF, 0x0CFF] }

/-- The report builder after power-on and warm reset (R180). -/
def Reports.initial : Reports where
  stepSet := ReportSettings.default .step
  surveySet := ReportSettings.default .survey
  exceptionSet := ReportSettings.default .exception
  departureSet := ReportSettings.default .departure
  queue := []
  counter := none
  consoleGap := 0
  terminalGap := 0

/-- A condition record after power-on, warm reset and call end (R187). -/
def Condition.initial : Condition where
  pending := false
  count := 0
  first := none
  latest := none
  cause := false

/-- The attention unit after power-on, warm reset and call end (R187). -/
def Attention.initial : Attention where
  conditions := List.replicate 14 Condition.initial
  mask := 0x3FFF#14
  owed := []

/-- A port after power-on and warm reset (R188, R191, R192). The time of the last byte is the model's choice (log 30). -/
def Port.initial : Port where
  rx := { collecting := false, bytes := [], lastByteAt := 0 }
  slots := List.replicate Config.slotCount none
  queue := []
  tx := none

/-- A tank record after power-on, warm reset and the announcement of a new profile (R47). -/
def Tank.initial (d : TankData) : Tank where
  channel := d.channel
  gauge := if d.channel.isNone then .unmapped else .normal
  score := 0
  reinstatement := 0
  ring := []
  level := 0
  source := .frozen
  density := d.density
  mass := 0
  lastGood := none
  held := false

/-- The tank table of a profile state (R47): a record for each declared tank, none without a profile. -/
def tanksOf : ProfileState → List Tank
  | .valid p => p.tanks.map Tank.initial
  | _ => []

/-- The call state after a reset (R24). -/
def callAfterReset : ProfileState → CallState
  | .valid _ => .idle
  | _ => .noProfile

/-- What power-on and warm reset share: every block at its initial values, with the given profile state, stored copy, straps, input lines and queue kept from before (R24, R47, R83, R107, R108, R157, R166, R180, R187). -/
def State.restarted (profile : ProfileState) (stored : StoredCopy) (consoleStraps terminalStraps : Straps)
    (lines : List InputLine) (pending : List Instr) : State where
  powered := true
  clocks := { uptime := 0, call := none }
  call := callAfterReset profile
  settings := Settings.default
  rates := { consoleStraps := consoleStraps, terminalStraps := terminalStraps, console := consoleStraps.rate, terminal := terminalStraps.rate }
  profile := profile
  stored := stored
  gauge := Gauge.initial
  tanks := tanksOf profile
  engine := Engine.initial
  hull := Hull.initial
  plant := Plant.initial lines
  orders := Orders.initial
  pour := Pour.initial
  term := TermLink.initial
  reports := Reports.initial
  attention := Attention.initial
  console := Port.initial
  terminal := Port.initial
  wrstPending := false
  pending := pending

/-- An input line on which nothing is present (log 4). -/
def InputLine.quiet : InputLine where
  pin := false
  raw := false
  debounced := false
  hold := none

/-- The stored copy of a part that has never been loaded (log 5). -/
def StoredCopy.blank : StoredCopy where
  mark := false
  bytes := []
  count := 0
  crc := 0#32

/-- The part right after power-on with no intact stored copy (R15, R24; log 4, 5, 6). -/
def State.reset : State :=
  State.restarted .empty StoredCopy.blank { bit1 := false, bit0 := false } { bit1 := false, bit0 := false }
    (List.replicate 66 InputLine.quiet) []

end Sys2Proof.Machine
end

