-- ==== Sys2Proof/Machine/Ops.lean ====
section
/-! DEFINITION. The named operations over the state: lists as tables, one setter for each block, the four roundings (R48), timers (R22), and the records that many blocks read. -/

namespace Sys2Proof.Machine

/-! ### Tables -/

/-- Entry `i` of a table changed by `f`; a number beyond the table changes nothing. -/
def modAt {α : Type} : List α → Nat → (α → α) → List α
  | [], _, _ => []
  | x :: xs, 0, f => f x :: xs
  | x :: xs, i + 1, f => x :: modAt xs i f

/-- The numbers 0 to n - 1. -/
def upTo : Nat → List Nat
  | 0 => []
  | n + 1 => upTo n ++ [n]

/-- The first position whose entry satisfies `p`. -/
def indexOf? {α : Type} (p : α → Bool) : List α → Option Nat
  | [] => none
  | x :: xs => if p x then some 0 else (indexOf? p xs).map (· + 1)

/-- A list sorted by insertion: `before x y` says that x stands before y. Entries neither before the other keep their order. -/
def insertBy {α : Type} (before : α → α → Bool) (x : α) : List α → List α
  | [] => [x]
  | y :: ys => if before x y then x :: y :: ys else y :: insertBy before x ys

/-- A list sorted by `before`. -/
def sortBy {α : Type} (before : α → α → Bool) : List α → List α
  | [] => []
  | x :: xs => insertBy before x (sortBy before xs)

/-! ### Roundings (R48) -/

/-- Half up: for quotients that cannot be negative, with a positive divisor (R48). -/
def roundHalfUp (n d : Int) : Int := (2 * n + d) / (2 * d)

/-- Half away from zero, with a positive divisor (R48). -/
def roundHalfAway (n d : Int) : Int :=
  if 0 ≤ n then (2 * n + d) / (2 * d) else -((2 * (-n) + d) / (2 * d))

/-- Truncated toward zero (R48). -/
def roundTrunc (n d : Int) : Int := n.tdiv d

/-- Rounded up: for quotients that cannot be negative, with a positive divisor (R48). -/
def roundUp (n d : Int) : Int := (n + d - 1) / d

/-- Saturated to lo to hi (00_scope.md 4.3). -/
def saturate (lo hi x : Int) : Int := if x < lo then lo else if hi < x then hi else x

/-- A number lies in lo to hi. -/
def within (lo hi x : Int) : Bool := lo ≤ x && x ≤ hi

/-! ### Timers (R22) -/

/-- A timer is due: it is running and the uptime clock has reached its expiry time (R22). -/
def due (timer : Option Nat) (uptime : Nat) : Bool :=
  match timer with
  | some t => t ≤ uptime
  | none => false

/-! ### Setters -/

/-- The state with another `powered`. -/
def setPowered (s : State) (x : Bool) : State := { s with powered := x }

/-- The state with another `clocks`. -/
def setClocks (s : State) (x : Clocks) : State := { s with clocks := x }

/-- The state with another `call`. -/
def setCall (s : State) (x : CallState) : State := { s with call := x }

/-- The state with another `settings`. -/
def setSettings (s : State) (x : Settings) : State := { s with settings := x }

/-- The state with another `rates`. -/
def setRates (s : State) (x : Rates) : State := { s with rates := x }

/-- The state with another `profile`. -/
def setProfile (s : State) (x : ProfileState) : State := { s with profile := x }

/-- The state with another `stored`. -/
def setStored (s : State) (x : StoredCopy) : State := { s with stored := x }

/-- The state with another `gauge`. -/
def setGauge (s : State) (x : Gauge) : State := { s with gauge := x }

/-- The state with another `tanks`. -/
def setTanks (s : State) (x : List Tank) : State := { s with tanks := x }

/-- The state with another `engine`. -/
def setEngine (s : State) (x : Engine) : State := { s with engine := x }

/-- The state with another `hull`. -/
def setHull (s : State) (x : Hull) : State := { s with hull := x }

/-- The state with another `plant`. -/
def setPlant (s : State) (x : Plant) : State := { s with plant := x }

/-- The state with another `orders`. -/
def setOrders (s : State) (x : Orders) : State := { s with orders := x }

/-- The state with another `pour`. -/
def setPour (s : State) (x : Pour) : State := { s with pour := x }

/-- The state with another `term`. -/
def setTerm (s : State) (x : TermLink) : State := { s with term := x }

/-- The state with another `reports`. -/
def setReports (s : State) (x : Reports) : State := { s with reports := x }

/-- The state with another `attention`. -/
def setAttention (s : State) (x : Attention) : State := { s with attention := x }

/-- The state with another `console`. -/
def setConsole (s : State) (x : Port) : State := { s with console := x }

/-- The state with another `terminal`. -/
def setTerminal (s : State) (x : Port) : State := { s with terminal := x }

/-- The state with another `wrstPending`. -/
def setWrstPending (s : State) (x : Bool) : State := { s with wrstPending := x }

/-- The state with another `pending`. -/
def setPending (s : State) (x : List Instr) : State := { s with pending := x }
/-! ### Reading the blocks -/

/-- The uptime (R22). -/
def now (s : State) : Nat := s.clocks.uptime

/-- The expiry time of a timer started now with a period of `seconds` (R22). -/
def expiryAfter (s : State) (seconds : Int) : Nat := now s + seconds.toNat

/-- The port of a link. -/
def portOf (s : State) : Link → Port
  | .console => s.console
  | .terminal => s.terminal

/-- The state with another port on a link. -/
def setPort (s : State) (l : Link) (p : Port) : State :=
  match l with
  | .console => setConsole s p
  | .terminal => setTerminal s p

/-- The profile in force, present in VALID alone (R1). -/
def profileOf (s : State) : Option Profile :=
  match s.profile with
  | .valid p => some p
  | _ => none

/-- The profile's data of a tank, absent when the tank is not declared (R4). -/
def tankData (s : State) (t : Nat) : Option TankData := (profileOf s).bind fun p => p.tanks[t]?

/-- The profile's data of a hold, absent when the hold is not declared (R4). -/
def holdData (s : State) (h : Nat) : Option HoldData :=
  if h = 0 then none else (profileOf s).bind fun p => p.holds[h - 1]?

/-- The record of a declared tank (R45). -/
def tankRec (s : State) (t : Nat) : Option Tank := s.tanks[t]?

/-- The tank table with the record of one tank changed. -/
def modTank (s : State) (t : Nat) (f : Tank → Tank) : State := setTanks s (modAt s.tanks t f)

/-- The record of a hold 1 to 9 (R138). -/
def holdRec (s : State) (h : Nat) : Option Hold := if h = 0 then none else s.pour.holds[h - 1]?

/-- The hold table with the record of one hold changed. -/
def modHold (s : State) (h : Nat) (f : Hold → Hold) : State :=
  if h = 0 then s else setPour s { s.pour with holds := modAt s.pour.holds (h - 1) f }

/-- A call is on: IN_CALL or CLOSING, where live evaluations are requested (R21). -/
def callOn (s : State) : Bool := s.call = .inCall || s.call = .closing

/-- The band of the hull condition record; `none` is NONE (R76). -/
def hullBand (s : State) : Option Band := s.hull.live.map EvalResult.band

/-- A field read as a number 0 to `hi`. -/
def natUpTo (hi : Nat) (x : Int) : Option Nat := if within 0 hi x then some x.toNat else none

/-- A field read as a number lo to hi. -/
def natIn (lo hi : Nat) (x : Int) : Option Nat := if within lo hi x then some x.toNat else none

end Sys2Proof.Machine
end

