-- ==== Sys2Proof/Machine/Wire.lean ====
section
/-! DEFINITION. Bytes: the CRC-16 of the links (R189) and the CRC-32 of the profile (R10), big-endian numbers (R194, R195), the frames the part sends (R194 to R197) and the reading of a collected frame (R188). -/

namespace Sys2Proof.Machine

/-! ### The CRCs -/

/-- `n` applications of `f`. -/
def iter {α : Type} (f : α → α) : Nat → α → α
  | 0, x => x
  | n + 1, x => iter f n (f x)

/-- One of the eight steps of the CRC-16 (R189). -/
def crc16Step (r : Crc16) : Crc16 := if r.msb then (r <<< 1) ^^^ 0x1021#16 else r <<< 1

/-- The CRC-16 register after one more byte (R189). -/
def crc16Byte (r : Crc16) (b : Byte) : Crc16 := iter crc16Step 8 (r ^^^ (b.setWidth 16 <<< 8))

/-- The CRC-16 of a run of bytes (R189). -/
def crc16 (bytes : List Byte) : Crc16 := bytes.foldl crc16Byte 0xFFFF#16

/-- One of the eight steps of the CRC-32 (R10). -/
def crc32Step (r : Crc32) : Crc32 := if r.getLsbD 0 then (r >>> 1) ^^^ 0xEDB88320#32 else r >>> 1

/-- The CRC-32 register after one more byte (R10, step 2). -/
def crc32Byte (r : Crc32) (b : Byte) : Crc32 := iter crc32Step 8 (r ^^^ b.setWidth 32)

/-- The register of an empty run: all ones (R10, step 1). -/
def crc32Start : Crc32 := 0xFFFFFFFF#32

/-- The register advanced over a run of bytes (R10, step 2). -/
def crc32Run (r : Crc32) (bytes : List Byte) : Crc32 := bytes.foldl crc32Byte r

/-- Every bit inverted (R10, step 3). -/
def crc32Finish (r : Crc32) : Crc32 := ~~~r

/-- The CRC-32 of a run of bytes (R10). -/
def crc32 (bytes : List Byte) : Crc32 := crc32Finish (crc32Run crc32Start bytes)

/-! ### Numbers as bytes -/

/-- The low `n` bytes of a number, most significant first (R194). -/
def natBytes : Nat → Nat → List Byte
  | 0, _ => []
  | n + 1, x => natBytes n (x / 256) ++ [BitVec.ofNat 8 x]

/-- An integer in two's complement on `n` bytes, most significant first. -/
def intBytes (n : Nat) (x : Int) : List Byte := natBytes n (x % (2 ^ (8 * n) : Nat)).toNat

/-- The unsigned number of a run of bytes, most significant first (R194). -/
def natOfBytes (bytes : List Byte) : Nat := bytes.foldl (fun n b => n * 256 + b.toNat) 0

/-- The two's complement integer of a run of bytes (R195). -/
def intOfBytes (bytes : List Byte) : Int :=
  let n := natOfBytes bytes
  if 2 * n < 2 ^ (8 * bytes.length) then n else (n : Int) - (2 ^ (8 * bytes.length) : Nat)

/-- A number as the part writes it: 4 bytes, or 8 where it exceeds the 4-byte range (R195). -/
def numBytes (x : Int) : List Byte :=
  if within (-2147483648) 2147483647 x then intBytes 4 x else intBytes 8 x

/-! ### Names -/

/-- An ASCII character as a byte. -/
def asciiByte (c : Char) : Byte := BitVec.ofNat 8 c.toNat

/-- Four ASCII characters as bytes. -/
def ascii4 (a b c d : Char) : List Byte := [asciiByte a, asciiByte b, asciiByte c, asciiByte d]

/-- The four letters of a request kind (12.4, 9.5). -/
def kindAscii : Kind → List Byte
  | .POPN => ascii4 'P' 'O' 'P' 'N'
  | .PDAT => ascii4 'P' 'D' 'A' 'T'
  | .PCLS => ascii4 'P' 'C' 'L' 'S'
  | .COPN => ascii4 'C' 'O' 'P' 'N'
  | .CEND => ascii4 'C' 'E' 'N' 'D'
  | .CLKS => ascii4 'C' 'L' 'K' 'S'
  | .SETP => ascii4 'S' 'E' 'T' 'P'
  | .TMAP => ascii4 'T' 'M' 'A' 'P'
  | .GCAL => ascii4 'G' 'C' 'A' 'L'
  | .DENS => ascii4 'D' 'E' 'N' 'S'
  | .SNDG => ascii4 'S' 'N' 'D' 'G'
  | .GQRY => ascii4 'G' 'Q' 'R' 'Y'
  | .PREV => ascii4 'P' 'R' 'E' 'V'
  | .HQRY => ascii4 'H' 'Q' 'R' 'Y'
  | .PRST => ascii4 'P' 'R' 'S' 'T'
  | .XOVR => ascii4 'X' 'O' 'V' 'R'
  | .GANG => ascii4 'G' 'A' 'N' 'G'
  | .ORDR => ascii4 'O' 'R' 'D' 'R'
  | .OCAN => ascii4 'O' 'C' 'A' 'N'
  | .OREL => ascii4 'O' 'R' 'E' 'L'
  | .OQRY => ascii4 'O' 'Q' 'R' 'Y'
  | .HWIN => ascii4 'H' 'W' 'I' 'N'
  | .PLAN => ascii4 'P' 'L' 'A' 'N'
  | .PCLR => ascii4 'P' 'C' 'L' 'R'
  | .SFRC => ascii4 'S' 'F' 'R' 'C'
  | .SSKP => ascii4 'S' 'S' 'K' 'P'
  | .HCOR => ascii4 'H' 'C' 'O' 'R'
  | .RREQ => ascii4 'R' 'R' 'E' 'Q'
  | .RCFG => ascii4 'R' 'C' 'F' 'G'
  | .AENB => ascii4 'A' 'E' 'N' 'B'
  | .AACK => ascii4 'A' 'A' 'C' 'K'
  | .AQRY => ascii4 'A' 'Q' 'R' 'Y'
  | .WRST => ascii4 'W' 'R' 'S' 'T'
  | .TATT => ascii4 'T' 'A' 'T' 'T'
  | .TDET => ascii4 'T' 'D' 'E' 'T'
  | .SREQ => ascii4 'S' 'R' 'E' 'Q'
  | .TALY => ascii4 'T' 'A' 'L' 'Y'
  | .SFIN => ascii4 'S' 'F' 'I' 'N'
  | .LSTP => ascii4 'L' 'S' 'T' 'P'
  | .SCAN => ascii4 'S' 'C' 'A' 'N'
  | .SQRY => ascii4 'S' 'Q' 'R' 'Y'

/-- The request set of a link (12.4, 9.5). -/
def kindsOf : Link → List Kind
  | .console => [.POPN, .PDAT, .PCLS, .COPN, .CEND, .CLKS, .SETP, .TMAP, .GCAL, .DENS, .SNDG, .GQRY, .PREV, .HQRY,
      .PRST, .XOVR, .GANG, .ORDR, .OCAN, .OREL, .OQRY, .HWIN, .PLAN, .PCLR, .SFRC, .SSKP, .HCOR,
      .RREQ, .RCFG, .AENB, .AACK, .AQRY, .WRST]
  | .terminal => [.TATT, .TDET, .SREQ, .TALY, .SFIN, .LSTP, .SCAN, .SQRY]

/-- The kind of a link's request set that four bytes name (R190, step 1). -/
def kindOf (l : Link) (bytes : List Byte) : Option Kind := (kindsOf l).find? fun k => kindAscii k == bytes

/-- Two ASCII characters as bytes. -/
def ascii2 (a b : Char) : List Byte := [asciiByte a, asciiByte b]

/-- The two letters of a field name. -/
def fieldAscii : Field → List Byte
  | .SN => ascii2 'S' 'N' | .XI => ascii2 'X' 'I' | .SD => ascii2 'S' 'D' | .CR => ascii2 'C' 'R' | .CL => ascii2 'C' 'L'
  | .SC => ascii2 'S' 'C' | .SW => ascii2 'S' 'W' | .SM => ascii2 'S' 'M' | .SL => ascii2 'S' 'L' | .VT => ascii2 'V' 'T'
  | .PV => ascii2 'P' 'V' | .PS => ascii2 'P' 'S' | .DB => ascii2 'D' 'B' | .SI => ascii2 'S' 'I' | .HP => ascii2 'H' 'P'
  | .QT => ascii2 'Q' 'T' | .OA => ascii2 'O' 'A' | .RO => ascii2 'R' 'O' | .WT => ascii2 'W' 'T' | .RS => ascii2 'R' 'S'
  | .DL => ascii2 'D' 'L' | .TN => ascii2 'T' 'N' | .TX => ascii2 'T' 'X' | .RA => ascii2 'R' 'A' | .RB => ascii2 'R' 'B'
  | .TK => ascii2 'T' 'K' | .GC => ascii2 'G' 'C' | .ZC => ascii2 'Z' 'C' | .GN => ascii2 'G' 'N' | .OF => ascii2 'O' 'F'
  | .DN => ascii2 'D' 'N' | .LV => ascii2 'L' 'V' | .CM => ascii2 'C' 'M' | .MS => ascii2 'M' 'S' | .PU => ascii2 'P' 'U'
  | .XM => ascii2 'X' 'M' | .GA => ascii2 'G' 'A' | .GM => ascii2 'G' 'M' | .OI => ascii2 'O' 'I' | .AC => ascii2 'A' 'C'
  | .DT => ascii2 'D' 'T' | .PR => ascii2 'P' 'R' | .RT => ascii2 'R' 'T' | .MF => ascii2 'M' 'F' | .TL => ascii2 'T' 'L'
  | .TM => ascii2 'T' 'M' | .WN => ascii2 'W' 'N' | .WV => ascii2 'W' 'V' | .WB => ascii2 'W' 'B' | .WM => ascii2 'W' 'M'
  | .ST => ascii2 'S' 'T' | .HD => ascii2 'H' 'D' | .PT => ascii2 'P' 'T' | .CP => ascii2 'C' 'P' | .HC => ascii2 'H' 'C'
  | .RK => ascii2 'R' 'K' | .RU => ascii2 'R' 'U' | .CH => ascii2 'C' 'H' | .LM => ascii2 'L' 'M' | .LL => ascii2 'L' 'L'
  | .IC => ascii2 'I' 'C' | .EM => ascii2 'E' 'M' | .CN => ascii2 'C' 'N' | .TY => ascii2 'T' 'Y' | .FN => ascii2 'F' 'N'
  | .QK => ascii2 'Q' 'K' | .OC => ascii2 'O' 'C' | .CS => ascii2 'C' 'S' | .RV => ascii2 'R' 'V' | .LS => ascii2 'L' 'S'
  | .QC => ascii2 'Q' 'C' | .SS => ascii2 'S' 'S' | .RN => ascii2 'R' 'N' | .SR => ascii2 'S' 'R' | .QN => ascii2 'Q' 'N'
  | .D1 => ascii2 'D' '1' | .D2 => ascii2 'D' '2' | .NC => ascii2 'N' 'C'

/-- The three letters of a section name (R3). -/
def secAscii : SecName → List Byte
  | .gen => [asciiByte 'G', asciiByte 'E', asciiByte 'N']
  | .tnk => [asciiByte 'T', asciiByte 'N', asciiByte 'K']
  | .snd => [asciiByte 'S', asciiByte 'N', asciiByte 'D']
  | .hld => [asciiByte 'H', asciiByte 'L', asciiByte 'D']
  | .frm => [asciiByte 'F', asciiByte 'R', asciiByte 'M']
  | .ksf => [asciiByte 'K', asciiByte 'S', asciiByte 'F']
  | .kbm => [asciiByte 'K', asciiByte 'B', asciiByte 'M']
  | .hyd => [asciiByte 'H', asciiByte 'Y', asciiByte 'D']

/-- The eight section names (R3). -/
def secNames : List SecName := [.gen, .tnk, .snd, .hld, .frm, .ksf, .kbm, .hyd]

/-- The section name that three bytes spell (R12, test 3). -/
def secOf (bytes : List Byte) : Option SecName := secNames.find? fun n => secAscii n == bytes

/-! ### Codes of named values (R195) -/

/-- OC. -/
def ocCode : Oc → Int
  | .ok => 0 | .clamped => 1 | .format => 2 | .unknown => 3 | .state => 4 | .busy => 5 | .full => 6 | .conflict => 7
  | .range => 8 | .limit => 9 | .held => 10 | .noGauge => 11 | .route => 12 | .sequence => 13 | .profile => 14
  | .profileCrc => 15 | .grant => 16 | .wait => 17 | .refuse => 18

/-- CS (R17). -/
def callCode : CallState → Int
  | .noProfile => 0 | .idle => 1 | .inCall => 2 | .closing => 3

/-- AC. -/
def actionCode : Action → Int
  | .fill => 0 | .discharge => 1 | .transfer => 2

/-- XM. -/
def crossCode : CrossMode → Int
  | .straight => 0 | .crossed => 1 | .changing => 2 | .fault => 3

/-- XM of a target. -/
def targetCode : CrossTarget → Int
  | .straight => 0 | .crossed => 1

/-- RK. -/
def reportCode : ReportKind → Int
  | .step => 0 | .survey => 1 | .exception => 2 | .departure => 3

/-- RU. -/
def routeCode : Route → Int
  | .console => 0 | .terminal => 1 | .both => 2

/-- SS. -/
def stepCode : StepState → Int
  | .planned => 0 | .evaluating => 1 | .waiting => 2 | .blocked => 3 | .pouring => 4 | .halted => 5 | .settling => 6
  | .reporting => 7 | .done => 8 | .skipped => 9

/-- RN of a wait reason. -/
def waitCode : WaitReason → Int
  | .report => 1 | .ballast => 2 | .hull => 3

/-- RN PROJECTED. -/
def rnProjected : Int := 4

/-- RN TIMEOUT. -/
def rnTimeout : Int := 5

/-- RN SKIPPED. -/
def rnSkipped : Int := 6

/-- RN of a halt cause. -/
def haltCode : HaltCause → Int
  | .hull => 3 | .overshoot => 7 | .link => 8

/-- Gauge state (item family 0x03). -/
def gaugeCode : GaugeState → Int
  | .normal => 0 | .suspect => 1 | .withdrawn => 2 | .unmapped => 3

/-- Hold source (item family 0x05). -/
def holdSourceCode : HoldSource → Int
  | .tally => 0 | .estimate => 1 | .corrected => 2

/-- Pump state (item family 0x0B). -/
def pumpCode : PumpState → Int
  | .stopped => 0 | .priming => 1 | .running => 2 | .stopping => 3 | .withdrawn => 4

/-- Band, NONE for no live result (item 0x0A08). -/
def bandCode : Option Band → Int
  | none => 0 | some .green => 1 | some .amber => 2 | some .red => 3

/-- Peak source (item 0x0A07). -/
def peakSourceCode : PeakSource → Int
  | .sf f => 100 + f | .bm f => 200 + f | .draft => 300 | .trim => 301

/-- Order state. -/
def orderStateCode : OrderState → Int
  | .admitting => 0 | .queued => 1 | .lineup => 2 | .starting => 3 | .active => 4 | .stopping => 5 | .suspended => 6
  | .done => 7 | .failed => 8 | .cancelled => 9

/-- Order reason. -/
def reasonCode : Reason → Int
  | .target => 1 | .destFull => 2 | .cancel => 3 | .hull => 4 | .preempted => 5 | .noGauge => 6 | .stall => 7
  | .lineupFail => 8 | .startFail => 9 | .trip => 10 | .held => 11

/-- Direction. -/
def directionCode : Direction → Int
  | .relieving => 0 | .loading => 1

/-- Level source. -/
def levelSourceCode : LevelSource → Int
  | .gauge => 0 | .frozen => 1 | .manual => 2

/-- Main. -/
def mainCode : Main → Int
  | .port => 0 | .stbd => 1

/-- Valve state. -/
def valveCode : ValveState → Int
  | .closed => 0 | .opening => 1 | .opened => 2 | .closing => 3 | .fault => 4

/-- Main mode. -/
def mainModeCode : MainMode → Int
  | .idle => 0 | .filling => 1 | .discharging => 2 | .transferring => 3

/-- Stop state. -/
def stopCode : StopState → Int
  | .clear => 0 | .stopped => 1

/-- Last kind of evaluation. -/
def lastKindCode : LastKind → Int
  | .none => 0 | .live => 1 | .preview => 2

/-- LS (R158). -/
def linkCode : LinkState → Int
  | .detached => 0 | .up => 1 | .quiet => 2 | .lost => 3

/-- A yes-or-no value. -/
def boolCode (b : Bool) : Int := if b then 1 else 0

/-! ### Values in replies -/

/-- A number or ABSENT. -/
def valOr (x : Option Int) : Val :=
  match x with
  | some n => .num n
  | none => .absent

/-- A natural number or ABSENT. -/
def valNat (x : Option Nat) : Val := valOr (x.map Int.ofNat)

/-- A result value without a field name, in field RV (R195). -/
def rv (v : Val) : Field × Val := (.RV, v)

/-- A number in field RV. -/
def rvNum (n : Int) : Field × Val := (.RV, .num n)

/-! ### Frames as bytes (R194 to R197) -/

/-- The bytes of a value (R195). -/
def valBytes : Val → List Byte
  | .num n => numBytes n
  | .absent => intBytes 4 Config.absentCode
  | .raw b => b

/-- A field element: name, value length, value (R194). -/
def fieldBytes (f : Field × Val) : List Byte :=
  fieldAscii f.1 ++ [BitVec.ofNat 8 (valBytes f.2).length] ++ valBytes f.2

/-- A body of field elements (R194). -/
def bodyBytes (fields : List (Field × Val)) : List Byte := fields.flatMap fieldBytes

/-- A frame: start byte, length, kind, tag, body, CRC-16 over length to body (R188, R194). -/
def frameBytes (kind : List Byte) (tag : Byte) (body : List Byte) : List Byte :=
  let covered := natBytes 2 body.length ++ kind ++ [tag] ++ body
  [0x5A#8] ++ covered ++ natBytes 2 (crc16 covered).toNat

/-- The body of a reply: QK, OC, CS, result fields (R191, R196). -/
def replyFields (r : Reply) : List (Field × Val) :=
  [(.QK, .raw r.kind), (.OC, .num (ocCode r.outcome)), (.CS, .num (callCode r.callState))] ++ r.fields

/-- Kind and fields of an unsolicited frame (9.5). -/
def unsolicitedBytes : Unsolicited → List Byte
  | .grnt st hd pt => frameBytes (ascii4 'G' 'R' 'N' 'T') 0#8 (bodyBytes [(.ST, .num st), (.HD, .num hd), (.PT, .num pt)])
  | .halt st rn => frameBytes (ascii4 'H' 'A' 'L' 'T') 0#8 (bodyBytes [(.ST, .num st), (.RN, .num rn)])
  | .blkd st rn => frameBytes (ascii4 'B' 'L' 'K' 'D') 0#8 (bodyBytes [(.ST, .num st), (.RN, .num rn)])

/-- The value of a report item in 4 bytes, ABSENT where it has none (R197). -/
def itemBytes (i : Item) : List Byte := natBytes 2 i.code ++ intBytes 4 (i.value.getD Config.absentCode)

/-- The flags byte of a report header (R197). -/
def reportFlags (r : Report) : Nat :=
  (if r.truncated then 1 else 0) + (if r.callClock.isNone then 2 else 0) + (if r.tableLow then 4 else 0) + (if r.tableHigh then 8 else 0)

/-- The RPRT body: a 16-byte header with the gap count of this transmission, then the item places (R197). -/
def reportBody (r : Report) (gap : Nat) : List Byte :=
  natBytes 1 (reportCode r.kind).toNat ++ natBytes 2 r.serial ++ natBytes 1 r.channel ++ natBytes 1 gap
    ++ natBytes 1 (reportFlags r) ++ intBytes 4 ((r.callClock.map Int.ofNat).getD Config.absentCode)
    ++ natBytes 4 r.uptime ++ natBytes 1 r.step ++ natBytes 1 r.items.length ++ r.items.flatMap itemBytes

/-- The bytes of a frame as it leaves a link (R194). -/
def txBytes : TxFrame → List Byte
  | .class1 (.reply r) => frameBytes (ascii4 'R' 'P' 'L' 'Y') r.tag (bodyBytes (replyFields r))
  | .class1 (.unsolicited u) => unsolicitedBytes u
  | .note n => frameBytes (ascii4 'N' 'O' 'T' 'E') 0#8
      (bodyBytes [(.CN, .num n.condition), (.D1, valNat n.first), (.D2, valNat n.latest), (.NC, .num n.count)])
  | .rprt r carried => frameBytes (ascii4 'R' 'P' 'R' 'T') 0#8 (reportBody r carried)

/-! ### Reading a collected frame (R188) -/

/-- What the bytes collected from a start byte amount to: not yet a frame, a frame to be discarded, or a received frame with the bytes that follow it. -/
inductive Collected where
  | incomplete
  | bad
  | frame (kind : List Byte) (tag : Byte) (body : List Byte) (rest : List Byte)
  deriving DecidableEq, Repr

/-- The collected bytes read as a frame: an over-long length is bad as soon as its two bytes are in, a CRC that does not match when the last CRC byte is in (R188). -/
def readFrame (bytes : List Byte) : Collected :=
  if bytes.length < 3 then .incomplete
  else
    let n := natOfBytes ((bytes.drop 1).take 2)
    if Config.bodyMax < n then .bad
    else if bytes.length < 10 + n then .incomplete
    else if crc16 ((bytes.drop 1).take (7 + n)) = BitVec.ofNat 16 (natOfBytes ((bytes.drop (8 + n)).take 2)) then
      .frame ((bytes.drop 3).take 4) ((bytes.drop 7).headD 0#8) ((bytes.drop 8).take n) (bytes.drop (10 + n))
    else .bad

end Sys2Proof.Machine
end

