-- ==== Sys2Proof/Machine/Operands.lean ====
section
/-! DEFINITION. The operands of every request: the body parser of R190 step 4 with the field table of each kind, and the request it makes. -/

namespace Sys2Proof.Machine

/-- One field element of a body: its two name bytes and its value bytes (R194). -/
structure Element where
  name : List Byte
  value : List Byte
  deriving DecidableEq, Repr

/-- How often a field may stand in a body (R190). -/
inductive Presence where
  | required
  | optional
  | list
  deriving DecidableEq, Repr

/-- The allowed lengths of a value (R195). -/
inductive LengthRule where
  | number
  | exact (n : Nat)
  | free
  deriving DecidableEq, Repr

/-- One field of a kind. -/
structure FieldSpec where
  field : Field
  presence : Presence
  length : LengthRule
  deriving DecidableEq, Repr

/-- A required number. -/
def need (f : Field) : FieldSpec := { field := f, presence := .required, length := .number }

/-- An optional number. -/
def may (f : Field) : FieldSpec := { field := f, presence := .optional, length := .number }

/-- A list of numbers. -/
def many (f : Field) : FieldSpec := { field := f, presence := .list, length := .number }

/-- The setting fields of SETP (R25). -/
def settingFields : List Field :=
  [.SC, .SW, .SM, .SL, .VT, .PV, .PS, .DB, .SI, .HP, .QT, .OA, .RO, .WT, .RS, .DL, .TN, .TX, .RA, .RB]

/-- The fields of each kind, from the rule that states the request. The XI of a PDAT is a number of 1 to 8 bytes (R195), although R3 gives it as one byte (log 52). -/
def fieldsOf : Kind → List FieldSpec
  | .POPN | .COPN | .CEND | .HQRY | .RREQ | .AQRY | .WRST | .TATT | .TDET => []
  | .PDAT => [{ field := .SN, presence := .required, length := .exact 3 }, need .XI, { field := .SD, presence := .required, length := .free }]
  | .PCLS => [{ field := .CR, presence := .required, length := .exact 4 }]
  | .CLKS => [need .CL]
  | .SETP => settingFields.map may
  | .TMAP => [need .TK, need .GC]
  | .GCAL => [need .GC, may .ZC, may .GN, may .OF]
  | .DENS => [need .TK, need .DN]
  | .SNDG => [need .TK, need .LV]
  | .GQRY => [may .TK, may .GC]
  | .PREV => [many .CM, many .MS]
  | .PRST => [need .PU]
  | .XOVR => [may .XM]
  | .GANG => [need .GA, need .GM]
  | .ORDR => [need .OI, need .TK, need .AC, need .PR, need .RT, may .DT, may .MF, may .TL, may .TM]
  | .OCAN | .OREL => [need .OI]
  | .OQRY => [may .OI]
  | .HWIN => [need .WN, may .WV, may .WB, may .WM]
  | .PLAN => [need .ST, need .HD, need .PT, { field := .CP, presence := .list, length := .exact 2 }, may .HC]
  | .PCLR | .SQRY => [may .ST]
  | .SFRC | .SSKP | .SREQ | .LSTP | .SCAN => [need .ST]
  | .HCOR => [need .HD, need .MS]
  | .RCFG => [need .RK, may .RU, may .CH, may .LM, may .LL, many .IC]
  | .AENB => [need .EM]
  | .AACK => [many .CN]
  | .TALY => [need .HD, need .TY]
  | .SFIN => [need .ST, need .FN]

/-- The elements of a body; `none` when the body ends inside a field (R190). `fuel` bounds the number of elements: each takes three bytes at least. -/
def readElements : Nat → List Byte → Option (List Element)
  | _, [] => some []
  | 0, _ :: _ => none
  | fuel + 1, a :: b :: n :: rest =>
    if rest.length < n.toNat then none
    else (readElements fuel (rest.drop n.toNat)).map fun es => { name := [a, b], value := rest.take n.toNat } :: es
  | _ + 1, _ => none

/-- A value length is allowed: a number has 1 to 8 bytes (R195). -/
def lengthOk : LengthRule → Nat → Bool
  | .number, n => 1 ≤ n && n ≤ 8
  | .exact m, n => n = m
  | .free, _ => true

/-- The values that a body gives a field, in order. -/
def valuesOf (es : List Element) (f : Field) : List (List Byte) :=
  (es.filter fun e => e.name == fieldAscii f).map Element.value

/-- The field specification an element's name belongs to. -/
def specOf (specs : List FieldSpec) (e : Element) : Option FieldSpec := specs.find? fun p => fieldAscii p.field == e.name

/-- Every field is the kind's and has an allowed value length (R190). -/
def elementsOk (specs : List FieldSpec) (es : List Element) : Bool :=
  es.all fun e => match specOf specs e with
    | some p => lengthOk p.length e.value.length
    | none => false

/-- No required field is missing and no field that is not a list stands twice (R190). -/
def countsOk (specs : List FieldSpec) (es : List Element) : Bool :=
  specs.all fun p => match p.presence with
    | .required => (valuesOf es p.field).length = 1
    | .optional => (valuesOf es p.field).length ≤ 1
    | .list => true

/-- The number in a field that stands once. -/
def num (es : List Element) (f : Field) : Int := intOfBytes ((valuesOf es f).headD [])

/-- The number in an optional field. -/
def optNum (es : List Element) (f : Field) : Option Int := (valuesOf es f).head?.map intOfBytes

/-- The setting of an element of SETP. -/
def settingOf (e : Element) : Option (Field × Int) :=
  (settingFields.find? fun f => fieldAscii f == e.name).map fun f => (f, intOfBytes e.value)

/-- The field of an element of PREV. -/
def prevFieldOf (e : Element) : PrevField :=
  if e.name == fieldAscii .CM then .cm (intOfBytes e.value) else .ms (intOfBytes e.value)

/-- A CP value: the order id, then the required progress (R195). -/
def companionOf (value : List Byte) : Companion :=
  { order := (value.headD 0#8).toNat, required := ((value.drop 1).headD 0#8).toNat }

/-- The request that a kind's checked elements make. AACK's list holds 1 to 14 conditions (R186; log 13). -/
def requestOf (k : Kind) (es : List Element) : Option Request :=
  match k with
  | .POPN => some .popn
  | .PDAT => some (.pdat ((valuesOf es .SN).headD []) (num es .XI) ((valuesOf es .SD).headD []))
  | .PCLS => some (.pcls (BitVec.ofNat 32 (natOfBytes ((valuesOf es .CR).headD []))))
  | .COPN => some .copn
  | .CEND => some .cend
  | .CLKS => some (.clks (num es .CL))
  | .SETP => some (.setp (es.filterMap settingOf))
  | .TMAP => some (.tmap (num es .TK) (num es .GC))
  | .GCAL => some (.gcal (num es .GC) (optNum es .ZC) (optNum es .GN) (optNum es .OF))
  | .DENS => some (.dens (num es .TK) (num es .DN))
  | .SNDG => some (.sndg (num es .TK) (num es .LV))
  | .GQRY => some (.gqry (optNum es .TK) (optNum es .GC))
  | .PREV => some (.prev (es.map prevFieldOf))
  | .HQRY => some .hqry
  | .PRST => some (.prst (num es .PU))
  | .XOVR => some (.xovr (optNum es .XM))
  | .GANG => some (.gang (num es .GA) (num es .GM))
  | .ORDR => some (.ordr { oi := num es .OI, tk := num es .TK, ac := num es .AC, pr := num es .PR, rt := num es .RT, dt := optNum es .DT, mf := optNum es .MF, tl := optNum es .TL, tm := optNum es .TM })
  | .OCAN => some (.ocan (num es .OI))
  | .OREL => some (.orel (num es .OI))
  | .OQRY => some (.oqry (optNum es .OI))
  | .HWIN => some (.hwin (num es .WN) (optNum es .WV) (optNum es .WB) (optNum es .WM))
  | .PLAN => some (.plan (num es .ST) (num es .HD) (num es .PT) ((valuesOf es .CP).map companionOf) (optNum es .HC))
  | .PCLR => some (.pclr (optNum es .ST))
  | .SFRC => some (.sfrc (num es .ST))
  | .SSKP => some (.sskp (num es .ST))
  | .HCOR => some (.hcor (num es .HD) (num es .MS))
  | .RREQ => some .rreq
  | .RCFG => some (.rcfg { rk := num es .RK, ru := optNum es .RU, ch := optNum es .CH, lm := optNum es .LM, ll := optNum es .LL, ic := (valuesOf es .IC).map intOfBytes })
  | .AENB => some (.aenb (num es .EM))
  | .AACK =>
    if (valuesOf es .CN).length = 0 ∨ 14 < (valuesOf es .CN).length then none
    else some (.aack ((valuesOf es .CN).map intOfBytes))
  | .AQRY => some .aqry
  | .WRST => some .wrst
  | .TATT => some .tatt
  | .TDET => some .tdet
  | .SREQ => some (.sreq (num es .ST))
  | .TALY => some (.taly (num es .HD) (num es .TY))
  | .SFIN => some (.sfin (num es .ST) (num es .FN))
  | .LSTP => some (.lstp (num es .ST))
  | .SCAN => some (.scan (num es .ST))
  | .SQRY => some (.sqry (optNum es .ST))

/-- The request of a body; `none` is answered FORMAT (R190, step 4). -/
def parseBody (k : Kind) (body : List Byte) : Option Request :=
  match readElements body.length body with
  | none => none
  | some es => if elementsOk (fieldsOf k) es && countsOk (fieldsOf k) es then requestOf k es else none

end Sys2Proof.Machine
end

