-- ==== Sys2Proof/Machine/Flags.lean ====
section
/-! DEFINITION. The flags of the part: pending conditions, causes, counts and owed notices of the attention unit (R181 to R187). -/

namespace Sys2Proof.Machine

/-- The level conditions: HULL_AMBER, HULL_RED, TERMINAL_QUIET, TABLE_CLAMP (R181). -/
def isLevel (n : Nat) : Bool := n = 0 || n = 1 || n = 10 || n = 13

/-- A condition's notices are enabled (R181, R185). -/
def enabled (a : Attention) (n : Nat) : Bool := a.mask.getLsbD n

/-- The unit with the record of one condition changed. -/
def modCond (a : Attention) (n : Nat) (f : Condition → Condition) : Attention :=
  { a with conditions := modAt a.conditions n f }

/-- A notice becomes owed for a condition that is enabled (R182, R183, R184). -/
def owe (a : Attention) (n : Nat) : Attention :=
  if enabled a n && !a.owed.contains n then { a with owed := a.owed ++ [n] } else a

/-- An owed notice is withdrawn unsent (R184). -/
def withdrawNotice (a : Attention) (n : Nat) : Attention := { a with owed := a.owed.filter fun m => m != n }

/-- A count risen by 1, saturated at 255 (R182, R183). -/
def countUp (n : Nat) : Nat := min 255 (n + 1)

/-- A latched condition raised with its detail (R182). -/
def raiseIn (a : Attention) (n : Nat) (detail : Option Nat) : Attention :=
  match a.conditions[n]? with
  | none => a
  | some c =>
    if c.pending then modCond a n fun c => { c with count := countUp c.count, latest := detail }
    else owe (modCond a n fun c => { c with pending := true, count := 1, first := detail, latest := detail }) n

/-- A level condition's cause reported by its owner (R183). -/
def causeIn (a : Attention) (n : Nat) (holds : Bool) : Attention :=
  match a.conditions[n]? with
  | none => a
  | some c =>
    if c.cause = holds then a
    else if holds then owe (modCond a n fun c => { c with pending := true, cause := true, count := countUp c.count }) n
    else withdrawNotice (modCond a n fun c => { c with pending := false, cause := false }) n

/-- The enable mask replaced (R185): owed notices of conditions now disabled are withdrawn, pending conditions newly enabled are owed one in increasing number. -/
def enableIn (a : Attention) (mask : BitVec 14) : Attention :=
  let fresh := (upTo 14).filter fun n => mask.getLsbD n && !a.mask.getLsbD n && ((a.conditions[n]?.map Condition.pending).getD false)
  { conditions := a.conditions, mask := mask, owed := (a.owed.filter fun n => mask.getLsbD n) ++ fresh }

/-- One condition acknowledged (R186). -/
def ackIn (a : Attention) (n : Nat) : Attention :=
  match a.conditions[n]? with
  | none => a
  | some c =>
    if isLevel n then (if c.cause then a else modCond a n fun c => { c with count := 0 })
    else if c.pending then withdrawNotice (modCond a n fun c => { c with pending := false, count := 0, first := none, latest := none }) n
    else a

/-- The numbers of the pending conditions, rising (R186). -/
def pendingSet (a : Attention) : List Nat :=
  (upTo 14).filter fun n => (a.conditions[n]?.map Condition.pending).getD false

/-- A condition raised by a block (R182). -/
def raise (s : State) (n : Nat) (detail : Option Nat) : State := setAttention s (raiseIn s.attention n detail)

/-- A cause reported by a block (R183). -/
def reportCause (s : State) (n : Nat) (holds : Bool) : State := setAttention s (causeIn s.attention n holds)

/-- The conditions by number (R181). -/
def hullAmber : Nat := 0
/-- HULL_RED. -/
def hullRed : Nat := 1
/-- GAUGE_SUSPECT. -/
def gaugeSuspect : Nat := 2
/-- GAUGE_WITHDRAWN. -/
def gaugeWithdrawn : Nat := 3
/-- PUMP_WITHDRAWN. -/
def pumpWithdrawn : Nat := 4
/-- ORDER_DONE. -/
def orderDone : Nat := 5
/-- ORDER_FAILED. -/
def orderFailed : Nat := 6
/-- STEP_BLOCKED. -/
def stepBlocked : Nat := 7
/-- POUR_HALTED. -/
def pourHalted : Nat := 8
/-- OVERSHOOT. -/
def overshoot : Nat := 9
/-- TERMINAL_QUIET. -/
def terminalQuiet : Nat := 10
/-- TERMINAL_LOST. -/
def terminalLost : Nat := 11
/-- REPORT_GAP. -/
def reportGap : Nat := 12
/-- TABLE_CLAMP. -/
def tableClamp : Nat := 13

end Sys2Proof.Machine
end

