-- ==== Sys2Proof/Machine/Ports.lean ====
section
/-! DEFINITION. The ports: request slots, replies and the outgoing queues (R190 to R192), and the two shapes every command has: an event, and a request held in a slot. -/

namespace Sys2Proof.Machine

/-- The outcome of a step that goes on. -/
abbrev Result := Host.Outcome State Fault Refusal

/-- The state with a frame of class 1 placed in a link's outgoing queue (R192). -/
def place (s : State) (l : Link) (f : Class1) : State :=
  setPort s l { portOf s l with queue := (portOf s l).queue ++ [f] }

/-- The occupied slot of a link with its number (R190). -/
def slotAt (s : State) (l : Link) (k : Nat) : Option Slot := ((portOf s l).slots[k]?).join

/-- The state with the phase of an occupied slot changed. -/
def setPhase (s : State) (l : Link) (k : Nat) (ph : SlotPhase) : State :=
  setPort s l { portOf s l with slots := modAt (portOf s l).slots k fun x => x.map fun sl => { sl with phase := ph } }

/-- The requests of the profile store. -/
def toProfileStore : Request → Bool
  | .popn | .pdat _ _ _ | .pcls _ => true
  | _ => false

/-- A request that the profile store has not dealt with yet. -/
def awaitsStore (sl : Slot) : Bool := toProfileStore sl.request && sl.phase = .handed

/-- It is a request's turn: the profile store deals with its requests in the order of their arrival on the console link (R12 for PDAT; log 51 for POPN and PCLS); the rules do not order the requests of the other owners (log 29). -/
def inTurn (p : Port) (sl : Slot) : Bool :=
  !toProfileStore sl.request || p.slots.all fun o => match o with
    | some x => !awaitsStore x || sl.arrival ≤ x.arrival
    | none => true

/-- The request that a slot hands to its owner: not dealt with yet, and in its turn (R190, step 5; R12). -/
def handed (s : State) (l : Link) (k : Nat) : Option Request :=
  match slotAt s l k with
  | some sl => if sl.phase = .handed && inTurn (portOf s l) sl then some sl.request else none
  | none => none

/-- The owner keeps a request whose reply waits (R191). -/
def hold (s : State) (l : Link) (k : Nat) : State := setPhase s l k .taken

/-- The owner composes the reply of a slot: it carries the kind and tag of the request and the call state now in force, and is placed in class 1 (R17, R191). -/
def reply (s : State) (l : Link) (k : Nat) (oc : Oc) (fields : List (Field × Val)) : State :=
  match slotAt s l k with
  | none => s
  | some sl =>
    place (setPhase s l k .replied) l
      (.reply { slot := some k, tag := sl.tag, kind := kindAscii sl.kind, outcome := oc, callState := s.call, fields := fields })

/-- A refusal: an outcome and no result fields. R191 has a reply carry the fields that the owning rule names, and the rules do not say of most of them whether a refusal carries them: the model's refusals carry none (log 49), but for PRST, XOVR and GANG, whose every reply carries the plant view (R106). -/
def refuse (s : State) (l : Link) (k : Nat) (oc : Oc) : State := reply s l k oc []

/-- A request that is taken in the call states that `admitted` names and refused with STATE in the others (R21). -/
def whenAdmitted (admitted : CallState → Bool) (l : Link) (k : Nat) (s : State) (act : State → State) : State :=
  if admitted s.call then act s else refuse s l k .state

/-- The requests taken in IDLE, IN_CALL and CLOSING (R21). -/
def withProfile (c : CallState) : Bool := c != .noProfile

/-- The requests taken in IN_CALL alone (R21). -/
def inCallOnly (c : CallState) : Bool := c = .inCall

/-- A request command: its effect when the slot hands over a request, none otherwise (log 1); none also where the request is not yet in its turn (R12). -/
def serve (l : Link) (k : Nat) (s : State) (act : Request → State → State) : Result :=
  .next (if s.powered then
      match handed s l k with
      | some r => act r s
      | none => s
    else s)

/-- An event command of a part that has power (log 24). -/
def event (s : State) (act : State → State) : Result := .next (if s.powered then act s else s)

/-- Port replies that wait for transmission (R190). -/
def portRepliesWaiting (p : Port) : Nat :=
  (p.queue.filter fun f => match f with
    | .reply r => r.slot.isNone
    | .unsolicited _ => false).length

/-- The arrival number of the next accepted request: above those of all requests held (R12; log 51). -/
def nextArrival (p : Port) : Nat :=
  p.slots.foldr (fun o n => match o with
    | some sl => max (sl.arrival + 1) n
    | none => n) 0

/-- An empty slot of lowest number (R190; log 10). -/
def freeSlot (p : Port) : Option Nat := indexOf? Option.isNone p.slots

end Sys2Proof.Machine
end

