-- ==== Sys2Proof/Machine/ProfileData.lean ====
section
/-! DEFINITION. The data of a profile: section tables (R3 to R9), the structural checks (R13), the parsed profile, and the reading of the stored copy (R2, R15). -/

namespace Sys2Proof.Machine

/-! ### The section table (R3) -/

/-- The indices of a section name. -/
def indexRange : SecName → Nat × Nat
  | .gen => (0, 0)
  | .tnk | .snd => (0, 23)
  | .hld => (1, 9)
  | .frm | .ksf | .kbm => (1, 12)
  | .hyd => (0, 15)

/-- The section data has the length of its name; an SND with 2 to 12 points has 1 + 6 times that many bytes (R3, R12). -/
def sdLengthOk (n : SecName) (sd : List Byte) : Bool :=
  match n with
  | .gen => sd.length = 12
  | .tnk => sd.length = 18
  | .snd =>
    match sd with
    | [] => false
    | c :: _ => 2 ≤ c.toNat && c.toNat ≤ 12 && sd.length = 1 + 6 * c.toNat
  | .hld => sd.length = 12
  | .frm => sd.length = 28
  | .ksf | .kbm => sd.length = 66
  | .hyd => sd.length = 14

/-- The section bytes: name, index, data (R3). -/
def sectionBytes (x : Sec) : List Byte := secAscii x.name ++ natBytes 1 x.index ++ x.data

/-- The data of a section held under a name and index. -/
def secData (secs : List Sec) (n : SecName) (i : Nat) : Option (List Byte) :=
  (secs.find? fun x => x.name = n && x.index = i).map Sec.data

/-! ### Reading section data -/

/-- The unsigned value of width `w` at offset `off` (R3). -/
def fieldU (d : List Byte) (off w : Nat) : Nat := natOfBytes ((d.drop off).take w)

/-- The two's complement value of width `w` at offset `off` (R3). -/
def fieldS (d : List Byte) (off w : Nat) : Int := intOfBytes ((d.drop off).take w)

/-- The declared counts of a GEN section: tanks, holds, frames, rows (R4). -/
structure Counts where
  tanks : Nat
  holds : Nat
  frames : Nat
  rows : Nat
  deriving DecidableEq, Repr

/-- The counts of GEN data (R4). -/
def countsOf (d : List Byte) : Counts where
  tanks := fieldU d 8 1
  holds := fieldU d 9 1
  frames := fieldU d 10 1
  rows := fieldU d 11 1

/-- A tank's sounding points (R6). -/
def pointsOf (d : List Byte) : List SndPoint :=
  (upTo (fieldU d 0 1)).map fun i => { level := fieldU d (1 + 6 * i) 2, volume := fieldU d (3 + 6 * i) 4 }

/-- The channel byte: 255 is NONE (R5). -/
def channelOf (n : Nat) : Option Nat := if n = 255 then none else some n

/-- A tank from its TNK and SND data (R5, R6). -/
def tankOf (d snd : List Byte) : TankData where
  name := d.take 4
  main := if fieldU d 4 1 = 0 then .port else .stbd
  lcg := fieldU d 5 4
  maxLevel := fieldU d 9 2
  minLevel := fieldU d 11 2
  density := fieldU d 13 2
  allowance := fieldU d 15 2
  channel := channelOf (fieldU d 17 1)
  points := pointsOf snd

/-- A hold from its HLD data (R7). -/
def holdOf (d : List Byte) : HoldData where
  name := d.take 4
  lcg := fieldU d 4 4
  capacity := fieldU d 8 4

/-- The 33 coefficients of a KSF or KBM section (R8). -/
def coefficients (d : List Byte) : List Int := (upTo 33).map fun c => fieldS d (2 * c) 2

/-- A frame from its FRM, KSF and KBM data (R7, R8). -/
def frameOf (d ksf kbm : List Byte) : FrameData where
  position := fieldU d 0 4
  sf0 := fieldS d 4 4
  bm0 := fieldS d 8 4
  sfPos := fieldU d 12 4
  sfNeg := fieldU d 16 4
  hog := fieldU d 20 4
  sag := fieldU d 24 4
  kS := coefficients ksf
  kB := coefficients kbm

/-- A row from its HYD data (R9). -/
def rowOf (d : List Byte) : HydRow where
  displacement := fieldU d 0 4
  meanDraft := fieldU d 4 2
  lcb := fieldU d 6 4
  mctc := fieldU d 10 4

/-- The data of a section, empty where there is none. -/
def dataOr (secs : List Sec) (n : SecName) (i : Nat) : List Byte := (secData secs n i).getD []

/-- The profile that accepted sections parse into (R14, R15). -/
def profileFrom (secs : List Sec) : Profile :=
  let g := dataOr secs .gen 0
  let c := countsOf g
  { w0 := fieldU g 0 4
    x0 := fieldU g 4 4
    tanks := (upTo c.tanks).map fun t => tankOf (dataOr secs .tnk t) (dataOr secs .snd t)
    holds := (upTo c.holds).map fun h => holdOf (dataOr secs .hld (h + 1))
    frames := (upTo c.frames).map fun f => frameOf (dataOr secs .frm (f + 1)) (dataOr secs .ksf (f + 1)) (dataOr secs .kbm (f + 1))
    rows := (upTo c.rows).map fun r => rowOf (dataOr secs .hyd r) }

/-! ### The structural checks (R4 to R9, R13) -/

/-- A value lies in lo to hi. -/
def inRange (lo hi x : Nat) : Bool := lo ≤ x && x ≤ hi

/-- Name bytes 0x20 to 0x7E (R5, R7). -/
def nameOk (d : List Byte) : Bool := (d.take 4).all fun b => inRange 0x20 0x7E b.toNat

/-- GEN (R4). -/
def genOk (d : List Byte) : Bool :=
  let c := countsOf d
  inRange 1 150000 (fieldU d 0 4) && inRange 0 40000 (fieldU d 4 4)
    && inRange 1 24 c.tanks && inRange 1 9 c.holds && inRange 1 12 c.frames && inRange 2 16 c.rows

/-- The index is declared by the counts (R4). -/
def declared (c : Counts) : SecName → Nat → Bool
  | .gen, i => i = 0
  | .tnk, i | .snd, i => i < c.tanks
  | .hld, i => 1 ≤ i && i ≤ c.holds
  | .frm, i | .ksf, i | .kbm, i => 1 ≤ i && i ≤ c.frames
  | .hyd, i => i < c.rows

/-- TNK `i`: the field ranges, then the default channel against the tanks before it (R5). -/
def tnkOk (secs : List Sec) (i : Nat) (d : List Byte) : Bool :=
  nameOk d && inRange 0 1 (fieldU d 4 1) && inRange 0 40000 (fieldU d 5 4)
    && inRange 1 30000 (fieldU d 9 2) && fieldU d 11 2 < fieldU d 9 2
    && inRange 1000 1050 (fieldU d 13 2) && inRange 0 2000 (fieldU d 15 2)
    && (inRange 0 31 (fieldU d 17 1) || fieldU d 17 1 = 255)
    && (fieldU d 17 1 = 255 || (upTo i).all fun j => fieldU (dataOr secs .tnk j) 17 1 != fieldU d 17 1)

/-- Levels strictly rise and volumes do not fall from each point to the next (R6, checks 2 and 3). -/
def pointsRise : List SndPoint → Bool
  | p :: q :: rest => p.level < q.level && p.volume ≤ q.volume && pointsRise (q :: rest)
  | _ => true

/-- SND `i` (R6). -/
def sndOk (secs : List Sec) (i : Nat) (d : List Byte) : Bool :=
  let ps := pointsOf d
  ps.all (fun p => inRange 0 30000 p.level && inRange 0 1000000 p.volume)
    && (ps.head?.map SndPoint.level).getD 1 = 0
    && pointsRise ps
    && fieldU (dataOr secs .tnk i) 9 2 ≤ (ps.getLast?.map SndPoint.level).getD 0

/-- HLD (R7). -/
def hldOk (d : List Byte) : Bool :=
  nameOk d && inRange 0 40000 (fieldU d 4 4) && inRange 1 150000 (fieldU d 8 4)

/-- FRM `i`: the field ranges, then the position against the frame before (R7). -/
def frmOk (secs : List Sec) (i : Nat) (d : List Byte) : Bool :=
  inRange 0 40000 (fieldU d 0 4)
    && within (-99999999) 99999999 (fieldS d 4 4) && within (-999999999) 999999999 (fieldS d 8 4)
    && inRange 1 99999999 (fieldU d 12 4) && inRange 1 99999999 (fieldU d 16 4)
    && inRange 1 999999999 (fieldU d 20 4) && inRange 1 999999999 (fieldU d 24 4)
    && (i ≤ 1 || fieldU (dataOr secs .frm (i - 1)) 0 4 < fieldU d 0 4)

/-- The compartment is declared: tank t is compartment t, hold h compartment 23 + h (00_scope.md 4.4). -/
def compartmentDeclared (c : Counts) (k : Nat) : Bool := if k < 24 then k < c.tanks else k - 23 ≤ c.holds

/-- KSF and KBM: coefficients of undeclared compartments are 0 (R8). -/
def coefficientsOk (c : Counts) (d : List Byte) : Bool :=
  (upTo 33).all fun k => compartmentDeclared c k || fieldS d (2 * k) 2 = 0

/-- HYD `i`: the field ranges, then the displacement against the row before (R9). -/
def hydOk (secs : List Sec) (i : Nat) (d : List Byte) : Bool :=
  inRange 1 400000 (fieldU d 0 4) && inRange 0 30000 (fieldU d 4 2) && inRange 0 40000 (fieldU d 6 4)
    && inRange 1 2000000 (fieldU d 10 4)
    && (i = 0 || fieldU (dataOr secs .hyd (i - 1)) 0 4 < fieldU d 0 4)

/-- The own checks of a section (R13). -/
def ownOk (secs : List Sec) (c : Counts) (n : SecName) (i : Nat) (d : List Byte) : Bool :=
  match n with
  | .gen => genOk d
  | .tnk => tnkOk secs i d
  | .snd => sndOk secs i d
  | .hld => hldOk d
  | .frm => frmOk secs i d
  | .ksf | .kbm => coefficientsOk c d
  | .hyd => hydOk secs i d

/-- The check at one name and index: a declared section must be present and sound, an undeclared one absent (R13). -/
def checkAt (secs : List Sec) (c : Counts) (n : SecName) (i : Nat) : Bool :=
  match secData secs n i with
  | some d => declared c n i && ownOk secs c n i d
  | none => !declared c n i

/-- The order of the checks after GEN 0 (R13). -/
def checkOrder : List (SecName × Nat) :=
  (upTo 24).map (fun i => (SecName.tnk, i)) ++ (upTo 24).map (fun i => (SecName.snd, i))
    ++ (upTo 9).map (fun i => (SecName.hld, i + 1)) ++ (upTo 12).map (fun i => (SecName.frm, i + 1))
    ++ (upTo 12).map (fun i => (SecName.ksf, i + 1)) ++ (upTo 12).map (fun i => (SecName.kbm, i + 1))
    ++ (upTo 16).map (fun i => (SecName.hyd, i))

/-- The name and index at which the structural checks stop; `none` when all pass (R13). A GEN that fails ends them at GEN 0 (R4). -/
def firstFailure (secs : List Sec) : Option (SecName × Nat) :=
  match secData secs .gen 0 with
  | none => some (.gen, 0)
  | some g => if genOk g then checkOrder.find? fun x => !checkAt secs (countsOf g) x.1 x.2 else some (.gen, 0)

/-! ### The stored copy (R2, R15) -/

/-- The data length of a section that begins at these data bytes (R3). -/
def storedLength (n : SecName) (d : List Byte) : Nat :=
  match n with
  | .gen => 12
  | .tnk => 18
  | .snd => 1 + 6 * fieldU d 0 1
  | .hld => 12
  | .frm => 28
  | .ksf | .kbm => 66
  | .hyd => 14

/-- The sections that stored bytes hold, in their stored order; `none` when the bytes are no run of sections. `fuel` bounds their number. -/
def readSections : Nat → List Byte → Option (List Sec)
  | _, [] => some []
  | 0, _ :: _ => none
  | fuel + 1, a :: b :: c :: i :: rest =>
    match secOf [a, b, c] with
    | none => none
    | some n =>
      let k := storedLength n rest
      if rest.length < k then none
      else (readSections fuel (rest.drop k)).map fun xs => { name := n, index := i.toNat, data := rest.take k } :: xs
  | _ + 1, _ => none

/-- A copy is intact: its mark is set and the CRC-32 of its bytes is its stored CRC (R2). -/
def intact (c : StoredCopy) : Bool := c.mark && crc32 c.bytes = c.crc

/-- The profile state after power-on (R15). An intact copy whose bytes are no run of sections gives EMPTY (log 20). -/
def verified (c : StoredCopy) : ProfileState :=
  if intact c then
    match readSections c.bytes.length c.bytes with
    | some secs => .valid (profileFrom secs)
    | none => .empty
  else .empty

/-- An empty load record (R11). -/
def LoadRecord.fresh : LoadRecord where
  sections := []
  crc := crc32Start
  byteCount := 0
  closing := none

/-- A section joins the load record (R12). -/
def LoadRecord.add (r : LoadRecord) (x : Sec) : LoadRecord :=
  { r with sections := r.sections ++ [x], crc := crc32Run r.crc (sectionBytes x), byteCount := r.byteCount + (4 + x.data.length) }

end Sys2Proof.Machine
end

