-- ==== Sys2Proof/Machine/Inventory.lean ====
section
/-! DEFINITION. The arithmetic of the inventory: readings (R32), volumes and masses (R36, R37), levels for a mass (R39), the reading ring (R35), the fault score (R40, R41), allowances (R44). All over one tank's data and record. -/

namespace Sys2Proof.Machine

/-- The volume at a level (R36). -/
def volumeAt : List SndPoint → Nat → Nat
  | [], _ => 0
  | [p], _ => p.volume
  | p :: q :: rest, level =>
    if q.level ≤ level then volumeAt (q :: rest) level
    else if level ≤ p.level then p.volume
    else ((p.volume : Int) + roundHalfUp (((q.volume : Int) - p.volume) * ((level : Int) - p.level)) ((q.level : Int) - p.level)).toNat

/-- The mass at a level and density (R37). -/
def massAt (points : List SndPoint) (level density : Nat) : Nat :=
  (roundHalfUp ((volumeAt points level * density : Nat) : Int) 10000).toNat

/-- The level on the first segment whose upper volume is equal to or greater than the volume (R39, step 4). -/
def levelOnSegment : List SndPoint → Int → Nat
  | p :: q :: rest, v =>
    if v ≤ q.volume then
      if q.volume = p.volume then p.level
      else ((p.level : Int) + roundHalfUp ((v - p.volume) * ((q.level : Int) - p.level)) ((q.volume : Int) - p.volume)).toNat
    else levelOnSegment (q :: rest) v
  | [p], _ => p.level
  | [], _ => 0

/-- The level at which a tank would hold a mass (R39). -/
def levelFor (d : TankData) (density : Nat) (mass : Int) : Nat :=
  let v := roundHalfUp (mass * 10000) density
  if v < (d.points.head?.map SndPoint.volume).getD 0 then 0
  else if ((d.points.getLast?.map SndPoint.volume).getD 0 : Nat) < v then d.maxLevel
  else levelOnSegment d.points v

/-- The level a raw code forms: scaled, offset, not below 0 (R32, step 2). -/
def codeLevel (c : Channel) (code : Nat) : Nat :=
  (roundHalfAway (((code : Int) - c.zeroCode) * c.gain) 16384 + c.offset).toNat

/-- A raw code classified: `some level` is a good reading of that level, `none` a bad reading (R32). -/
def classify (set : Settings) (d : TankData) (c : Channel) (code : Nat) : Option Nat :=
  if (code : Int) < set.ra ∨ set.rb < code then none
  else if d.maxLevel + 500 < codeLevel c code then none
  else some (codeLevel c code)

/-- A NORMAL or SUSPECT gauge (3.6). -/
def gaugeInUse (g : GaugeState) : Bool := g = .normal || g = .suspect

/-- The ring emptied; the source of a NORMAL or SUSPECT tank becomes FROZEN (R35). -/
def emptyRing (t : Tank) : Tank :=
  { t with ring := [], source := if gaugeInUse t.gauge then .frozen else t.source }

/-- The state that follows the score of a gauge in use (R40). -/
def scoreState (score : Nat) : GaugeState := if 128 ≤ score then .suspect else .normal

/-- The mean of a ring, rounded half up (R35). -/
def ringMean (ring : List Nat) : Nat := (roundHalfUp (ring.foldl (· + ·) 0 : Nat) ring.length).toNat

/-- The ring after a level has entered: at most 4, the oldest removed first (R35). -/
def ringWith (ring : List Nat) (level : Nat) : List Nat :=
  (if 4 ≤ ring.length then ring.drop (ring.length - 3) else ring) ++ [level]

/-- The tank's mass recomputed from its level and density (R37). -/
def withMass (d : TankData) (t : Tank) : Tank := { t with mass := massAt d.points t.level t.density }

/-- A good reading of a gauge in use, the score apart (R35). -/
def enterRing (d : TankData) (level uptime : Nat) (t : Tank) : Tank :=
  withMass d { t with ring := ringWith t.ring level, level := ringMean (ringWith t.ring level), source := .gauge, lastGood := some uptime }

/-- A good reading of a gauge in use (R35, R40). -/
def goodReading (d : TankData) (level uptime : Nat) (t : Tank) : Tank :=
  let t := enterRing d level uptime t
  { t with score := t.score - 1, gauge := scoreState (t.score - 1) }

/-- A withdrawn gauge (R40). -/
def withdrawGauge (t : Tank) : Tank :=
  { t with gauge := .withdrawn, score := 255, reinstatement := 0, ring := [], source := .frozen }

/-- A bad reading or stall disagreement of a gauge in use carries the score above 255 (R40). -/
def withdraws (t : Tank) : Bool := 255 < t.score + 8

/-- A bad reading or stall disagreement of a gauge in use (R40). -/
def badReading (t : Tank) : Tank :=
  if withdraws t then withdrawGauge t else { t with score := t.score + 8, gauge := scoreState (t.score + 8) }

/-- A good reading of a WITHDRAWN gauge reinstates it (R41). -/
def reinstates (t : Tank) : Bool := 128 ≤ t.reinstatement + 1

/-- A good reading of a WITHDRAWN gauge (R41). -/
def goodWhileWithdrawn (d : TankData) (level uptime : Nat) (t : Tank) : Tank :=
  if reinstates t then
    enterRing d level uptime { t with gauge := .normal, score := 0, reinstatement := 0, ring := [] }
  else { t with reinstatement := t.reinstatement + 1 }

/-- A tank's gauge record after a map-changing TMAP (R34). -/
def remap (channel : Option Nat) (t : Tank) : Tank :=
  match t.gauge, channel with
  | .normal, some c | .suspect, some c => { t with channel := some c, reinstatement := 0, ring := [], source := .frozen }
  | .normal, none | .suspect, none =>
    { t with channel := none, gauge := .unmapped, score := 0, reinstatement := 0, ring := [], source := .frozen }
  | .withdrawn, some c => { t with channel := some c, score := 255, reinstatement := 0, ring := [] }
  | .withdrawn, none => { t with channel := none, gauge := .unmapped, score := 0, reinstatement := 0, ring := [] }
  | .unmapped, some c => { t with channel := some c, gauge := .normal, score := 0, reinstatement := 0, ring := [], source := .frozen }
  | .unmapped, none => t

/-- A tank's allowance (R44). -/
def tankAllowance (d : TankData) (t : Tank) : Nat :=
  match t.source, t.gauge with
  | .gauge, .suspect => d.allowance
  | .gauge, _ => 0
  | .manual, _ => d.allowance
  | .frozen, _ => 2 * d.allowance

/-- The channels that the tank map assigns, rising (R28). -/
def mappedChannels (tanks : List Tank) : List Nat :=
  (upTo 32).filter fun c => tanks.any fun t => t.channel = some c

/-- The tank mapped to a channel (R28). -/
def tankOnChannel (tanks : List Tank) (c : Nat) : Option Nat := indexOf? (fun t => t.channel = some c) tanks

end Sys2Proof.Machine
end

