-- ==== Sys2Proof/Machine/Hull.lean ====
section
/-! DEFINITION. The arithmetic of one hull evaluation over its latched inputs (R51, R53 to R67). -/

namespace Sys2Proof.Machine

/-! ### Inputs -/

/-- A mass clamped to 0 to 2,000,000 t (R51, R53). -/
def clampMass (x : Int) : Nat := (saturate 0 Config.massMax x).toNat

/-- The clamp replaced the mass (R51, R53). -/
def massClamped (x : Int) : Bool := !within 0 Config.massMax x

/-- One override applied: the mass replaced, the allowance kept (R53). -/
def override (i : Inputs) (o : Nat × Int) : Inputs :=
  { i with mass := modAt i.mass o.1 fun _ => clampMass o.2, saturated := i.saturated || massClamped o.2 }

/-- The overrides of a preview in list order (R53). -/
def overrideAll (i : Inputs) (os : List (Nat × Int)) : Inputs := os.foldl override i

/-! ### Sums over compartments -/

/-- Σ k_c × m_c. -/
def dot : List Int → List Nat → Int
  | k :: ks, m :: ms => k * m + dot ks ms
  | _, _ => 0

/-- Σ |k_c| × a_c. -/
def dotAbs : List Int → List Nat → Int
  | k :: ks, a :: as => k.natAbs * a + dotAbs ks as
  | _, _ => 0

/-- Σ m_c. -/
def total (ms : List Nat) : Nat := ms.foldl (· + ·) 0

/-- A list filled with `x` to length `n`. -/
def padTo {α : Type} (n : Nat) (x : α) (xs : List α) : List α := xs ++ List.replicate (n - xs.length) x

/-- The LCG of compartments 0 to 32; an undeclared compartment has no mass, so 0 stands for it (R51). -/
def lcgs (p : Profile) : List Int :=
  padTo 24 0 (p.tanks.map fun t => (t.lcg : Int)) ++ padTo 9 0 (p.holds.map fun h => (h.lcg : Int))

/-! ### Displacement, centre of gravity, hydrostatics -/

/-- Δ (R54). -/
def displacementOf (i : Inputs) : Int := i.profile.w0 + total i.mass

/-- M (R55). -/
def momentOf (i : Inputs) : Int := (i.profile.w0 * i.profile.x0 : Nat) + dot (lcgs i.profile) i.mass

/-- LCG (R55). -/
def lcgOf (i : Inputs) : Int := roundHalfAway (momentOf i) (displacementOf i)

/-- The three values of the hydrostatic table with the two flags (R56, R57). -/
structure Hydro where
  meanDraft : Int
  lcb : Int
  mctc : Int
  low : Bool
  high : Bool
  deriving DecidableEq, Repr

/-- A row's values. -/
def rowValues (r : HydRow) (low high : Bool) : Hydro where
  meanDraft := r.meanDraft
  lcb := r.lcb
  mctc := r.mctc
  low := low
  high := high

/-- One value between two rows (R56). -/
def between (lo hi : HydRow) (d vlo vhi : Int) : Int :=
  vlo + roundHalfAway ((vhi - vlo) * (d - lo.displacement)) ((hi.displacement : Int) - lo.displacement)

/-- The values at a displacement not below the first row of the list (R56, R57). -/
def hydroFrom : List HydRow → Int → Hydro
  | [], _ => { meanDraft := 0, lcb := 0, mctc := 0, low := false, high := false }
  | [r], d => rowValues r false (r.displacement < d)
  | lo :: hi :: rest, d =>
    if hi.displacement ≤ d then hydroFrom (hi :: rest) d
    else if d ≤ lo.displacement then rowValues lo false false
    else { meanDraft := between lo hi d lo.meanDraft hi.meanDraft, lcb := between lo hi d lo.lcb hi.lcb,
           mctc := between lo hi d lo.mctc hi.mctc, low := false, high := false }

/-- The hydrostatic values at Δ (R56, R57). -/
def hydroAt (rows : List HydRow) (d : Int) : Hydro :=
  match rows with
  | r :: _ => if d < r.displacement then rowValues r true false else hydroFrom rows d
  | [] => hydroFrom [] d

/-! ### Trim and drafts -/

/-- trim_cm before saturation (R58). -/
def trimRaw (d lcb lcg mctc : Int) : Int := roundHalfAway (d * (lcb - lcg)) (10 * mctc)

/-- A draft below 0 is replaced by 0 (R59). -/
def draftClamp (x : Int) : Int := if x < 0 then 0 else x

/-! ### Shear, moment and utilisations -/

/-- Largest shear force (R60, R61). -/
def sfMax : Int := 99999999

/-- Largest bending moment (R62). -/
def bmMax : Int := 999999999

/-- A utilisation saturated to 0 to 9,999 (R63, R64). -/
def utilOf (raw : Int) : Int := saturate 0 9999 raw

/-- The figures of one frame. -/
structure FrameFigures where
  sf : Int
  bm : Int
  sfUtil : Int
  bmUtil : Int
  saturated : Bool
  deriving DecidableEq, Repr

/-- The figures of a declared frame (R60 to R63). -/
def frameFigures (i : Inputs) (f : FrameData) : FrameFigures :=
  let sfRaw := f.sf0 + roundHalfAway (dot f.kS i.mass) 1000
  let sf := saturate (-sfMax) sfMax sfRaw
  let sfeRaw := (sf.natAbs : Int) + roundUp (dotAbs f.kS i.allowance) 1000
  let sfe := saturate 0 sfMax sfeRaw
  let bmRaw := f.bm0 + dot f.kB i.mass
  let bm := saturate (-bmMax) bmMax bmRaw
  let bmeRaw := (bm.natAbs : Int) + dotAbs f.kB i.allowance
  let bme := saturate 0 bmMax bmeRaw
  let su := roundTrunc (sfe * 1000) (if 0 ≤ sf then f.sfPos else f.sfNeg)
  let bu := roundTrunc (bme * 1000) (if 0 ≤ bm then f.hog else f.sag)
  { sf := sf, bm := bm, sfUtil := utilOf su, bmUtil := utilOf bu,
    saturated := !(within (-sfMax) sfMax sfRaw && within 0 sfMax sfeRaw && within (-bmMax) bmMax bmRaw && within 0 bmMax bmeRaw
      && within 0 9999 su && within 0 9999 bu) }

/-- The draft utilisation before saturation (R64). -/
def draftUtilRaw (aft fwd dl : Int) : Int := roundTrunc ((if aft < fwd then fwd else aft) * 1000) dl

/-- The trim utilisation before saturation (R64). -/
def trimUtilRaw (trim tn tx : Int) : Int := roundTrunc (((2 * trim - (tn + tx)).natAbs : Int) * 1000) (tx - tn)

/-! ### Peak and band -/

/-- The largest of a list of utilisations (R65). -/
def largest (us : List (PeakSource × Int)) : Int := us.foldl (fun m u => if m < u.2 then u.2 else m) 0

/-- The first source whose utilisation is the peak (R65). -/
def firstAt (us : List (PeakSource × Int)) (peak : Int) : PeakSource :=
  match us.find? fun u => u.2 = peak with
  | some u => u.1
  | none => .draft

/-- Values numbered from 1. -/
def numbered {α : Type} (f : Nat → α → PeakSource × Int) : Nat → List α → List (PeakSource × Int)
  | _, [] => []
  | n, x :: xs => f n x :: numbered f (n + 1) xs

/-- The comparison order of R65. -/
def checksInOrder (figs : List FrameFigures) (draft trim : Int) : List (PeakSource × Int) :=
  numbered (fun n f => (.sf n, f.sfUtil)) 1 figs ++ numbered (fun n f => (.bm n, f.bmUtil)) 1 figs ++ [(.draft, draft), (.trim, trim)]

/-- The band of a peak under the warning threshold (R66). -/
def bandOf (wt peak : Int) : Band := if peak ≤ wt then .green else if peak ≤ 1000 then .amber else .red

/-- A per-frame value of frames 1 to 12, ABSENT beyond the declared frames (R67). -/
def perFrame (g : FrameFigures → Int) (figs : List FrameFigures) : List (Option Int) := padTo 12 none (figs.map fun f => some (g f))

/-- One evaluation over its inputs, classified with the WT in force at completion (R54 to R67). -/
def evaluate (isLive : Bool) (i : Inputs) (wt : Int) : EvalResult :=
  let d := displacementOf i
  let lcg := lcgOf i
  let h := hydroAt i.profile.rows d
  let trimR := trimRaw d h.lcb lcg h.mctc
  let trim := saturate (-9999) 9999 trimR
  let aft := draftClamp (h.meanDraft + 5 * trim)
  let fwd := draftClamp (h.meanDraft - 5 * trim)
  let figs := i.profile.frames.map (frameFigures i)
  let du := draftUtilRaw aft fwd i.dl
  let tu := trimUtilRaw trim i.tn i.tx
  let checks := checksInOrder figs (utilOf du) (utilOf tu)
  let peak := largest checks
  { isLive := isLive, displacement := d, lcg := lcg, tMean := h.meanDraft, tAft := aft, tFwd := fwd, trim := trim,
    sf := perFrame FrameFigures.sf figs, bm := perFrame FrameFigures.bm figs,
    sfUtil := perFrame FrameFigures.sfUtil figs, bmUtil := perFrame FrameFigures.bmUtil figs,
    draftUtil := utilOf du, trimUtil := utilOf tu, peak := peak, peakSource := firstAt checks peak, band := bandOf wt peak,
    tableLow := h.low, tableHigh := h.high,
    saturated := i.saturated || !within (-9999) 9999 trimR || figs.any FrameFigures.saturated || !within 0 9999 du || !within 0 9999 tu,
    uptime := i.uptime, ballast := total (i.mass.take 24), cargo := total (i.mass.drop 24) }

/-- The direction a preview peak gives against a reference peak (R75). -/
def directionOf (reference : Option Int) (peak : Int) : Direction :=
  match reference with
  | some p => if peak < p then .relieving else .loading
  | none => .loading

end Sys2Proof.Machine
end

