-- ==== Sys2Proof/Machine/Engine.lean ====
section
/-! DEFINITION. The hull engine and its evaluation queue: the latch (R51, R52, R75), live and preview requests (R69, R70), the choice (R71), abandonment (R50, R72), and the fields of a result record in a reply (R67). -/

namespace Sys2Proof.Machine

/-- A step is finished: DONE or SKIPPED (R137). -/
def stepFinished (st : Step) : Bool := st.state = .done || st.state = .skipped

/-- The current step: the lowest step that is neither DONE nor SKIPPED (R137). -/
def currentStep (s : State) : Option Step := s.pour.plan.find? fun st => !stepFinished st

/-- The mass that the last accepted tally gave the current step's hold: base mass + last tally (R52). -/
def talliedMass (st : Step) : Nat := st.base.getD 0 + st.lastTally.getD 0

/-- The allowance of a hold (R52). -/
def holdAllowance (s : State) (h : Nat) (r : Hold) : Nat :=
  match r.source with
  | .estimate =>
    match currentStep s with
    | some st => if st.hold = h then r.mass - talliedMass st else 0
    | none => 0
  | .tally | .corrected => 0

/-- Mass and allowance of a compartment as the tables hold them; 0 and 0 for an undeclared one (R51). -/
def compartment (s : State) (p : Profile) (c : Nat) : Nat × Nat :=
  if c < 24 then
    match p.tanks[c]?, s.tanks[c]? with
    | some d, some t => (t.mass, tankAllowance d t)
    | _, _ => (0, 0)
  else
    match p.holds[c - 24]?, s.pour.holds[c - 24]? with
    | some _, some r => (r.mass, holdAllowance s (c - 23) r)
    | _, _ => (0, 0)

/-- The inputs latched at the start of an evaluation (R51). -/
def latch (s : State) (p : Profile) : Inputs where
  mass := (upTo 33).map fun c => clampMass (compartment s p c).1
  allowance := (upTo 33).map fun c => (compartment s p c).2
  saturated := (upTo 33).any fun c => massClamped (compartment s p c).1
  profile := p
  dl := s.settings.dl
  tn := s.settings.tn
  tx := s.settings.tx
  uptime := now s

/-- A live evaluation starts: the flag and its marks are cleared and the mark passes into the running record (R69). -/
def startLive (s : State) (p : Profile) : State :=
  setEngine s { s.engine with
    running := some { kind := .live s.engine.reportMark, inputs := latch s p }, pendingLive := false, reportMark := false }

/-- The reference peak (R75). -/
def referencePeak (s : State) : Option Int := s.hull.live.map EvalResult.peak

/-- A preview starts and leaves the queue; its overrides are applied after the latch (R53, R71, R75). -/
def startPreview (s : State) (p : Profile) (e : PreviewEntry) (rest : List PreviewEntry) : State :=
  setEngine s { s.engine with
    running := some { kind := .preview e (referencePeak s), inputs := overrideAll (latch s p) e.overrides }, previews := rest }

/-- The choice of R71: made when the engine is IDLE and the queue holds work. Work waits only with a profile in force (R72). -/
def choose (s : State) : State :=
  match s.engine.running, profileOf s with
  | none, some p =>
    match s.engine.previews with
    | [] => if s.engine.pendingLive then startLive s p else s
    | e :: rest =>
      if s.engine.pendingLive && s.engine.lastKind = .preview then startLive s p else startPreview s p e rest
  | _, _ => s

/-- A live request joins the pending-live flag, in IN_CALL and CLOSING alone (R21, R69). -/
def markLive (s : State) (mark : Bool) : State :=
  if callOn s then setEngine s { s.engine with pendingLive := true, reportMark := s.engine.reportMark || mark } else s

/-- A live request (R69). -/
def liveRequest (s : State) (mark : Bool) : State := choose (markLive s mark)

/-- The requester is the pour gate (R70). -/
def fromGate (e : PreviewEntry) : Bool :=
  match e.requester with
  | .gate _ => true
  | _ => false

/-- The queue has room for an entry of this requester: the gate's is always placed, another's when fewer than 4 such entries wait (R70). -/
def hasRoom (s : State) (e : PreviewEntry) : Bool :=
  fromGate e || (s.engine.previews.filter fun x => !fromGate x).length < 4

/-- A preview request that has room is placed as the newest entry (R70). -/
def placePreview (s : State) (e : PreviewEntry) : State :=
  choose (setEngine s { s.engine with previews := s.engine.previews ++ [e] })

/-- The requesters whose previews run or wait: the running one first, then the queue's, oldest first. The manual gives no order in which withdrawn PREVs are answered (log 38). -/
def previewRequesters (g : Engine) : List Requester :=
  (match g.running with
    | some { kind := .preview e _, .. } => [e.requester]
    | _ => []) ++ g.previews.map PreviewEntry.requester

/-- A console requester is answered STATE at a withdrawal (R72). -/
def answerWithdrawn (s : State) (r : Requester) : State :=
  match r with
  | .console k => refuse s .console k .state
  | _ => s

/-- The evaluation queue emptied and an evaluation in progress abandoned, at CEND and at the withdrawal of the profile (R50, R72). -/
def abandonEngine (s : State) : State :=
  (previewRequesters s.engine).foldl answerWithdrawn (setEngine s Engine.initial)

/-- The running evaluation is over: the last kind is set, the engine is IDLE and takes further work (R49). -/
def finishEvaluation (s : State) (k : LastKind) : State :=
  choose (setEngine s { s.engine with running := none, lastKind := k })

/-! ### The hull condition record -/

/-- The causes of the three hull conditions reported to the attention unit (R80). -/
def reportHullCauses (s : State) : State :=
  let s := reportCause s hullAmber (hullBand s = some .amber)
  let s := reportCause s hullRed (hullBand s = some .red)
  reportCause s tableClamp ((s.hull.live.map fun r => r.tableLow || r.tableHigh).getD false)

/-- A reset of the hull condition record, without a signal (R83). -/
def resetHull (s : State) : State := reportHullCauses (setHull s Hull.initial)

/-! ### A result record in a reply -/

/-- The flags of a result record as one number (R195). -/
def resultFlags (r : EvalResult) : Int :=
  (if r.tableLow then 4 else 0) + (if r.tableHigh then 8 else 0) + (if r.saturated then 16 else 0)

/-- The evaluation kind of a result (R195). -/
def resultKind (r : EvalResult) : LastKind := if r.isLive then .live else .preview

/-- The fields of a result record in the order of R67, per-frame fields for frames 1 to 12 (R195). -/
def resultFields (r : EvalResult) : List (Field × Val) :=
  [rvNum (lastKindCode (resultKind r)), rvNum r.displacement, rvNum r.lcg, rvNum r.tMean, rvNum r.tAft, rvNum r.tFwd, rvNum r.trim]
    ++ r.sf.map (fun x => rv (valOr x)) ++ r.bm.map (fun x => rv (valOr x))
    ++ r.sfUtil.map (fun x => rv (valOr x)) ++ r.bmUtil.map (fun x => rv (valOr x))
    ++ [rvNum r.draftUtil, rvNum r.trimUtil, rvNum r.peak, rvNum (peakSourceCode r.peakSource), rvNum (bandCode (some r.band)),
        rvNum (resultFlags r), rvNum r.uptime, rvNum r.ballast, rvNum r.cargo]

/-- The same fields, each ABSENT, where there is no live result (R82). -/
def absentResult : List (Field × Val) := List.replicate 64 (rv .absent)

end Sys2Proof.Machine
end

