-- ==== Sys2Proof/Machine/Gate.lean ====
section
/-! DEFINITION. The gate's checks and its previews: the three checks (R141), the gate preview (R143), the recheck of a waiting step (R145). -/

namespace Sys2Proof.Machine

/-- The order with an id (R108). -/
def orderById (s : State) (id : Nat) : Option Order :=
  (s.orders.slots.filterMap fun x => x).find? fun o => o.id = id

/-- The plan with the record of one step changed. -/
def modStep (s : State) (n : Nat) (f : Step → Step) : State :=
  setPour s { s.pour with plan := s.pour.plan.map fun st => if st.number = n then f st else st }

/-- The step with a number. -/
def stepByNumber (s : State) (n : Nat) : Option Step := s.pour.plan.find? fun st => st.number = n

/-- One companion is far enough: DONE, or ACTIVE with its required progress (R141). -/
def companionMet (s : State) (c : Companion) : Bool :=
  match orderById s c.order with
  | some o => o.state = .done || (o.state = .active && c.required ≤ o.progress)
  | none => false

/-- The report check (R141). -/
def reportMet (s : State) : Bool := s.pour.outstanding.isNone

/-- The ballast check (R141). -/
def ballastMet (s : State) (st : Step) : Bool := st.companions.all (companionMet s)

/-- The hull check (R141). -/
def hullMet (s : State) : Bool := s.hull.stop = .clear && s.hull.live.isSome && s.term.state = .up

/-- The first unmet check (R141, R142). -/
def firstUnmet (s : State) (st : Step) : Option WaitReason :=
  if !reportMet s then some .report
  else if !ballastMet s st then some .ballast
  else if !hullMet s then some .hull
  else none

/-- The tanks that an order moves ballast in, at their end masses (R73, R115). -/
def endOverrides (o : Order) : List (Nat × Int) :=
  (o.tank, (o.endSource : Int)) :: (match o.dest, o.endDest with
    | some d, some m => [(d, (m : Int))]
    | _, _ => [])

/-- The overrides of a companion that is not DONE (R73). -/
def companionOverrides (s : State) (c : Companion) : List (Nat × Int) :=
  match orderById s c.order with
  | some o => if o.state = .done then [] else endOverrides o
  | none => []

/-- The overrides of the gate's preview: the hold at its mass plus the planned tonnes, then the companions not DONE (R73, R143). -/
def gateOverrides (s : State) (st : Step) : List (Nat × Int) :=
  (23 + st.hold, (((holdRec s st.hold).map Hold.mass).getD 0 + st.planned : Nat))
    :: st.companions.flatMap (companionOverrides s)

/-- The gate asks for its preview for a step (R143). -/
def askGate (s : State) (st : Step) : State :=
  let s := setPour s { s.pour with preview := .forStep st.number }
  placePreview s { requester := .gate st.number, overrides := gateOverrides s st }

/-- A step becomes EVALUATING; the gate asks from NONE alone (R143). -/
def enterEvaluating (s : State) (st : Step) (replySlot : Option Nat) : State :=
  let s := modStep s st.number fun x => { x with state := .evaluating, replyPending := replySlot }
  if s.pour.preview = .none then askGate s st else s

/-- The WAITING step of the plan. -/
def waitingStep (s : State) : Option Step := s.pour.plan.find? fun st => st.state = .waiting

/-- The recheck of a WAITING step (R145). -/
def recheck (s : State) : State :=
  match waitingStep s with
  | none => s
  | some st =>
    match firstUnmet s st with
    | some r => modStep s st.number fun x => { x with waitReason := some r }
    | none => enterEvaluating s st none

end Sys2Proof.Machine
end

