-- ==== Sys2Proof/Machine/ReportBuilder.lean ====
section
/-! DEFINITION. The report builder: items and their expansion (R170), the snapshot and the record (R171, R172), serials (R173), the queue and its discards (R174, R175), abandonment (R178). -/

namespace Sys2Proof.Machine

/-- The settings of a kind (R168). -/
def settingsOf (r : Reports) : ReportKind → ReportSettings
  | .step => r.stepSet
  | .survey => r.surveySet
  | .exception => r.exceptionSet
  | .departure => r.departureSet

/-- The builder with other settings of a kind. -/
def withSettings (r : Reports) (k : ReportKind) (x : ReportSettings) : Reports :=
  match k with
  | .step => { r with stepSet := x }
  | .survey => { r with surveySet := x }
  | .exception => { r with exceptionSet := x }
  | .departure => { r with departureSet := x }

/-- The default channel of a kind (R168). -/
def defaultChannel : ReportKind → Nat
  | .step => 1
  | .survey => 2
  | .exception => 3
  | .departure => 4

/-! ### Items -/

/-- The family of a code. -/
def familyOf (code : Nat) : Nat := code / 256

/-- The index of a code. -/
def indexOf (code : Nat) : Nat := code % 256

/-- The index range of a family (R170). -/
def familyRange : Nat → Option (Nat × Nat)
  | 1 | 2 | 3 => some (0, 23)
  | 4 | 5 => some (1, 9)
  | 6 | 7 | 8 | 9 => some (1, 12)
  | 10 => some (0, 10)
  | 11 | 12 => some (1, 4)
  | 13 => some (0, 3)
  | _ => none

/-- A code that a content list may hold: a family and an index of its range, or 0xFF (R169, test 3). -/
def codeOk (code : Int) : Bool :=
  match natUpTo 65535 code with
  | none => false
  | some n =>
    match familyRange (familyOf n) with
    | none => false
    | some (lo, hi) => indexOf n = 255 || inRange lo hi (indexOf n)

/-- A per-frame value of the live result (R170). -/
def frameItem (s : State) (g : EvalResult → List (Option Int)) (i : Nat) : Option Int :=
  if i = 0 then none else s.hull.live.bind fun r => ((g r)[i - 1]?).join

/-- A hull item (R170). -/
def hullItem (s : State) (i : Nat) : Option Int :=
  if i = 8 then some (bandCode (hullBand s))
  else s.hull.live.bind fun r =>
    match i with
    | 0 => some r.displacement
    | 1 => some r.tMean
    | 2 => some r.tAft
    | 3 => some r.tFwd
    | 4 => some r.trim
    | 5 => some r.lcg
    | 6 => some r.peak
    | 7 => some (peakSourceCode r.peakSource)
    | 9 => some r.ballast
    | 10 => some r.cargo
    | _ => none

/-- A step item (R170). -/
def stepItem (step : Option Step) (i : Nat) : Option Int :=
  step.bind fun st =>
    match i with
    | 0 => some st.number
    | 1 => some st.planned
    | 2 => st.final.map Int.ofNat
    | 3 => some st.hold
    | _ => none

/-- The record of a declared hold (R170). -/
def declaredHold (s : State) (h : Nat) : Option Hold := if (holdData s h).isSome then holdRec s h else none

/-- The record of a pump 1 to 4 (R90). -/
def pumpRec (s : State) (n : Nat) : Option Pump := if n = 0 then none else s.plant.pumps[n - 1]?

/-- The value of an item as its record stands (R170, R171). -/
def itemValue (s : State) (step : Option Step) (code : Nat) : Option Int :=
  let i := indexOf code
  match familyOf code with
  | 1 => (tankRec s i).map fun t => t.level
  | 2 => (tankRec s i).map fun t => t.mass
  | 3 => (tankRec s i).map fun t => gaugeCode t.gauge
  | 4 => (declaredHold s i).map fun h => h.mass
  | 5 => (declaredHold s i).map fun h => holdSourceCode h.source
  | 6 => frameItem s EvalResult.sf i
  | 7 => frameItem s EvalResult.bm i
  | 8 => frameItem s EvalResult.sfUtil i
  | 9 => frameItem s EvalResult.bmUtil i
  | 10 => hullItem s i
  | 11 => (pumpRec s i).map fun p => pumpCode p.state
  | 12 => (pumpRec s i).map fun p => (min 2147483647 p.runSeconds : Nat)
  | 13 => stepItem step i
  | _ => none

/-- The indices that 0xFF stands for in a family (R170). -/
def wholeFamily (s : State) (family : Nat) : List Nat :=
  match profileOf s with
  | none => []
  | some p =>
    match family with
    | 1 | 2 | 3 => upTo p.tanks.length
    | 4 | 5 => (upTo p.holds.length).map (· + 1)
    | 6 | 7 | 8 | 9 => (upTo p.frames.length).map (· + 1)
    | 10 => upTo 11
    | 11 | 12 => (upTo 4).map (· + 1)
    | 13 => upTo 4
    | _ => []

/-- The expansion of a content list (R170). -/
def expand (s : State) (content : List Nat) : List Nat :=
  content.flatMap fun code =>
    if indexOf code = 255 then (wholeFamily s (familyOf code)).map fun i => familyOf code * 256 + i else [code]

/-! ### The record -/

/-- The number of item places (R172). -/
def reportLength (m : LengthMode) (n : Nat) : Nat :=
  match m with
  | .auto => min 64 (max 4 ((n + 3) / 4 * 4))
  | .fixed l => l

/-- A NULL item (R172). -/
def nullItem : Item := { code := 0, value := some 0 }

/-- The item places filled (R172). -/
def itemPlaces (items : List Item) (length : Nat) : List Item := padTo length nullItem (items.take length)

/-- The console flag of a new record (R174). -/
def consoleFlagOf : Route → LinkFlag
  | .terminal => .clear
  | _ => .pending

/-- The terminal flag of a new record (R174). -/
def terminalFlagOf : Route → LinkFlag
  | .console => .clear
  | _ => .pending

/-- The record composed at a trigger from the snapshot (R171, R172). -/
def compose (s : State) (k : ReportKind) (step : Option Step) (serial : Nat) : Report :=
  let set := settingsOf s.reports k
  let codes := expand s set.content
  let n := reportLength set.lengthMode codes.length
  { kind := k, serial := serial, channel := set.channel.getD (defaultChannel k), truncated := n < codes.length,
    tableLow := (s.hull.live.map EvalResult.tableLow).getD false, tableHigh := (s.hull.live.map EvalResult.tableHigh).getD false,
    callClock := s.clocks.call, uptime := now s, step := (step.map Step.number).getD 0,
    items := itemPlaces (codes.map fun c => { code := c, value := itemValue s step c }) n,
    consoleFlag := consoleFlagOf set.route, terminalFlag := terminalFlagOf set.route }

/-- The serial a trigger takes; `none` when it generates no report (R173). -/
def nextSerial (s : State) (k : ReportKind) : Option Nat :=
  match s.reports.counter with
  | none => none
  | some n => if k != .departure && 65534 ≤ n then none else some (n + 1)

/-! ### The queue -/

/-- The pour gate is told that a record has left the queue: its report check reads the serial, and a waiting step is rechecked (R141, R145, R174). -/
def recordLeft (s : State) (serial : Nat) : State :=
  recheck (if s.pour.outstanding = some serial then setPour s { s.pour with outstanding := none } else s)

/-- A gap counter risen by 1, saturated at 255 (R175). -/
def gapUp (n : Nat) : Nat := min 255 (n + 1)

/-- The gap counters after a discard (R175). -/
def discardGaps (r : Reports) (x : Report) : Reports :=
  { r with consoleGap := if x.consoleFlag = .pending then gapUp r.consoleGap else r.consoleGap,
           terminalGap := if x.terminalFlag = .pending then gapUp r.terminalGap else r.terminalGap }

/-- A discard raises a counter (R175), one that stands at 255 already among them (log 48). -/
def discardCounts (x : Report) : Bool := x.consoleFlag = .pending || x.terminalFlag = .pending

/-- The builder with a new record in the queue and its serial taken (R173, R174). -/
def withRecord (r : Reports) (queue : List Report) (x : Report) : Reports := { r with queue := queue ++ [x], counter := some x.serial }

/-- A new record joins the queue; when the queue holds 8, the oldest is discarded (R174, R175). -/
def joinQueue (s : State) (x : Report) : State :=
  match s.reports.queue with
  | [] => setReports s (withRecord s.reports [] x)
  | y :: rest =>
    if rest.length + 1 < Config.reportQueueMax then setReports s (withRecord s.reports (y :: rest) x)
    else
      let s := setReports s (withRecord (discardGaps s.reports y) rest x)
      let s := if discardCounts y then raise s reportGap (some y.serial) else s
      recordLeft s y.serial

/-- A trigger of a STEP, SURVEY or EXCEPTION report (R171 to R175). -/
def trigger (s : State) (k : ReportKind) (step : Option Step) : State :=
  match nextSerial s k with
  | none => s
  | some n => joinQueue s (compose s k step n)

/-- A record's flag for a link (R174). -/
def linkFlag (l : Link) (r : Report) : LinkFlag :=
  match l with
  | .console => r.consoleFlag
  | .terminal => r.terminalFlag

/-- A record with another flag for a link. -/
def withLinkFlag (l : Link) (f : LinkFlag) (r : Report) : Report :=
  match l with
  | .console => { r with consoleFlag := f }
  | .terminal => { r with terminalFlag := f }

/-- The gap counter of a link (R175). -/
def gapOf (l : Link) (r : Reports) : Nat :=
  match l with
  | .console => r.consoleGap
  | .terminal => r.terminalGap

/-- The builder with another gap counter of a link. -/
def withGap (l : Link) (n : Nat) (r : Reports) : Reports :=
  match l with
  | .console => { r with consoleGap := n }
  | .terminal => { r with terminalGap := n }

/-- A queued record is being sent on a link (R174). -/
def isSending (l : Link) (r : Report) : Bool := linkFlag l r = .sending

/-- The records that CEND removes are no discards: the copy of one being sent is marked by a clear flag, so that its abandonment counts no gap (R180; log 36). -/
def unmarkSending (l : Link) (s : State) : State :=
  match (portOf s l).tx with
  | some { frame := .rprt r c, wire := w } =>
    if s.reports.queue.any (isSending l) then setPort s l { portOf s l with tx := some { frame := .rprt (withLinkFlag l .clear r) c, wire := w } }
    else s
  | _ => s

/-- The DEPARTURE trigger of CEND: the record is queued alone, the counter discarded, the settings restored, the gap counters kept (R19, R180). -/
def triggerDeparture (s : State) : State :=
  let queue := match nextSerial s .departure with
    | none => []
    | some n => [compose s .departure none n]
  let gaps := s.reports
  setReports (unmarkSending .terminal (unmarkSending .console s))
    { Reports.initial with queue := queue, consoleGap := gaps.consoleGap, terminalGap := gaps.terminalGap }

/-- An RPRT under way on the terminal link is abandoned by an accepted TDET (R178). A record that CEND removed is neither queued nor discarded (log 36). -/
def abandonTransmission (s : State) (x : Report) : State :=
  if s.reports.queue.any (isSending .terminal) then
    setReports s { s.reports with
      queue := s.reports.queue.map fun r => if isSending .terminal r then withLinkFlag .terminal .pending r else r }
  else if x.terminalFlag = .clear then s
  else raise (setReports s { s.reports with terminalGap := gapUp s.reports.terminalGap }) reportGap (some x.serial)

/-! ### The departure record -/

/-- A DEPARTURE record. -/
def isDeparture (r : Report) : Bool := r.kind = .departure

/-- The scan timer stopped and a round abandoned, at the change from CLOSING to IDLE (R27). -/
def stopScanning (s : State) : State := setGauge s { s.gauge with timer := none, round := none }

/-- In CLOSING the call ends when the DEPARTURE record has left the queue, or its console flag is clear with the terminal DETACHED; it is then removed without a gap (R20). -/
def closingCheck (s : State) : State :=
  if s.call != .closing then s
  else
    match s.reports.queue.find? isDeparture with
    | none => stopScanning (setCall s .idle)
    | some r =>
      if r.consoleFlag = .clear && s.term.state = .detached then
        stopScanning (setCall (setReports s { s.reports with queue := s.reports.queue.filter fun x => !isDeparture x }) .idle)
      else s

end Sys2Proof.Machine
end

