-- ==== Sys2Proof/Machine/PourGate.lean ====
section
/-! DEFINITION. The pour gate and the terminal port as they act on each other: unsolicited frames (R164), grant, halt and resumption (R149, R152, R153), quiet supervision (R161), the gate's preview result (R144), tally tests (R151), the estimate (R156), settling (R155). -/

namespace Sys2Proof.Machine

/-! ### Unsolicited frames and the quiet timer -/

/-- A frame added to the kept-message list, the oldest discarded from a full list (R164). -/
def keepFrame (kept : List Unsolicited) (u : Unsolicited) : List Unsolicited :=
  (if 4 ≤ kept.length then kept.drop (kept.length - 3) else kept) ++ [u]

/-- A GRNT, HALT or BLKD handed to the terminal port (R164). -/
def handTerminal (s : State) (u : Unsolicited) : State :=
  match s.term.state with
  | .up | .quiet => place s .terminal (.unsolicited u)
  | .lost => setTerm s { s.term with kept := keepFrame s.term.kept u }
  | .detached => s

/-- The quiet timer started or restarted with the QT in force (R161). -/
def startQuiet (s : State) : State :=
  setTerm s { s.term with quietTimer := some (expiryAfter s s.settings.qt), count := 0 }

/-- The terminal port is told that pouring has begun (R137, R161). -/
def pouringBegun (s : State) : State := startQuiet s

/-! ### Limits and figures of a step -/

/-- The overshoot limit: planned × (100 + OA) / 100, truncated, with the OA in force (R134). -/
def overshootLimit (s : State) (st : Step) : Nat := (roundTrunc (st.planned * (100 + s.settings.oa)) 100).toNat

/-- The fields of a grant (R149). -/
def grantFields (st : Step) : List (Field × Val) := [(.ST, .num st.number), (.HD, .num st.hold), (.PT, .num st.planned)]

/-- The GRNT of a step (9.5). -/
def grnt (st : Step) : Unsolicited := .grnt st.number st.hold st.planned

/-! ### Grant, halt, resumption -/

/-- The step and the hold as a grant sets them (R149). -/
def grantStep (s : State) (st : Step) : State :=
  let base := ((holdRec s st.hold).map Hold.mass).getD 0
  let s := modStep s st.number fun x => { x with
    state := .pouring, base := some base, lastTally := some 0, grantTime := some (now s), holdTimer := none, waitReason := none,
    replyPending := none }
  modHold s st.hold fun h => { h with source := .tally, latest := none, previous := none, estimate := none }

/-- A grant: a pending SREQ is answered GRANT, otherwise GRNT is sent (R144, R147, R149). -/
def grant (s : State) (st : Step) : State :=
  let s := pouringBegun (grantStep s st)
  match st.replyPending with
  | some k => reply s .terminal k .grant (grantFields st)
  | none => handTerminal s (grnt st)

/-- A HALTED step resumes (R153). -/
def resume (s : State) (st : Step) : State :=
  handTerminal (modStep s st.number fun x => { x with state := .pouring, haltCause := none, loaderStopped := false }) (grnt st)

/-- The resumption test: HALTED, hull check met, overshoot mark clear (R153). -/
def tryResume (s : State) : State :=
  match currentStep s with
  | some st => if st.state = .halted && hullMet s && !st.overshootMark then resume s st else s
  | none => s

/-- A step halted (R152); a halt for OVERSHOOT sets the overshoot mark (R151). -/
def haltStep (s : State) (st : Step) (c : HaltCause) : State :=
  let s := modStep s st.number fun x => { x with
    state := .halted, haltCause := some c, tallyAtHalt := x.lastTally, runOnRaised := false, loaderStopped := false,
    overshootMark := x.overshootMark || c = .overshoot }
  let s := handTerminal s (.halt st.number (haltCode c))
  let s := raise s pourHalted (some st.number)
  trigger s .exception (stepByNumber s st.number)

/-- A halt cause reaches the gate: a POURING step is halted, a HALTED one keeps the cause that stands (R152). -/
def halt (s : State) (c : HaltCause) : State :=
  match currentStep s with
  | some st => if st.state = .pouring then haltStep s st c else s
  | none => s

/-! ### The estimate -/

/-- POURING or HALTED (R156, R161). -/
def stepPours (st : Step) : Bool := st.state = .pouring || st.state = .halted

/-- The step whose hold the gate estimates: the current step POURING or HALTED with its last tally at or below the overshoot limit (R156). -/
def estimatedStep (s : State) : Option Step :=
  match currentStep s with
  | some st => if stepPours st && st.lastTally.getD 0 ≤ overshootLimit s st then some st else none
  | none => none

/-- Entry at the change to QUIET: the source becomes ESTIMATE and the mass does not move (R156; log 22). -/
def enterEstimate (s : State) : State :=
  match estimatedStep s with
  | some st => modHold s st.hold fun h => { h with source := .estimate, estimate := some (talliedMass st) }
  | none => s

/-- The rate in t/s (R156). -/
def tallyRate (st : Step) (h : Hold) : Nat :=
  match h.latest, h.previous with
  | some a, some b =>
    if st.loaderStopped || a.tonnes ≤ b.tonnes || a.arrival ≤ b.arrival then 0
    else (roundTrunc ((a.tonnes : Int) - b.tonnes) ((a.arrival : Int) - b.arrival)).toNat
  | _, _ => 0

/-- The estimate of a hold at an uptime, kept between the tallied mass and base mass + overshoot limit (R156). -/
def estimateAt (s : State) (st : Step) (h : Hold) : Nat :=
  let raw := talliedMass st + tallyRate st h * (now s - ((h.latest.map Tally.arrival).getD (now s)))
  let cap := st.base.getD 0 + overshootLimit s st
  max (talliedMass st) (min cap raw)

/-- The terminal link is QUIET or LOST (R156). -/
def linkSilent (s : State) : Bool := s.term.state = .quiet || s.term.state = .lost

/-- The hold of a step whose last tally exceeds the overshoot limit: under TALLY, at base mass + last tally (R156; log 41). -/
def backToTally (st : Step) (h : Hold) : Hold :=
  if h.source = .estimate then { h with mass := talliedMass st, source := .tally, estimate := none } else h

/-- Recomputation at a scan-round end; the live request joins the flag (R156; log 33). Where a lowered OA has put the last tally above the overshoot limit, the hold returns to TALLY at this moment (log 41). -/
def recomputeEstimate (s : State) : State :=
  if linkSilent s then
    match (currentStep s).filter stepPours with
    | none => s
    | some st =>
      match holdRec s st.hold with
      | none => s
      | some h =>
        if st.lastTally.getD 0 ≤ overshootLimit s st then
          let e := estimateAt s st h
          markLive (modHold s st.hold fun h => { h with mass := e, source := .estimate, estimate := some e }) false
        else modHold s st.hold (backToTally st)
  else s

/-! ### The link state -/

/-- The pour gate acts on an announced change of the link state (R158). -/
def linkChanged (s : State) : State :=
  let s := recheck s
  match s.term.state with
  | .up => tryResume s
  | .quiet => enterEstimate s
  | .lost => halt s .link
  | .detached => s

/-- The link state set, with the cause of TERMINAL_QUIET (R162). -/
def setLinkState (s : State) (l : LinkState) : State :=
  reportCause (setTerm s { s.term with state := l }) terminalQuiet (l = .quiet)

/-- A change of the link state, announced (R158). -/
def changeLink (s : State) (l : LinkState) : State := linkChanged (setLinkState s l)

/-- A link in QUIET becomes UP (R161). -/
def quietToUp (s : State) : State := if s.term.state = .quiet then changeLink s .up else s

/-- The terminal port is told that a tally was accepted (R161). -/
def tallyAccepted (s : State) : State := quietToUp (startQuiet s)

/-- The terminal port is told that pouring has ended (R161). -/
def pouringEnded (s : State) : State := quietToUp (setTerm s { s.term with quietTimer := none, count := 0 })

/-! ### The gate's preview result -/

/-- The hold period in seconds of a code (R142). -/
def holdSeconds (code : Int) : Int := if code = 1 then 60 else if code = 2 then 240 else 960

/-- The hold timer's expiry for a step, with its own period or HP in force (R142). -/
def holdExpiry (s : State) (st : Step) : Nat :=
  expiryAfter s (holdSeconds ((st.holdPeriod.map Int.ofNat).getD s.settings.hp))

/-- A step becomes BLOCKED: BLKD is sent and STEP_BLOCKED raised (R144, R146). -/
def blockStep (s : State) (st : Step) (rn : Int) : State :=
  let s := modStep s st.number fun x => { x with state := .blocked, holdTimer := none }
  raise (handTerminal s (.blkd st.number rn)) stepBlocked (some st.number)

/-- An SREQ that finds a check unmet: WAITING with a fresh hold timer, and the reply WAIT (R142, R144). -/
def startWaiting (s : State) (st : Step) (k : Nat) (r : WaitReason) : State :=
  let s := modStep s st.number fun x => { x with
    state := .waiting, waitReason := some r, replyPending := none, holdTimer := some (holdExpiry s st) }
  reply s .terminal k .wait [(.ST, .num st.number), (.RN, .num (waitCode r))]

/-- The result of the gate's preview for a step (R144). -/
def gateResultFor (s : State) (st : Step) (band : Band) : State :=
  match firstUnmet s st, st.replyPending with
  | some r, some k => startWaiting s st k r
  | some r, none => modStep s st.number fun x => { x with state := .waiting, waitReason := some r }
  | none, pending =>
    if band = .red then
      match pending with
      | some k =>
        reply (modStep s st.number fun x => { x with state := .planned, replyPending := none }) .terminal k .refuse
          [(.ST, .num st.number), (.RN, .num rnProjected)]
      | none => blockStep s st rnProjected
    else grant s st

/-- The arrival of the gate's preview result (R144). -/
def gateResult (s : State) (band : Band) : State :=
  let before := s.pour.preview
  let s := setPour s { s.pour with preview := .none }
  match before with
  | .none => s
  | .discard =>
    match s.pour.plan.find? fun st => st.state = .evaluating with
    | some st => askGate s st
    | none => s
  | .forStep n =>
    match stepByNumber s n with
    | some st => if st.state = .evaluating then gateResultFor s st band else s
    | none => s

/-! ### Tallies and the end of a step -/

/-- The tests after an accepted tally (R151). -/
def tallyTests (s : State) (ty : Nat) : State :=
  match currentStep s with
  | none => s
  | some st =>
    let above := overshootLimit s st < ty
    if st.state = .pouring then
      if !st.overshootAccepted && above then raise (haltStep s st .overshoot) overshoot (some st.number) else s
    else if st.state = .halted then
      let s := if above && !st.overshootAccepted then modStep s st.number fun x => { x with overshootMark := true } else s
      if (st.tallyAtHalt.getD 0 : Int) + s.settings.ro < ty && !st.runOnRaised then
        let s := modStep s st.number fun x => { x with runOnRaised := true }
        let s := raise s overshoot (some st.number)
        trigger s .exception (stepByNumber s st.number)
      else s
    else s

/-- The settle timer expires: REPORTING, and a report-marked live request (R155). -/
def settled (s : State) (n : Nat) : State :=
  liveRequest (modStep s n fun x => { x with state := .reporting, settleTimer := none }) true

/-- The REPORTING step. -/
def reportingStep (s : State) : Option Step := s.pour.plan.find? fun st => st.state = .reporting

/-- The report-marked evaluation has completed: STEP report, serial kept, DONE (R155, R173). -/
def reportMarked (s : State) : State :=
  match reportingStep s with
  | none => s
  | some st =>
    let serial := nextSerial s .step
    let s := trigger s .step (some st)
    let s := setPour s { s.pour with outstanding := serial }
    modStep s st.number fun x => { x with state := .done, reportSerial := serial, endTime := some (now s) }

/-- The gate's reaction to the hull stop signal: halt, and a recheck (R79, R152, R145). -/
def pourHullStop (s : State) : State := recheck (halt s .hull)

/-- The gate's reaction to the hull clear signal: resumption, and a recheck (R79, R153, R145). -/
def pourHullClear (s : State) : State := recheck (tryResume s)

end Sys2Proof.Machine
end

