-- ==== Sys2Proof/Machine/Plant.lean ====
section
/-! DEFINITION. The plant's own records: input lines (R84, R85), valve commands (R87, R89), pumps (R90), mains (R91), crossover and gangs (R102, R105), the plant view (R106). -/

namespace Sys2Proof.Machine

/-! ### Input lines -/

/-- The chain position of a line of a module: 16 lines to a module (R84). -/
def chainPosition (module line : Nat) : Nat := 16 * module + line

/-- The chain position of input line `i` of the 66 lines that State holds: they fill modules 3 to 7 from line 0 of module 3 (R84). -/
def inputPosition (i : Nat) : Nat := chainPosition 3 i

/-- The input line of a pump's running feedback (R84). -/
def runningLine (pump : Nat) : Nat := pump - 1

/-- The input line of a pump's pressure-proven feedback (R84). -/
def provenLine (pump : Nat) : Nat := pump + 3

/-- The input line of a valve's limit (R84). -/
def limitLine (valve : Nat) : Limit → Nat
  | .openLimit => 8 + valve
  | .closedLimit => 37 + valve

/-- The debounced level of a line (R85). -/
def lineOn (p : Plant) (i : Nat) : Bool := (p.lines[i]?.map InputLine.debounced).getD false

/-- A pump shows running feedback (R90). -/
def runningOn (p : Plant) (pump : Nat) : Bool := lineOn p (runningLine pump)

/-- A pump shows pressure proven (R90). -/
def provenOn (p : Plant) (pump : Nat) : Bool := lineOn p (provenLine pump)

/-- A valve is at a limit (R85). -/
def limitOn (p : Plant) (valve : Nat) (l : Limit) : Bool := lineOn p (limitLine valve l)

/-- A line after a debounced change to a level (R85). -/
def InputLine.settledAt (x : Bool) (_ : InputLine) : InputLine := { pin := x, raw := x, debounced := x, hold := none }

/-- One sample of a line: a hold begins, goes on, ends or is abandoned (R85). `db` is DB in force. -/
def InputLine.sample (db : Int) (l : InputLine) : InputLine :=
  if l.pin = l.debounced then { l with raw := l.pin, hold := none }
  else
    let left := match l.hold with
      | none => (db / 10).toNat
      | some h => h.samplesLeft - 1
    if left = 0 then { l with raw := l.pin, debounced := l.pin, hold := none }
    else { l with raw := l.pin, hold := some { samplesLeft := left } }

/-! ### Valves -/

/-- The limit of the commanded position (R88). -/
def commandedLimit (v : Valve) : Limit := if v.commandedOpen then .openLimit else .closedLimit

/-- The state at the commanded position. -/
def commandedState (v : Valve) : ValveState := if v.commandedOpen then .opened else .closed

/-- A stroke begun with its timer; it completes at once where the commanded limit is already present (R87). -/
def beginStroke (isOpen atLimit : Bool) (expiry : Nat) (v : Valve) : Valve :=
  if atLimit then { v with commandedOpen := isOpen, state := if isOpen then .opened else .closed, stroke := none }
  else { v with commandedOpen := isOpen, state := if isOpen then .opening else .closing, stroke := some expiry }

/-- An open command (R87). `expiry` is the stroke timer's, `atLimit` the open limit. -/
def openCommand (expiry : Nat) (atLimit : Bool) (v : Valve) : Valve :=
  match v.state with
  | .closed | .closing | .fault => beginStroke true atLimit expiry v
  | .opening | .opened => { v with commandedOpen := true }

/-- A close command (R87). -/
def closeCommand (expiry : Nat) (atLimit : Bool) (v : Valve) : Valve :=
  match v.state with
  | .opening | .opened | .fault => beginStroke false atLimit expiry v
  | .closed | .closing => { v with commandedOpen := false }

/-- The plant with one valve changed. -/
def modValve (p : Plant) (v : Nat) (f : Valve → Valve) : Plant := { p with valves := modAt p.valves v f }

/-- An attempt joins a valve (R89). -/
def joinValve (expiry : Nat) (p : Plant) (v : Nat) : Plant :=
  modValve p v fun x =>
    let x := { x with users := x.users + 1 }
    match x.state with
    | .closed | .closing | .fault => openCommand expiry (limitOn p v .openLimit) x
    | .opening | .opened => x

/-- An attempt releases a valve (R89). -/
def releaseValve (expiry : Nat) (p : Plant) (v : Nat) : Plant :=
  modValve p v fun x =>
    let x := { x with users := x.users - 1 }
    if x.users = 0 then
      match x.state with
      | .opening | .opened | .fault => closeCommand expiry (limitOn p v .closedLimit) x
      | .closed | .closing => x
    else x

/-- A valve after its limit has changed (R88). -/
def limitChanged (l : Limit) (present : Bool) (v : Valve) : Valve :=
  match v.state with
  | .opening | .closing | .fault =>
    if present && l = commandedLimit v then { v with state := commandedState v, stroke := none } else v
  | .opened => if !present && l = .openLimit then { v with state := .fault } else v
  | .closed => if !present && l = .closedLimit then { v with state := .fault } else v

/-- The state of a valve. -/
def valveState (p : Plant) (v : Nat) : ValveState := (p.valves[v]?.map Valve.state).getD .closed

/-- A valve is OPEN. -/
def valveOpen (p : Plant) (v : Nat) : Bool := valveState p v = .opened

/-- The number of XV (R84). -/
def xv : Nat := 28

/-! ### Pumps and mains -/

/-- The plant with one pump changed. -/
def modPump (p : Plant) (n : Nat) (f : Pump → Pump) : Plant :=
  if n = 0 then p else { p with pumps := modAt p.pumps (n - 1) f }

/-- A pump is available (R90). -/
def available (s : State) (n : Nat) : Bool :=
  match pumpRec s n with
  | some p => p.state = .stopped && p.holder.isNone && !runningOn s.plant n
  | none => false

/-- A pump is STOPPED without a holder, or WITHDRAWN (R103, R105). -/
def pumpFree (s : State) (n : Nat) : Bool :=
  match pumpRec s n with
  | some p => (p.state = .stopped && p.holder.isNone) || p.state = .withdrawn
  | none => true

/-- The pumps of a group (R90). -/
def groupPumps : Group → List Nat
  | .a => [1, 2]
  | .b => [3, 4]

/-- The gang mode of a group (R105). -/
def ganged (p : Plant) : Group → Bool
  | .a => p.gangedA
  | .b => p.gangedB

/-- The record of a main (R91). -/
def mainRec (p : Plant) : Main → MainRec
  | .port => p.portMain
  | .stbd => p.stbdMain

/-- The plant with another record of a main. -/
def setMain (p : Plant) (m : Main) (r : MainRec) : Plant :=
  match m with
  | .port => { p with portMain := r }
  | .stbd => { p with stbdMain := r }

/-- The mode of a main under an action (R91). -/
def actionMode : Action → MainMode
  | .fill => .filling
  | .discharge => .discharging
  | .transfer => .transferring

/-- The group that the crossover mode assigns to a main (R102). -/
def servingGroup (c : CrossMode) (m : Main) : Option Group :=
  match c, m with
  | .straight, .port | .crossed, .stbd => some .a
  | .straight, .stbd | .crossed, .port => some .b
  | .changing, _ | .fault, _ => none

/-- The most orders a main holds under an action: one when TRANSFERRING or served by a GANGED group, two otherwise (R91). -/
def mainLimit (p : Plant) (g : Group) (a : Action) : Nat := if a = .transfer || ganged p g then 1 else 2

/-- The main takes an order of the action: IDLE, or the same action below the limit (R93). -/
def mainTakes (p : Plant) (g : Group) (m : Main) (a : Action) : Bool :=
  let r := mainRec p m
  r.mode = .idle || (r.mode = actionMode a && r.orders.length < mainLimit p g a)

/-- An order joins its main (R91). -/
def joinMain (p : Plant) (m : Main) (a : Action) (id : Nat) : Plant :=
  setMain p m { mode := actionMode a, orders := (mainRec p m).orders ++ [id] }

/-- An order leaves its main (R91). -/
def leaveMain (p : Plant) (m : Main) (id : Nat) : Plant :=
  let rest := (mainRec p m).orders.filter fun x => x != id
  setMain p m { mode := if rest.isEmpty then .idle else (mainRec p m).mode, orders := rest }

/-- The SEA valve of a main (R84). -/
def seaValve : Main → Nat
  | .port => 24
  | .stbd => 26

/-- The OVBD valve of a main (R84). -/
def ovbdValve : Main → Nat
  | .port => 25
  | .stbd => 27

/-- The line-up valves of an action (R93). -/
def lineup (a : Action) (m : Main) (tank : Nat) (dest : Option Nat) : List Nat :=
  match a with
  | .fill => [seaValve m, tank]
  | .discharge => [tank, ovbdValve m]
  | .transfer => tank :: dest.toList

/-- The attempt of an order (R92). -/
def attemptOf (p : Plant) (id : Nat) : Option Attempt := p.attempts.find? fun a => a.order = id

/-- The plant with one attempt changed. -/
def modAttempt (p : Plant) (id : Nat) (f : Attempt → Attempt) : Plant :=
  { p with attempts := p.attempts.map fun a => if a.order = id then f a else a }

/-- Every line-up valve of an attempt is OPEN (R94). -/
def linedUp (p : Plant) (a : Attempt) : Bool := a.valves.all (valveOpen p)

/-- The state of a pump. -/
def pumpState (s : State) (n : Nat) : PumpState := ((pumpRec s n).map Pump.state).getD .stopped

/-- The stroke timer's expiry with VT in force (R87). -/
def strokeExpiry (s : State) : Nat := expiryAfter s s.settings.vt

/-- The state with one pump changed. -/
def modPumpS (s : State) (n : Nat) (f : Pump → Pump) : State := setPlant s (modPump s.plant n f)

/-- A pump-available notice: it calls for an arbiter run (R90, R116). -/
def pumpNotice (s : State) : State := setOrders s { s.orders with runOwed := true }

/-! ### Output lines (R84) -/

/-- The chain position of a pump's start line: module 0, lines 0 to 3 (R84). -/
def startPosition (pump : Nat) : Nat := chainPosition 0 (pump - 1)

/-- The chain position of a valve's command line: module 0, lines 4 to 15, for valves 0 to 11, module 1 for valves 12 to 27, module 2, line 0, for XV (R84). -/
def commandPosition (valve : Nat) : Nat := chainPosition 0 (valve + 4)

/-- A valve is the tank valve of a tank that no profile in force declares (R84). -/
def undeclaredValve (s : State) (v : Nat) : Bool := v < 24 && (tankData s v).isNone

/-- The level of an output line of the latch modules 0 to 2, true for asserted: start lines, then valve commands, a tank valve of an undeclared tank held released; the lines above are not used (R84). -/
def outputLevel (s : State) (position : Nat) : Bool :=
  if position < 4 then ((s.plant.pumps[position]?).map Pump.startLine).getD false
  else !undeclaredValve s (position - 4) && ((s.plant.valves[position - 4]?).map Valve.commandedOpen).getD false

/-! ### The crossover (R104) -/

/-- A target as a mode. -/
def targetMode : CrossTarget → CrossMode
  | .straight => .straight
  | .crossed => .crossed

/-- A change of XV's state acts on the crossover mode (R104). -/
def crossoverChanged (s : State) : State :=
  match valveState s.plant xv, s.plant.crossMode with
  | .opened, .changing | .closed, .changing | .opened, .fault | .closed, .fault =>
    pumpNotice (setPlant s { s.plant with crossMode := targetMode s.plant.crossTarget })
  | .fault, .changing => setPlant s { s.plant with crossMode := .fault }
  | .fault, .straight => setPlant s { s.plant with crossMode := .fault, crossTarget := .straight }
  | .fault, .crossed => setPlant s { s.plant with crossMode := .fault, crossTarget := .crossed }
  | _, _ => s

/-- XV commanded for a target (R102, R103). -/
def commandXv (s : State) (t : CrossTarget) : State :=
  let e := strokeExpiry s
  let s := match t with
    | .crossed => setPlant s (modValve s.plant xv (openCommand e (limitOn s.plant xv .openLimit)))
    | .straight => setPlant s (modValve s.plant xv (closeCommand e (limitOn s.plant xv .closedLimit)))
  crossoverChanged s

/-! ### The plant view (R106) -/

/-- A pump record without its timer (R106). -/
def pumpView (s : State) (n : Nat) : List (Field × Val) :=
  match pumpRec s n with
  | some p => [rvNum n, rvNum (if n ≤ 2 then 0 else 1), rvNum (pumpCode p.state), rv (valNat p.holder), rvNum p.failures, rvNum p.runSeconds,
      rvNum (boolCode p.startLine), rvNum (boolCode (runningOn s.plant n)), rvNum (boolCode (provenOn s.plant n))]
  | none => []

/-- A main record: its mode, then its orders in order of joining (R91, R106; log 18). -/
def mainView (r : MainRec) : List (Field × Val) := rvNum (mainModeCode r.mode) :: r.orders.map fun id : Nat => rvNum id

/-- A valve record (R106). -/
def valveView (v : Valve) : List (Field × Val) := [rvNum (boolCode v.commandedOpen), rvNum (valveCode v.state), rvNum v.users]

/-- The plant view (R106; log 18). -/
def plantView (s : State) : List (Field × Val) :=
  [rvNum (crossCode s.plant.crossMode), rvNum (targetCode s.plant.crossTarget),
    rvNum (boolCode s.plant.gangedA), rvNum (boolCode s.plant.gangedB)]
    ++ pumpView s 1 ++ pumpView s 2 ++ pumpView s 3 ++ pumpView s 4
    ++ mainView s.plant.portMain ++ mainView s.plant.stbdMain ++ s.plant.valves.flatMap valveView

end Sys2Proof.Machine
end

