-- ==== Sys2Proof/Machine/OrderEngine.lean ====
section
/-! DEFINITION. The order engine and the pump and valve controller as they act on each other: releases (R99, R126), take-downs and failures (R95 to R98), stops (R125), priming and started (R94, R120), start requests (R93), the pump arbiter (R116 to R119). -/

namespace Sys2Proof.Machine

/-! ### Orders -/

/-- DONE, FAILED and CANCELLED (R110). -/
def terminalState : OrderState → Bool
  | .done | .failed | .cancelled => true
  | _ => false

/-- LINEUP, STARTING and ACTIVE (R124). -/
def runningState : OrderState → Bool
  | .lineup | .starting | .active => true
  | _ => false

/-- The orders of the occupied slots, in slot order (R108). -/
def ordersList (s : State) : List Order := s.orders.slots.filterMap fun x => x

/-- The order table with the record of one order changed. -/
def modOrder (s : State) (id : Nat) (f : Order → Order) : State :=
  setOrders s { s.orders with slots := s.orders.slots.map fun x => x.map fun o => if o.id = id then f o else o }

/-- A change of an order's state, announced to the pour gate (R110, R145). -/
def moveOrder (s : State) (id : Nat) (f : Order → Order) : State := recheck (modOrder s id f)

/-- An arbiter run is called for (R116). -/
def callArbiter (s : State) : State := setOrders s { s.orders with runOwed := true }

/-- An order becomes QUEUED with its rank and reason kept, and calls for a run (R116, R129). -/
def queueOrder (s : State) (id : Nat) (f : Order → Order) : State :=
  callArbiter (moveOrder s id fun o => { f o with state := .queued })

/-- A tank the order needs (R112). -/
def needs (o : Order) (t : Nat) : Bool := o.tank = t || o.dest = some t

/-- One window matches a tank (R132). -/
def windowHolds (w : Window) (t : Nat) : Bool := w.valid && (t &&& w.mask) = (w.base &&& w.mask)

/-- A tank is held by a set of windows (R132). -/
def heldBy (ws : List Window) (t : Nat) : Bool := ws.any fun w => windowHolds w t

/-- A tank the order needs is held and its MANUAL flag is clear (R117, R129). -/
def orderHeld (s : State) (o : Order) : Bool :=
  !o.manual && (heldBy s.orders.windows o.tank || (o.dest.map (heldBy s.orders.windows)).getD false)

/-- An order becomes FAILED with a reason: ended time, and ORDER_FAILED raised (R126, R127). -/
def failOrder (s : State) (id : Nat) (f : Order → Order) : State :=
  raise (moveOrder s id fun o => { f o with state := .failed, ended := some (now s) }) orderFailed (some id)

/-- Pumps cleared at the released report (R126). -/
def unpumped (o : Order) : Order := { o with pumps := [] }

/-- A counted failure: attempts used rises by 1 (R126). -/
def countedAttempt (o : Order) : Order := { o with pumps := [], attempts := o.attempts + 1 }

/-- The released report moves a STOPPING order by its stop reason (R126, R128; log 26). `withdrawn` lists the pumps withdrawn in the attempt. -/
def orderReleased (s : State) (id : Nat) (withdrawn : List Nat) : State :=
  match orderById s id with
  | none => s
  | some o =>
    if o.state != .stopping then s
    else
      match o.reason with
      | some .target | some .destFull =>
        raise (moveOrder s id fun o => { unpumped o with state := .done, ended := some (now s) }) orderDone (some id)
      | some .cancel => moveOrder s id fun o => { unpumped o with state := .cancelled, ended := some (now s) }
      | some .hull =>
        if s.hull.stop = .clear then
          if orderHeld s o then moveOrder s id fun o => { unpumped o with state := .suspended, reason := some .held }
          else queueOrder s id unpumped
        else moveOrder s id fun o => { unpumped o with state := .suspended }
      | some .preempted =>
        let s := moveOrder s id fun o => { unpumped o with state := .suspended }
        if withdrawn.isEmpty then s else callArbiter s
      | some .noGauge => failOrder s id unpumped
      | some .stall | some .lineupFail | some .startFail | some .trip =>
        if o.attempts + 1 ≤ o.retries then queueOrder s id countedAttempt else failOrder s id countedAttempt
      | some .held | none => s

/-! ### The controller lets go of an attempt -/

/-- A pump-available notice for a pump of a released attempt that is STOPPED and available (R99, step 5). -/
def noticeIfAvailable (s : State) (n : Nat) : State := if available s n then pumpNotice s else s

/-- An attempt is released (R99). -/
def releaseAttempt (s : State) (a : Attempt) : State :=
  let e := strokeExpiry s
  let p := a.pumps.foldl (fun p n => modPump p n fun x => { x with holder := none }) s.plant
  let p := a.valves.foldl (releaseValve e) p
  let p := leaveMain p a.main a.order
  let s := setPlant s { p with attempts := p.attempts.filter fun x => x.order != a.order }
  let s := orderReleased s a.order a.withdrawn
  a.pumps.foldl noticeIfAvailable s

/-- A pump is STOPPED or WITHDRAWN. -/
def pumpAtRest (s : State) (n : Nat) : Bool := pumpState s n = .stopped || pumpState s n = .withdrawn

/-- An attempt in TAKING_DOWN is released once each of its pumps is STOPPED or WITHDRAWN (R99). -/
def checkRelease (s : State) (id : Nat) : State :=
  match attemptOf s.plant id with
  | some a => if a.phase = .takingDown && a.pumps.all (pumpAtRest s) then releaseAttempt s a else s
  | none => s

/-- A pump becomes WITHDRAWN: its attempt lists it and PUMP_WITHDRAWN is raised (R99). -/
def withdrawPump (s : State) (n : Nat) : State :=
  let p := modPump s.plant n fun x => { x with state := .withdrawn, startLine := false, stopTimer := none }
  let p := { p with attempts := p.attempts.map fun a => if a.pumps.contains n then { a with withdrawn := a.withdrawn ++ [n] } else a }
  raise (setPlant s p) pumpWithdrawn (some n)

/-- A pump becomes STOPPED, or WITHDRAWN when its failure count is 3 (R99). -/
def stopPump (s : State) (n : Nat) : State :=
  if ((pumpRec s n).map Pump.failures).getD 0 = 3 then withdrawPump s n
  else modPumpS s n fun x => { x with state := .stopped, startLine := false, stopTimer := none }

/-- One pump of an attempt that is taken down (R98). -/
def takeDownPump (s : State) (n : Nat) : State :=
  match pumpState s n with
  | .priming | .running =>
    if runningOn s.plant n then
      modPumpS s n fun x => { x with state := .stopping, startLine := false, stopTimer := some (expiryAfter s s.settings.ps) }
    else stopPump s n
  | _ => s

/-- An attempt is taken down (R98). Its pumps are dealt with in its pump order, the lower number first, so that of two pumps that become WITHDRAWN in one event the lower raises PUMP_WITHDRAWN first: R99 gives no order (log 45). -/
def takeDown (s : State) (a : Attempt) : State :=
  let s := setPlant s (modAttempt s.plant a.order fun x => { x with phase := .takingDown, prove := none })
  checkRelease (a.pumps.foldl takeDownPump s) a.order

/-- The stop reason of a failure cause (R110). -/
def failReason : FailCause → Reason
  | .lineupFail => .lineupFail
  | .startFail => .startFail
  | .trip => .trip

/-- The failed report reaches the order: a running order goes to STOPPING, without a stop request (R125). -/
def orderFailedReport (s : State) (id : Nat) (c : FailCause) : State :=
  match orderById s id with
  | some o =>
    if runningState o.state then moveOrder s id fun o => { o with state := .stopping, reason := some (failReason c), stall := none } else s
  | none => s

/-- An attempt fails, at most once (R96, R97): failed is reported, then it is released from LINING_UP or taken down. -/
def failAttempt (s : State) (id : Nat) (c : FailCause) : State :=
  match attemptOf s.plant id with
  | none => s
  | some a =>
    if a.phase = .takingDown then s
    else
      let s := setPlant s (modAttempt s.plant id fun x => { x with cause := some c })
      let s := orderFailedReport s id c
      if a.phase = .liningUp then releaseAttempt s a else takeDown s a

/-- A stop request (R98). -/
def stopRequest (s : State) (id : Nat) : State :=
  match attemptOf s.plant id with
  | none => s
  | some a =>
    match a.phase with
    | .liningUp => releaseAttempt s a
    | .priming | .running => takeDown s a
    | .takingDown => s

/-- A running order goes to STOPPING with a reason other than an attempt failure, and the controller is asked to stop it (R125). -/
def stopOrder (s : State) (id : Nat) (r : Reason) : State :=
  match orderById s id with
  | some o =>
    if runningState o.state then
      stopRequest (moveOrder s id fun o => { o with state := .stopping, reason := some r, stall := none }) id
    else s
  | none => s

/-! ### Running -/

/-- The level of a tank. -/
def levelOf (s : State) (t : Nat) : Nat := ((tankRec s t).map Tank.level).getD 0

/-- The mass of a tank. -/
def massOf (s : State) (t : Nat) : Nat := ((tankRec s t).map Tank.mass).getD 0

/-- The max level of a tank. -/
def maxLevelOf (s : State) (t : Nat) : Nat := ((tankData s t).map TankData.maxLevel).getD 0

/-- The stop reason that the levels call for (R122). -/
def stopCondition (s : State) (o : Order) : Option Reason :=
  let sl := s.settings.sl
  match o.action with
  | .fill => if (o.targetLevel : Int) - sl ≤ levelOf s o.tank then some .target else none
  | .discharge => if (levelOf s o.tank : Int) ≤ o.targetLevel + sl then some .target else none
  | .transfer =>
    if (levelOf s o.tank : Int) ≤ o.targetLevel + sl then some .target
    else match o.dest with
      | some d => if (maxLevelOf s d : Int) - sl ≤ levelOf s d then some .destFull else none
      | none => none

/-- The completion test of an ACTIVE order (R122). -/
def completionTest (s : State) (id : Nat) : State :=
  match orderById s id with
  | some o =>
    if o.state = .active then
      match stopCondition s o with
      | some r => stopOrder s id r
      | none => s
    else s
  | none => s

/-- A stall window with SW in force and the source tank's level as baseline (R120, R123). -/
def freshStall (s : State) (o : Order) : Stall := { expiry := expiryAfter s s.settings.sw, baseline := levelOf s o.tank }

/-- The started report (R120). -/
def orderStarted (s : State) (id : Nat) : State :=
  match orderById s id with
  | some o =>
    if o.state = .starting then
      completionTest (moveOrder s id fun o => { o with state := .active, started := some (now s), stall := some (freshStall s o) }) id
    else s
  | none => s

/-- The priming report (R120). -/
def orderPriming (s : State) (id : Nat) : State :=
  match orderById s id with
  | some o => if o.state = .lineup then moveOrder s id fun o => { o with state := .starting } else s
  | none => s

/-- Every pump of an attempt is RUNNING (R94). -/
def allRunning (s : State) (a : Attempt) : Bool := a.pumps.all fun n => pumpState s n = .running

/-- The test of a PRIMING pump: proven, it runs; the attempt starts with its last pump (R94). -/
def checkProven (s : State) (n : Nat) : State :=
  if pumpState s n = .priming && runningOn s.plant n && provenOn s.plant n then
    let s := modPumpS s n fun x => { x with state := .running, failures := 0 }
    match s.plant.attempts.find? fun a => a.pumps.contains n with
    | some a =>
      if a.phase = .priming && allRunning s a then
        orderStarted (setPlant s (modAttempt s.plant a.order fun x => { x with phase := .running, prove := none })) a.order
      else s
    | none => s
  else s

/-- An attempt in LINING_UP passes to PRIMING (R94). -/
def prime (s : State) (a : Attempt) : State :=
  let p := a.pumps.foldl (fun p n => modPump p n fun x => { x with state := .priming, startLine := true }) s.plant
  let p := modAttempt p a.order fun x => { x with phase := .priming, prove := some (expiryAfter s s.settings.pv) }
  a.pumps.foldl checkProven (orderPriming (setPlant s p) a.order)

/-- An attempt in LINING_UP whose valves are all OPEN passes to PRIMING (R93, R94). -/
def checkLinedUp (s : State) (id : Nat) : State :=
  match attemptOf s.plant id with
  | some a => if a.phase = .liningUp && linedUp s.plant a then prime s a else s
  | none => s

/-- A change of a valve's state, announced to the attempts that use it and for XV to the crossover (R88, R94, R96). Attempts that share the valve are dealt with in the order in which they were taken: the manual gives none (log 37). -/
def valveChanged (s : State) (v : Nat) : State :=
  if v = xv then crossoverChanged s
  else
    let ids := (s.plant.attempts.filter fun a => a.valves.contains v).map Attempt.order
    match valveState s.plant v with
    | .fault => ids.foldl (fun s id => failAttempt s id .lineupFail) s
    | .opened => ids.foldl checkLinedUp s
    | _ => s

/-- A valve changed by a rule, with the announcement when its state has changed. -/
def changeValve (s : State) (v : Nat) (f : Valve → Valve) : State :=
  let before := valveState s.plant v
  let s := setPlant s (modValve s.plant v f)
  if valveState s.plant v = before then s else valveChanged s v

/-! ### Start requests and the arbiter -/

/-- The main of a tank (R45). -/
def mainOf (s : State) (t : Nat) : Main := ((tankData s t).map TankData.main).getD .port

/-- The group serving an order's main, none in CHANGING and FAULT (R117). -/
def groupFor (s : State) (o : Order) : Option Group := servingGroup s.plant.crossMode (mainOf s o.tank)

/-- The start request is taken (R93). -/
def startTaken (s : State) (o : Order) (pumps : List Nat) : Bool :=
  match groupFor s o with
  | none => false
  | some g =>
    pumps.all (fun n => available s n && (groupPumps g).contains n)
      && (if ganged s.plant g then pumps = groupPumps g else pumps.length = 1)
      && mainTakes s.plant g (mainOf s o.tank) o.action
      && (attemptOf s.plant o.id).isNone

/-- The plant after a start request has been taken (R93). -/
def startPlant (s : State) (o : Order) (pumps : List Nat) : Plant :=
  let m := mainOf s o.tank
  let valves := lineup o.action m o.tank o.dest
  let attempt : Attempt :=
    { order := o.id, action := o.action, main := m, pumps := pumps, valves := valves, phase := .liningUp, cause := none, prove := none, withdrawn := [] }
  let p := { s.plant with attempts := s.plant.attempts ++ [attempt] }
  let p := pumps.foldl (fun p n => modPump p n fun x => { x with holder := some o.id }) p
  valves.foldl (joinValve (strokeExpiry s)) (joinMain p m o.action o.id)

/-- A start request: taken, the order becomes LINEUP and an attempt already lined up primes; refused, nothing changes (R93, R118). -/
def startRequest (s : State) (o : Order) (pumps : List Nat) : State :=
  if startTaken s o pumps then
    checkLinedUp (moveOrder (setPlant s (startPlant s o pumps)) o.id fun x => { x with state := .lineup, pumps := pumps }) o.id
  else s

/-- What the arbiter does with a QUEUED order: passes it over without or with a claim to preempt (R119), or grants it pumps. -/
inductive Verdict where
  | pass
  | passUrgent
  | grant (pumps : List Nat)
  deriving DecidableEq, Repr

/-- The pumps a group offers (R117, case 5). -/
def offered (s : State) (g : Group) : List Nat :=
  if ganged s.plant g then (if (groupPumps g).all (available s) then groupPumps g else [])
  else ((groupPumps g).filter (available s)).take 1

/-- The cases of R117 in order. -/
def judge (s : State) (o : Order) : Verdict :=
  match groupFor s o with
  | none => .pass
  | some g =>
    let r := mainRec s.plant (mainOf s o.tank)
    if orderHeld s o then .pass
    else if o.direction != some .relieving && (s.hull.stop = .stopped || s.hull.live.isNone) then .pass
    else if r.mode != .idle && r.mode != actionMode o.action then .passUrgent
    else if r.mode != .idle && mainLimit s.plant g o.action ≤ r.orders.length then .passUrgent
    else match offered s g with
      | [] => .passUrgent
      | pumps => .grant pumps

/-- The order in which a run considers orders: priority highest first, then rank lowest first (R117). -/
def arbiterBefore (a b : Order) : Bool := b.priority < a.priority || (a.priority = b.priority && a.rank < b.rank)

/-- One order of a run; the list gathers the priority-3 orders passed over by case 3, 4 or 5 (R117, R119). -/
def considerOrder (acc : State × List Order) (o : Order) : State × List Order :=
  match judge acc.1 o with
  | .pass => acc
  | .passUrgent => if o.priority = 3 then (acc.1, acc.2 ++ [o]) else acc
  | .grant pumps => (startRequest acc.1 o pumps, acc.2)

/-- An order holds a pump of a group. -/
def holdsPumpOf (g : Group) (o : Order) : Bool := o.pumps.any fun n => (groupPumps g).contains n

/-- An urgent order's group lets it preempt: no WITHDRAWN pump, no order of it STOPPING with reason PREEMPTED (R119). -/
def mayPreempt (s : State) (o : Order) : Bool :=
  match groupFor s o with
  | none => false
  | some g =>
    (groupPumps g).all (fun n => pumpState s n != .withdrawn)
      && !(ordersList s).any fun x => holdsPumpOf g x && x.state = .stopping && x.reason = some .preempted

/-- The order in which victims are chosen: lowest priority, then highest rank (R119). -/
def victimBefore (a b : Order) : Bool := a.priority < b.priority || (a.priority = b.priority && b.rank < a.rank)

/-- The victims an order may take, first choice first (R119). -/
def victims (s : State) (o : Order) : List Order :=
  match groupFor s o with
  | none => []
  | some g => sortBy victimBefore ((ordersList s).filter fun x => x.state = .active && x.priority ≤ 1 && holdsPumpOf g x)

/-- One preemption; the list holds the victims already taken in the run (R119). -/
def preemptFor (acc : State × List Nat) (o : Order) : State × List Nat :=
  match (victims acc.1 o).find? fun v => !acc.2.contains v.id with
  | some v => (stopOrder acc.1 v.id .preempted, acc.2 ++ [v.id])
  | none => acc

/-- An order SUSPENDED with reason PREEMPTED returns at the end of a run, or is held (R119, R129). -/
def returnPreempted (s : State) (id : Nat) : State :=
  match orderById s id with
  | some o =>
    if o.state = .suspended && o.reason = some .preempted then
      if orderHeld s o then modOrder s id fun o => { o with reason := some .held } else queueOrder s id fun o => o
    else s
  | none => s

/-- The orders SUSPENDED with a reason. -/
def suspendedFor (s : State) (r : Reason) : List Nat :=
  ((ordersList s).filter fun o => o.state = .suspended && o.reason = some r).map Order.id

/-- One run of the arbiter (R117 to R119). The preemption conditions are read when the last order has been considered (log 16); the victims suspended before the run return at its end. -/
def arbiterRun (s : State) : State :=
  let returning := suspendedFor s .preempted
  let queued := sortBy arbiterBefore ((ordersList s).filter fun o => o.state = .queued)
  let considered := queued.foldl considerOrder (s, [])
  let urgent := considered.2.filter (mayPreempt considered.1)
  let preempted := urgent.foldl preemptFor (considered.1, [])
  returning.foldl returnPreempted preempted.1

/-- The runs called for within an event, one after the other, until none is owed (R116; log 14). The number bounds them, and a run still owed at the bound is dropped (log 25). -/
def settleRuns : Nat → State → State
  | 0, s => setOrders s { s.orders with runOwed := false }
  | n + 1, s => if s.orders.runOwed then settleRuns n (arbiterRun (setOrders s { s.orders with runOwed := false })) else s

/-- The end of an event's handling at the order engine (R116; log 14). -/
def settleArbiter (s : State) : State := settleRuns 64 s

end Sys2Proof.Machine
end

