-- ==== Sys2Proof/Machine/Notices.lean ====
section
/-! DEFINITION. What the blocks tell each other: gauge notices (R121 to R123, R127), readings (R32, R35, R40, R41), scan rounds (R28, R29), the hull signals (R79, R128), the supervisor's intake of a live result (R77, R78, R80), and the resets (R15, R16, R24). -/

namespace Sys2Proof.Machine

/-! ### Gauge notices at the order engine -/

/-- The ids of the non-terminal orders that need a tank (R112). -/
def ordersOn (s : State) (t : Nat) : List Nat :=
  ((ordersList s).filter fun o => !terminalState o.state && needs o t).map Order.id

/-- A gauge-change notice for one order: the stall window of an ACTIVE one is restarted, without measuring (R123). -/
def gaugeChangeFor (s : State) (id : Nat) : State :=
  match orderById s id with
  | some o => if o.state = .active then modOrder s id fun x => { x with stall := some (freshStall s o) } else s
  | none => s

/-- A gauge-change notice (R31, R33, R123). -/
def gaugeChange (s : State) (t : Nat) : State := (ordersOn s t).foldl gaugeChangeFor s

/-- A gauge-lost notice for one order (R127). -/
def gaugeLostFor (s : State) (id : Nat) : State :=
  match orderById s id with
  | none => s
  | some o =>
    match o.state with
    | .admitting => modOrder s id fun o => { o with gaugeLost := true }
    | .queued | .suspended => failOrder s id fun o => { o with reason := some .noGauge }
    | .lineup | .starting | .active => stopOrder s id .noGauge
    | .stopping | .done | .failed | .cancelled => s

/-- A gauge-lost notice (R127). -/
def gaugeLost (s : State) (t : Nat) : State := (ordersOn s t).foldl gaugeLostFor s

/-- The moved mass of an order at a source mass (R121). -/
def movedMass (o : Order) (mass : Nat) : Nat :=
  match o.action with
  | .fill => mass - o.startMass
  | .discharge | .transfer => o.startMass - mass

/-- The progress of a moved mass (R121). -/
def progressOf (moved toMove : Nat) : Nat := if toMove = 0 then 100 else min 100 (moved * 100 / toMove)

/-- An order after a level notice for its source tank (R121). -/
def withProgress (mass : Nat) (o : Order) : Order :=
  { o with moved := movedMass o mass, progress := progressOf (movedMass o mass) o.toMove }

/-- A level notice for one order that needs the tank (R121, R122). -/
def levelNoticeFor (t : Nat) (s : State) (id : Nat) : State :=
  match orderById s id with
  | none => s
  | some o =>
    if o.state = .admitting then s
    else completionTest (if o.tank = t then modOrder s id (withProgress (massOf s t)) else s) id

/-- A level notice (R35, R121, R122). -/
def levelNotice (s : State) (t : Nat) : State := (ordersOn s t).foldl (levelNoticeFor t) s

/-! ### Readings -/

/-- A bad reading or stall disagreement of a tank (R40). -/
def badEvent (s : State) (t : Nat) : State :=
  match tankRec s t with
  | none => s
  | some r =>
    if !gaugeInUse r.gauge then s
    else
      let s := modTank s t badReading
      if withdraws r then gaugeLost (raise s gaugeWithdrawn (some t)) t
      else if r.gauge = .normal && (badReading r).gauge = .suspect then raise s gaugeSuspect (some t)
      else s

/-- A reading handed to the inventory: a raw code of the channel that a tank is mapped to (R32). -/
def reading (s : State) (t ch code : Nat) : State :=
  match tankData s t, tankRec s t, s.gauge.channels[ch]? with
  | some d, some r, some c =>
    match r.gauge, classify s.settings d c code with
    | .normal, some level | .suspect, some level => levelNotice (modTank s t (goodReading d level (now s))) t
    | .normal, none | .suspect, none => badEvent s t
    | .withdrawn, some level =>
      let s' := modTank s t (goodWhileWithdrawn d level (now s))
      if reinstates r then levelNotice s' t else s'
    | .withdrawn, none => modTank s t fun r => { r with reinstatement := 0 }
    | .unmapped, _ => s
  | _, _, _ => s

/-! ### Scan rounds -/

/-- The end of a scan round: the live requests of scanner and pour gate merge into one (R28, section 5.2; log 33), then a waiting step is rechecked. -/
def endRound (s : State) : State :=
  let s := recheck (choose (recomputeEstimate (markLive s false)))
  setGauge s { s.gauge with round := none }

/-- A round starts over the mapped channels; an empty one ends at its start (R28). -/
def startRound (s : State) : State :=
  match mappedChannels s.tanks with
  | [] => endRound s
  | cs => setGauge s { s.gauge with round := some { channels := cs, position := 0 } }

/-- A round in progress is aborted and a new one started (R29). -/
def restartRound (s : State) : State := if s.gauge.round.isSome then startRound s else s

/-! ### Hull signals -/

/-- The order engine at the hull stop signal (R128). -/
def ordersHullStop (s : State) : State :=
  let ids := ((ordersList s).filter fun o => runningState o.state && o.direction = some .loading).map Order.id
  settleArbiter (callArbiter (ids.foldl (fun s id => stopOrder s id .hull) s))

/-- An order SUSPENDED with reason HULL returns, or is held (R128, R129). -/
def returnHull (s : State) (id : Nat) : State :=
  match orderById s id with
  | some o => if orderHeld s o then modOrder s id fun o => { o with reason := some .held } else queueOrder s id fun o => o
  | none => s

/-- The order engine at the hull clear signal (R128). -/
def ordersHullClear (s : State) : State := settleArbiter (callArbiter ((suspendedFor s .hull).foldl returnHull s))

/-- The stop state after a live completion (R78). -/
def stopAfter (before : StopState) (rs : Int) (r : EvalResult) : StopState :=
  match before with
  | .clear => if r.band = .red then .stopped else .clear
  | .stopped => if r.band != .red && r.peak ≤ rs then .clear else .stopped

/-- The hull is usable: stop state CLEAR and band other than NONE (R79). -/
def usable (h : Hull) : Bool := h.stop = .clear && h.live.isSome

/-- The hull signals of a live completion (R79; log 15). -/
def hullSignals (before : Hull) (s : State) : State :=
  if before.stop = .clear && s.hull.stop = .stopped then pourHullStop (ordersHullStop s)
  else if usable s.hull && !usable before then pourHullClear (ordersHullClear s)
  else s

/-- A live completion takes the band to RED (R80). -/
def redOnset (before : Hull) (r : EvalResult) : Bool := r.band = .red && before.live.map EvalResult.band != some .red

/-- The hull supervisor takes a live result in (R77 to R81), also one left from CLOSING that completes after COPN (R72; log 39). -/
def takeLiveResult (s : State) (r : EvalResult) (mark : Bool) : State :=
  let before := s.hull
  let s := setHull s { live := some r, stop := stopAfter before.stop s.settings.rs r, completedAt := some (now s) }
  let s := reportHullCauses s
  let s := if redOnset before r && s.call = .inCall then trigger s .exception (currentStep s) else s
  let s := hullSignals before s
  if mark then reportMarked s else s

/-! ### Resets -/

/-- A warm reset: a VALID profile stays in force, any other state becomes EMPTY (R16, R24). -/
def warmReset (s : State) : State :=
  State.restarted (match s.profile with
    | .valid p => .valid p
    | _ => .empty) s.stored s.rates.consoleStraps s.rates.terminalStraps s.plant.lines s.pending

/-- Power-on: the stored copy is verified (R15, R24). -/
def powerOn (s : State) : State :=
  State.restarted (verified s.stored) s.stored s.rates.consoleStraps s.rates.terminalStraps s.plant.lines s.pending

end Sys2Proof.Machine
end

