-- ==== Sys2Proof/Machine/ExecCall.lean ====
section
/-! DEFINITION. Meanings of the call-control requests: COPN, CEND, CLKS, SETP (R18, R19, R23, R26). -/

namespace Sys2Proof.Machine

/-! ### COPN and CEND -/

/-- The hold table with every hold cleared (R138). -/
def clearHolds (s : State) : State := setPour s { s.pour with holds := List.replicate 9 Hold.initial }

/-- What each block sets at the opening of a call, before the live request (R18, R27, R83, R157, R180). A transmission left from CLOSING goes on (log 43). -/
def openCall (s : State) : State :=
  let s := setCall s .inCall
  let s := setReports s { s.reports with counter := some 0, consoleGap := 0, terminalGap := 0 }
  let s := clearHolds s
  let s := setPour s { s.pour with outstanding := none }
  let s := setGauge s { s.gauge with timer := some (expiryAfter s s.settings.sc) }
  resetHull s

/-- COPN (R18). -/
def copn (k : Nat) (s : State) : State :=
  if s.call = .idle then reply (liveRequest (openCall s) false) .console k .ok [] else refuse s .console k .state

/-- COPN (R18). -/
def execCopn (slot : Nat) (s : State) : Result :=
  serve .console slot s fun r s =>
    match r with
    | .copn => copn slot s
    | _ => s

/-- CEND waits for the orders and the pour (R19, test 2). -/
def callBusy (s : State) : Bool :=
  (ordersList s).any (fun o => !terminalState o.state)
    || s.pour.plan.any fun st => st.state = .pouring || st.state = .halted || st.state = .settling

/-- A pending SREQ is answered STATE when the plan is discarded (R144). -/
def answerSreq (s : State) (st : Step) : State :=
  match st.replyPending with
  | some k => refuse s .terminal k .state
  | none => s

/-- The pour gate at the call end (R157). -/
def endPour (s : State) : State := setPour (s.pour.plan.foldl answerSreq s) Pour.initial

/-- The order engine at the call end; the rank counter is kept (R19, R108). -/
def endOrders (s : State) : State :=
  setTanks (setOrders s { Orders.initial with rank := s.orders.rank }) (s.tanks.map fun t => { t with held := false })

/-- The terminal port at the call end (R166). -/
def endTerminal (s : State) : State := setTerm s { s.term with quietTimer := none, count := 0 }

/-- CEND accepted: the DEPARTURE report first, then the blocks (R19, R20; log 23). -/
def endCall (s : State) : State :=
  let s := triggerDeparture (setCall s .closing)
  let s := endOrders (endPour s)
  let s := setAttention s Attention.initial
  let s := resetHull (abandonEngine s)
  closingCheck (endTerminal s)

/-- CEND (R19). The reply is composed after the test of R20, so that its CS is IDLE where the call ends at once (log 47). -/
def cend (k : Nat) (s : State) : State :=
  if s.call != .inCall then refuse s .console k .state
  else if callBusy s then refuse s .console k .busy
  else reply (endCall s) .console k .ok []

/-- CEND (R19). -/
def execCend (slot : Nat) (s : State) : Result :=
  serve .console slot s fun r s =>
    match r with
    | .cend => cend slot s
    | _ => s

/-! ### CLKS -/

/-- CLKS sets the call clock (R23). -/
def clks (k : Nat) (cl : Int) (s : State) : State :=
  match natUpTo Config.callClockMax cl with
  | none => refuse s .console k .range
  | some n => reply (setClocks s { s.clocks with call := some n }) .console k .ok [(.CL, .num n), rvNum (now s)]

/-- CLKS (R23). -/
def execClks (slot : Nat) (s : State) : Result :=
  serve .console slot s fun r s =>
    match r with
    | .clks cl => clks slot cl s
    | _ => s

/-! ### SETP -/

/-- The range of a setting (R25). -/
def settingRange : Field → Int × Int
  | .SC => (1, 10)
  | .SW => (30, 600)
  | .SM => (5, 200)
  | .SL => (0, 300)
  | .VT => (10, 600)
  | .PV => (5, 120)
  | .PS => (5, 120)
  | .DB => (0, 2550)
  | .SI => (0, 300)
  | .HP => (1, 3)
  | .QT => (10, 120)
  | .OA => (0, 20)
  | .RO => (0, 2000)
  | .WT => (500, 999)
  | .RS => (500, 1000)
  | .DL => (1000, 30000)
  | .TN => (-1000, 1000)
  | .TX => (-1000, 1000)
  | .RA => (0, 16000)
  | .RB => (49000, 65535)
  | _ => (0, 0)

/-- The value in force of a setting (R25). -/
def getSetting (x : Settings) : Field → Int
  | .SC => x.sc
  | .SW => x.sw
  | .SM => x.sm
  | .SL => x.sl
  | .VT => x.vt
  | .PV => x.pv
  | .PS => x.ps
  | .DB => x.db
  | .SI => x.si
  | .HP => x.hp
  | .QT => x.qt
  | .OA => x.oa
  | .RO => x.ro
  | .WT => x.wt
  | .RS => x.rs
  | .DL => x.dl
  | .TN => x.tn
  | .TX => x.tx
  | .RA => x.ra
  | .RB => x.rb
  | _ => 0

/-- The settings with one value replaced (R26). -/
def putSetting (x : Settings) (f : Field) (v : Int) : Settings :=
  match f with
  | .SC => { x with sc := v }
  | .SW => { x with sw := v }
  | .SM => { x with sm := v }
  | .SL => { x with sl := v }
  | .VT => { x with vt := v }
  | .PV => { x with pv := v }
  | .PS => { x with ps := v }
  | .DB => { x with db := v }
  | .SI => { x with si := v }
  | .HP => { x with hp := v }
  | .QT => { x with qt := v }
  | .OA => { x with oa := v }
  | .RO => { x with ro := v }
  | .WT => { x with wt := v }
  | .RS => { x with rs := v }
  | .DL => { x with dl := v }
  | .TN => { x with tn := v }
  | .TX => { x with tx := v }
  | .RA => { x with ra := v }
  | .RB => { x with rb := v }
  | _ => x

/-- A value clamped: DB is first lowered to a multiple of 10 (R26). -/
def clampSetting (f : Field) (v : Int) : Int :=
  saturate (settingRange f).1 (settingRange f).2 (if f = .DB then v / 10 * 10 else v)

/-- The settings with every value of a request clamped and put in (R26). -/
def putAll (x : Settings) (vs : List (Field × Int)) : Settings :=
  vs.foldl (fun x fv => putSetting x fv.1 (clampSetting fv.1 fv.2)) x

/-- A value was changed by clamping (R26). -/
def anyClamped (vs : List (Field × Int)) : Bool := vs.any fun fv => clampSetting fv.1 fv.2 != fv.2

/-- SETP: clamping, the trim window check, taking effect (R26). The reply writes the fields in the order in which the request named them: R26 gives none (log 44). -/
def setp (k : Nat) (vs : List (Field × Int)) (s : State) : State :=
  let x := putAll s.settings vs
  if x.tx ≤ x.tn then refuse s .console k .range
  else
    let shape := x.dl != s.settings.dl || x.tn != s.settings.tn || x.tx != s.settings.tx
    let s := setSettings s x
    let s := if shape then liveRequest s false else s
    reply s .console k (if anyClamped vs then .clamped else .ok) (vs.map fun fv => (fv.1, .num (getSetting x fv.1)))

/-- SETP (R26). -/
def execSetp (slot : Nat) (s : State) : Result :=
  serve .console slot s fun r s =>
    match r with
    | .setp vs => setp slot vs s
    | _ => s

end Sys2Proof.Machine
end

