-- ==== Sys2Proof/Machine/ExecGauge.lean ====
section
/-! DEFINITION. Meanings of the gauging commands: SCAN_PERIOD_TICK, CONVERSION_COMPLETE, GCAL, TMAP, DENS, SNDG, GQRY (R27 to R47). -/

namespace Sys2Proof.Machine

/-! ### Rounds and conversions -/

/-- A scan-period tick: the timer restarts with SC in force, a round starts when none runs (R27). -/
def scanTick (s : State) : State :=
  if due s.gauge.timer (now s) then
    let s := setGauge s { s.gauge with timer := some (expiryAfter s s.settings.sc) }
    if s.gauge.round.isNone then startRound s else s
  else s

/-- SCAN_PERIOD_TICK (R27). -/
def execScanPeriodTick (s : State) : Result := event s scanTick

/-- The channel under conversion (R28). -/
def channelUnderWay (r : Round) : Option Nat := r.channels[r.position]?

/-- A conversion ends with a code: recorded, handed to the inventory, then the next conversion or the end of the round (R28). -/
def conversion (code : Nat) (s : State) : State :=
  match s.gauge.round with
  | none => s
  | some r =>
    match channelUnderWay r with
    | none => s
    | some ch =>
      let s := setGauge s { s.gauge with channels := modAt s.gauge.channels ch fun c => { c with lastRaw := some code } }
      let s := match tankOnChannel s.tanks ch with
        | some t => reading s t ch code
        | none => s
      let s := if r.position + 1 < r.channels.length then
          setGauge s { s.gauge with round := some { r with position := r.position + 1 } }
        else endRound s
      settleArbiter s

/-- CONVERSION_COMPLETE (R28). -/
def execConversionComplete (code : Fin 65536) (s : State) : Result := event s (conversion code.val)

/-! ### Requests -/

/-- The declared tank a field names: 0 to 23 and declared (R33, R38, R43, R46). -/
def tankNamed (s : State) (tk : Int) : Option Nat :=
  match natUpTo 23 tk with
  | some t => if (tankRec s t).isSome && (tankData s t).isSome then some t else none
  | none => none

/-- The channel a field names (R31, R33). -/
def channelNamed (gc : Int) : Option Nat := natUpTo 31 gc

/-- A channel as a field value: 255 for NONE. -/
def channelCode (c : Option Nat) : Int := c.getD 255

/-- A zero code as given: 0 to 65,535; beyond that a free value (R30, R31; log 12). -/
def zeroCodeOf (zc : Int) : Nat := (natUpTo 65535 zc).getD (Config.otherZeroCode zc).val

/-- A gain as given, not 0: 1 to 65,535; beyond that a free value (R30, R31; log 12). -/
def gainOf (gn : Int) : Nat := (natIn 1 65535 gn).getD ((Config.otherGain gn).val + 1)

/-- The calibration of a channel with the present fields replaced (R31). -/
def calibrated (zc gn : Option Nat) (ofs : Option Int) (c : Channel) : Channel :=
  { c with zeroCode := zc.getD c.zeroCode, gain := gn.getD c.gain, offset := ofs.getD c.offset }

/-- The three tests of GCAL: the channel of an accepted request, `none` for RANGE (R31). -/
def gcalTests (gc : Int) (gn ofs : Option Int) : Option Nat :=
  match channelNamed gc with
  | none => none
  | some ch =>
    if gn = some 0 then none
    else if !(ofs.map (within (-5000) 5000)).getD true then none
    else some ch

/-- The effects of an accepted GCAL (R29, R31). -/
def recalibrate (ch : Nat) (z g : Option Nat) (ofs : Option Int) (s : State) : State :=
  let s := setGauge s { s.gauge with channels := modAt s.gauge.channels ch (calibrated z g ofs) }
  let s := match tankOnChannel s.tanks ch with
    | some t => gaugeChange (modTank s t emptyRing) t
    | none => s
  liveRequest (restartRound s) false

/-- The calibration of a channel in the order of R30 (R31; log 18). -/
def calibrationFields (c : Channel) : List (Field × Val) := [rvNum c.zeroCode, rvNum c.gain, rvNum c.offset]

/-- GCAL (R31). -/
def gcal (k : Nat) (gc : Int) (zc gn ofs : Option Int) (s : State) : State :=
  match gcalTests gc gn ofs with
  | none => refuse s .console k .range
  | some ch =>
    let s := settleArbiter (recalibrate ch (zc.map zeroCodeOf) (gn.map gainOf) ofs s)
    reply s .console k .ok ((s.gauge.channels[ch]?.map calibrationFields).getD [])

/-- GCAL (R21, R31). -/
def execGcal (slot : Nat) (s : State) : Result :=
  serve .console slot s fun r s =>
    match r with
    | .gcal gc zc gn ofs => whenAdmitted withProfile .console slot s (gcal slot gc zc gn ofs)
    | _ => s

/-- The channel and gauge state of a tank, in the reply to TMAP (R33; log 18). -/
def mapFields (s : State) (t : Nat) : List (Field × Val) :=
  match tankRec s t with
  | some r => [rvNum (channelCode r.channel), rvNum (gaugeCode r.gauge)]
  | none => []

/-- The channel that TMAP sets: `some none` is NONE (R33). -/
def mapChannel (gc : Int) : Option (Option Nat) := if gc = 255 then some none else (channelNamed gc).map some

/-- The effects of a map-changing TMAP (R33, R34). -/
def changeMap (t : Nat) (c : Option Nat) (s : State) : State :=
  let s := gaugeChange (modTank s t (remap c)) t
  let s := if c.isNone then gaugeLost s t else s
  liveRequest (restartRound s) false

/-- TMAP (R33). -/
def tmap (k : Nat) (tk gc : Int) (s : State) : State :=
  match tankNamed s tk, mapChannel gc with
  | some t, some c =>
    if (c.bind (tankOnChannel s.tanks)).any fun u => u != t then refuse s .console k .conflict
    else if (tankRec s t).map Tank.channel = some c then reply s .console k .ok (mapFields s t)
    else
      let s := settleArbiter (changeMap t c s)
      reply s .console k .ok (mapFields s t)
  | _, _ => refuse s .console k .range

/-- TMAP (R21, R33). -/
def execTmap (slot : Nat) (s : State) : Result :=
  serve .console slot s fun r s =>
    match r with
    | .tmap tk gc => whenAdmitted withProfile .console slot s (tmap slot tk gc)
    | _ => s

/-- A density clamped to 1,000 to 1,050 (R38). -/
def clampDensity (dn : Int) : Nat := (saturate 1000 1050 dn).toNat

/-- A tank's mass recomputed after a change of its record (R37). -/
def retank (s : State) (t : Nat) (f : Tank → Tank) : State :=
  match tankData s t with
  | some d => modTank s t fun r => withMass d (f r)
  | none => s

/-- DENS; its reply carries the density and the mass, each as RV (R38, R195; log 18). -/
def dens (k : Nat) (tk dn : Int) (s : State) : State :=
  match tankNamed s tk with
  | none => refuse s .console k .range
  | some t =>
    let s := liveRequest (retank s t fun r => { r with density := clampDensity dn }) false
    reply s .console k (if within 1000 1050 dn then .ok else .clamped)
      [rvNum (clampDensity dn), rvNum (massOf s t)]

/-- DENS (R21, R38). -/
def execDens (slot : Nat) (s : State) : Result :=
  serve .console slot s fun r s =>
    match r with
    | .dens tk dn => whenAdmitted withProfile .console slot s (dens slot tk dn)
    | _ => s

/-- SNDG; its reply carries the level and the mass, each as RV (R43, R195; log 18). -/
def sndg (k : Nat) (tk lv : Int) (s : State) : State :=
  match tankNamed s tk with
  | none => refuse s .console k .range
  | some t =>
    if (tankRec s t).any fun r => gaugeInUse r.gauge then refuse s .console k .state
    else match natUpTo (maxLevelOf s t + 500) lv with
      | none => refuse s .console k .range
      | some l =>
        let s := liveRequest (retank s t fun r => { r with level := l, source := .manual }) false
        reply s .console k .ok [rvNum l, rvNum (massOf s t)]

/-- SNDG (R21, R43). -/
def execSndg (slot : Nat) (s : State) : Result :=
  serve .console slot s fun r s =>
    match r with
    | .sndg tk lv => whenAdmitted withProfile .console slot s (sndg slot tk lv)
    | _ => s

/-- A tank's record in the order of R45 (R46; log 18). -/
def tankFields (s : State) (t : Nat) : List (Field × Val) :=
  match tankData s t, tankRec s t with
  | some d, some r =>
    [rvNum t, rv (.raw d.name), rvNum (mainCode d.main), rvNum (channelCode r.channel), rvNum (gaugeCode r.gauge),
      rvNum r.score, rvNum r.reinstatement]
      ++ r.ring.map (fun l : Nat => rvNum l)
      ++ [rvNum r.level, rvNum (levelSourceCode r.source), rvNum r.density, rvNum r.mass, rvNum (tankAllowance d r),
        rv (valNat r.lastGood), rvNum (boolCode r.held)]
  | _, _ => []

/-- A channel's record and the tank mapped to it, ABSENT for none (R46; log 18). -/
def channelFields (s : State) (ch : Nat) : List (Field × Val) :=
  match s.gauge.channels[ch]? with
  | some c => calibrationFields c ++ [rv (valNat c.lastRaw), rv (valNat (tankOnChannel s.tanks ch))]
  | none => []

/-- GQRY (R46). -/
def gqry (k : Nat) (tk gc : Option Int) (s : State) : State :=
  match tk, gc with
  | some tk, none =>
    match tankNamed s tk with
    | some t => reply s .console k .ok (tankFields s t)
    | none => refuse s .console k .range
  | none, some gc =>
    match channelNamed gc with
    | some ch => reply s .console k .ok (channelFields s ch)
    | none => refuse s .console k .range
  | _, _ => refuse s .console k .format

/-- GQRY (R46). -/
def execGqry (slot : Nat) (s : State) : Result :=
  serve .console slot s fun r s =>
    match r with
    | .gqry tk gc => gqry slot tk gc s
    | _ => s

end Sys2Proof.Machine
end

