-- ==== Sys2Proof/Machine/ExecHull.lean ====
section
/-! DEFINITION. Meanings of the hull commands: LIVE_EVALUATION_COMPLETE, PREVIEW_COMPLETE, PREV, HQRY (R49, R74, R75, R77, R82, R115, R144). -/

namespace Sys2Proof.Machine

/-- A live evaluation completes: classified with WT in force, taken in, then the engine takes further work (R49, R66, R77). -/
def liveComplete (s : State) : State :=
  match s.engine.running with
  | some { kind := .live mark, inputs := i } =>
    settleArbiter (finishEvaluation (takeLiveResult s (evaluate true i s.settings.wt) mark) .live)
  | _ => s

/-- LIVE_EVALUATION_COMPLETE (R49, R77). -/
def execLiveEvaluationComplete (s : State) : Result := event s liveComplete

/-- The order of an admission is dropped and its slot becomes empty (R115). -/
def dropOrder (s : State) (id : Nat) : State :=
  setOrders s { s.orders with slots := s.orders.slots.map fun x => if x.any fun o => o.id = id then none else x }

/-- A waiting ORDR is answered (R115). -/
def answerOrdr (s : State) (o : Order) (oc : Oc) (fields : List (Field × Val)) : State :=
  match o.slot with
  | some k => reply s .console k oc fields
  | none => s

/-- The result fields of an admitted ORDR: order id, clamped target level, mass to move, direction, peak, band, reference peak (R115; log 18). -/
def admittedFields (o : Order) (r : EvalResult) (reference : Option Int) : List (Field × Val) :=
  [rvNum o.id, rvNum o.targetLevel, rvNum o.toMove, rvNum (directionCode (directionOf reference r.peak)), rvNum r.peak,
    rvNum (bandCode (some r.band)), rv (valOr reference)]

/-- The admission preview of an ORDR completes (R115). -/
def admissionResult (s : State) (id : Nat) (r : EvalResult) (reference : Option Int) : State :=
  match orderById s id with
  | none => s
  | some o =>
    if o.state != .admitting then s
    else if o.gaugeLost then answerOrdr (dropOrder s id) o .noGauge []
    else if r.band = .red then answerOrdr (dropOrder s id) o .limit []
    else
      let rank := s.orders.rank + 1
      let s := setOrders s { s.orders with rank := rank }
      let s := queueOrder s id fun o =>
        { o with rank := rank, direction := some (directionOf reference r.peak), admitted := some (now s), slot := none }
      answerOrdr s o (if o.clamped then .clamped else .ok) (admittedFields o r reference)

/-- A preview result handed to its requester (R75). -/
def handPreview (s : State) (q : Requester) (r : EvalResult) (reference : Option Int) : State :=
  match q with
  | .order id => admissionResult s id r reference
  | .gate _ => gateResult s r.band
  | .console k =>
    reply s .console k .ok (resultFields r ++ [rv (valOr reference), rvNum (directionCode (directionOf reference r.peak))])

/-- A preview completes (R49, R75). -/
def previewComplete (s : State) : State :=
  match s.engine.running with
  | some { kind := .preview e reference, inputs := i } =>
    settleArbiter (finishEvaluation (handPreview s e.requester (evaluate false i s.settings.wt) reference) .preview)
  | _ => s

/-- PREVIEW_COMPLETE (R49, R75). -/
def execPreviewComplete (s : State) : Result := event s previewComplete

/-! ### PREV -/

/-- CM and MS fields paired one to one in that order (R74). -/
def pairUp : List PrevField → Option (List (Int × Int))
  | [] => some []
  | .cm c :: .ms m :: rest => (pairUp rest).map fun ps => (c, m) :: ps
  | _ => none

/-- The declared compartment a CM names (R74). -/
def compartmentNamed (s : State) (cm : Int) : Option Nat :=
  match natUpTo 32 cm with
  | none => none
  | some c => if (if c < 24 then (tankData s c).isSome else (holdData s (c - 23)).isSome) then some c else none

/-- The overrides of a PREV; `none` where a compartment is not declared (R74). -/
def overridesOf (s : State) : List (Int × Int) → Option (List (Nat × Int))
  | [] => some []
  | (cm, ms) :: rest =>
    match compartmentNamed s cm, overridesOf s rest with
    | some c, some os => some ((c, ms) :: os)
    | _, _ => none

/-- PREV (R74). -/
def prev (k : Nat) (fields : List PrevField) (s : State) : State :=
  match pairUp fields with
  | none => refuse s .console k .format
  | some ps =>
    if 6 < ps.length then refuse s .console k .format
    else match overridesOf s ps with
      | none => refuse s .console k .range
      | some os =>
        let e : PreviewEntry := { requester := .console k, overrides := os }
        if hasRoom s e then placePreview (hold s .console k) e else refuse s .console k .busy

/-- PREV (R21, R74). -/
def execPrev (slot : Nat) (s : State) : Result :=
  serve .console slot s fun r s =>
    match r with
    | .prev fields => whenAdmitted withProfile .console slot s (prev slot fields)
    | _ => s

/-! ### HQRY -/

/-- The kind of the evaluation running, or ABSENT (R82). -/
def runningKind (g : Engine) : Val :=
  match g.running with
  | some { kind := .live _, .. } => .num (lastKindCode .live)
  | some { kind := .preview _ _, .. } => .num (lastKindCode .preview)
  | none => .absent

/-- The hull condition record and the evaluation queue (R82). -/
def hullFields (s : State) : List (Field × Val) :=
  [rvNum (bandCode (hullBand s)), rvNum (stopCode s.hull.stop), rv (valNat s.hull.completedAt)]
    ++ (match s.hull.live with
      | some r => resultFields r
      | none => absentResult)
    ++ [rvNum (boolCode s.engine.running.isSome), rvNum (lastKindCode s.engine.lastKind), rv (runningKind s.engine),
      rvNum (boolCode s.engine.pendingLive), rvNum (boolCode s.engine.reportMark), rvNum s.engine.previews.length,
      rvNum (boolCode (s.engine.previews.any fromGate))]

/-- HQRY (R82). -/
def execHqry (slot : Nat) (s : State) : Result :=
  serve .console slot s fun r s =>
    match r with
    | .hqry => reply s .console slot .ok (hullFields s)
    | _ => s

end Sys2Proof.Machine
end

