-- ==== Sys2Proof/Machine/ExecLink.lean ====
section
/-! DEFINITION. Meanings of the link commands: START_BYTE_FOUND, FRAME_RECEIVED, FRAME_DISCARDED, FRAME_INCOMPLETE_TIMEOUT, FRAME_TRANSMIT_START, REPLY_TRANSMIT_COMPLETE, DELIVERY (R176, R177, R184, R188 to R193). -/

namespace Sys2Proof.Machine

/-! ### Reception -/

/-- The receiver takes bytes in: not the console's while a WRST is pending (R188, R193). -/
def listens (s : State) (l : Link) : Bool := !(l = .console && s.wrstPending)

/-- A link's receiver set. -/
def setRx (s : State) (l : Link) (r : Receiver) : State := setPort s l { portOf s l with rx := r }

/-- The uptime of the last byte after some bytes have come in (log 30). -/
def lastByte (s : State) (r : Receiver) (bytes : List Byte) : Nat := if bytes.isEmpty then r.lastByteAt else now s

/-- The bytes from the first start byte on (R188). -/
def fromStart : List Byte → List Byte
  | [] => []
  | b :: bs => if b = 0x5A#8 then b :: bs else fromStart bs

/-- A hunting receiver discards every byte before a start byte, and collects from it (R188). -/
def huntIn (l : Link) (bytes : List Byte) (s : State) : State :=
  let r := (portOf s l).rx
  if !listens s l || r.collecting then s
  else
    let found := fromStart (r.bytes ++ bytes)
    setRx s l { collecting := !found.isEmpty, bytes := found, lastByteAt := lastByte s r bytes }

/-- START_BYTE_FOUND (R188). -/
def execStartByteFound (l : Link) (bytes : List Byte) (s : State) : Result := event s (huntIn l bytes)

/-- A port reply: it takes no slot (R190, R191). -/
def portReply (s : State) (l : Link) (kind : List Byte) (tag : Byte) (oc : Oc) (fields : List (Field × Val)) : State :=
  place s l (.reply { slot := none, tag := tag, kind := kind, outcome := oc, callState := s.call, fields := fields })

/-- A request takes a free slot (R190, step 5; log 10). -/
def takeSlot (s : State) (l : Link) (k : Nat) (sl : Slot) : State :=
  setPort s l { portOf s l with slots := modAt (portOf s l).slots k fun _ => some sl }

/-- What a received frame gets (R190). -/
inductive Dealt where
  | port (oc : Oc) (fields : List (Field × Val))
  | slot (k : Nat) (sl : Slot)

/-- A received frame dealt with in the order of R190. -/
def dealWith (s : State) (l : Link) (kind : List Byte) (tag : Byte) (body : List Byte) : Dealt :=
  match kindOf l kind with
  | none => .port .unknown []
  | some k =>
    match freeSlot (portOf s l) with
    | none => .port .busy []
    | some n =>
      if l = .terminal && s.term.state = .lost && k != .TATT then .port .state [(.LS, .num (linkCode .lost))]
      else match parseBody k body with
        | none => .port .format []
        | some r => .slot n { request := r, kind := k, tag := tag, phase := .handed, arrival := nextArrival (portOf s l) }

/-- The receiver hunts on through held bytes (R188). -/
def huntOn (s : State) (l : Link) (held : List Byte) (at_ : Nat) : State :=
  setRx s l { collecting := false, bytes := held, lastByteAt := at_ }

/-- A collecting receiver takes bytes in: an over-long or damaged frame is discarded, a received one dealt with, and a frame that would need a ninth port reply discarded like a damaged one (R188, R190; log 8, 9). -/
def collectIn (l : Link) (bytes : List Byte) (s : State) : State :=
  let r := (portOf s l).rx
  if !listens s l || !r.collecting then s
  else
    let buf := r.bytes ++ bytes
    let t := lastByte s r bytes
    match readFrame buf with
    | .incomplete => setRx s l { collecting := true, bytes := buf, lastByteAt := t }
    | .bad => huntOn s l buf.tail t
    | .frame kind tag body rest =>
      match dealWith s l kind tag body with
      | .port oc fields =>
        if portRepliesWaiting (portOf s l) < Config.portReplyMax then portReply (huntOn s l rest t) l kind tag oc fields
        else huntOn s l buf.tail t
      | .slot k sl => takeSlot (huntOn s l rest t) l k sl

/-- FRAME_RECEIVED (R190). The bytes decide what becomes of the frame (log 9). -/
def execFrameReceived (l : Link) (bytes : List Byte) (s : State) : Result := event s (collectIn l bytes)

/-- FRAME_DISCARDED (R188). The bytes decide what becomes of the frame (log 9). -/
def execFrameDiscarded (l : Link) (bytes : List Byte) (s : State) : Result := event s (collectIn l bytes)

/-- An incomplete frame whose next byte has not come in before the uptime has advanced by 2 is discarded (R188). -/
def dropStale (l : Link) (s : State) : State :=
  let r := (portOf s l).rx
  if r.collecting && readFrame r.bytes = .incomplete && r.lastByteAt + 2 ≤ now s then huntOn s l r.bytes.tail r.lastByteAt else s

/-- FRAME_INCOMPLETE_TIMEOUT (R188). -/
def execFrameIncompleteTimeout (l : Link) (s : State) : Result := event s (dropStale l)

/-! ### Transmission -/

/-- NOTE and RPRT may be chosen on a link: not on the console's while a WRST is pending (R193). -/
def lowerClasses (s : State) (l : Link) : Bool := !(l = .console && s.wrstPending)

/-- The report builder's offer to a link (R176). -/
def reportOffer (s : State) (l : Link) : Option Report :=
  if s.reports.queue.any (isSending l) then none
  else if l = .terminal && (s.term.state = .detached || s.term.state = .lost) then none
  else s.reports.queue.find? fun r => linkFlag l r = .pending

/-- A transmission begins (R192). -/
def beginTx (s : State) (l : Link) (f : TxFrame) : State :=
  setPort s l { portOf s l with tx := some { frame := f, wire := txBytes f } }

/-- The NOTE of a condition, read as its transmission begins (R184). -/
def noteOf (a : Attention) (n : Nat) : Note :=
  match a.conditions[n]? with
  | some c => { condition := n, first := c.first, latest := c.latest, count := c.count }
  | none => { condition := n, first := none, latest := none, count := 0 }

/-- A record's transmission begins: its flag is sending and the gap counter is carried (R176). Within a queue the record is found by its serial (R174). -/
def beginReport (s : State) (l : Link) (r : Report) : State :=
  let sent := withLinkFlag l .sending r
  let s' := setReports s { s.reports with
    queue := s.reports.queue.map fun x => if x.serial = r.serial then withLinkFlag l .sending x else x }
  beginTx s' l (.rprt sent (gapOf l s.reports))

/-- The arbiter chooses the next frame by class (R192). -/
def chooseFrame (l : Link) (s : State) : State :=
  match (portOf s l).tx with
  | some _ => s
  | none =>
    match (portOf s l).queue with
    | f :: rest => beginTx (setPort s l { portOf s l with queue := rest }) l (.class1 f)
    | [] =>
      if !lowerClasses s l then s
      else match (if l = .console then s.attention.owed else []) with
        | n :: rest => beginTx (setAttention s { s.attention with owed := rest }) l (.note (noteOf s.attention n))
        | [] =>
          match reportOffer s l with
          | some r => beginReport s l r
          | none => s

/-- FRAME_TRANSMIT_START (R192). -/
def execFrameTransmitStart (l : Link) (s : State) : Result := event s (chooseFrame l)

/-- The transmitter is free (R192). -/
def freeTx (s : State) (l : Link) : State := setPort s l { portOf s l with tx := none }

/-- A slot is freed (R191). -/
def freeSlotAt (s : State) (l : Link) (k : Nat) : State :=
  setPort s l { portOf s l with slots := modAt (portOf s l).slots k fun _ => none }

/-- The slot holds the WRST whose reply has gone (R193). -/
def isWrst (s : State) (l : Link) (k : Nat) : Bool :=
  l = .console && s.wrstPending && (slotAt s l k).map Slot.request = some .wrst

/-- A frame other than an RPRT has left the link: a reply's slot is freed, and the reply to WRST is followed by the warm reset (R191, R193; log 7). -/
def frameSent (l : Link) (s : State) : State :=
  match (portOf s l).tx with
  | some { frame := .class1 (.reply r), .. } =>
    match r.slot with
    | some k => if isWrst s l k then warmReset s else freeSlotAt (freeTx s l) l k
    | none => freeTx s l
  | some { frame := .class1 (.unsolicited _), .. } => freeTx s l
  | some { frame := .note _, .. } => freeTx s l
  | _ => s

/-- REPLY_TRANSMIT_COMPLETE (R191). -/
def execReplyTransmitComplete (l : Link) (s : State) : Result := event s (frameSent l)

/-- A delivered record that is still queued: its flag is clear, and with both clear it leaves the queue (R177). -/
def deliverQueued (l : Link) (s : State) : State :=
  match s.reports.queue.find? (isSending l) with
  | none => s
  | some r =>
    let cleared := s.reports.queue.map fun x => if isSending l x then withLinkFlag l .clear x else x
    let done := (withLinkFlag l .clear r).consoleFlag = .clear && (withLinkFlag l .clear r).terminalFlag = .clear
    if done then
      recordLeft (setReports s { s.reports with queue := cleared.filter fun x => x.serial != r.serial }) r.serial
    else setReports s { s.reports with queue := cleared }

/-- A delivery (R177): the gap counter falls by the carried count and not below 0 (log 43), the record is dealt with, and call control acts in CLOSING (R20). -/
def deliver (l : Link) (s : State) : State :=
  match (portOf s l).tx with
  | some { frame := .rprt _ carried, .. } =>
    let s := freeTx s l
    let s := setReports s (withGap l (gapOf l s.reports - carried) s.reports)
    closingCheck (deliverQueued l s)
  | _ => s

/-- DELIVERY (R177). -/
def execDelivery (l : Link) (s : State) : Result := event s (deliver l)

end Sys2Proof.Machine
end

