-- ==== Sys2Proof/Machine/ExecOrders.lean ====
section
/-! DEFINITION. Meanings of the order commands: ORDR, STALL_WINDOW_EXPIRY, OCAN, OREL, OQRY, HWIN (R108 to R133). -/

namespace Sys2Proof.Machine

/-! ### ORDR: tests and derivation -/

/-- A flag field as given: 0 or 1; beyond that a free value (R195; log 11). -/
def flagOf (x : Int) : Bool := if x = 0 then false else if x = 1 then true else Config.otherFlag x

/-- The action a code names (R195). -/
def actionNamed (ac : Int) : Option Action :=
  if ac = 0 then some .fill else if ac = 1 then some .discharge else if ac = 2 then some .transfer else none

/-- Exactly one target, and a destination with TRANSFER alone (R111, test 2). -/
def ordrShape (f : OrdrFields) : Bool :=
  (f.tl.isSome != f.tm.isSome) && (f.dt.isSome == decide (f.ac = 2))

/-- The target as given (R109). -/
def targetOf (f : OrdrFields) : Option Target :=
  match f.tl, f.tm with
  | some l, none => some (.level l)
  | none, some m => some (.mass m)
  | _, _ => none

/-- The numbers of an ORDR in their ranges (R111, test 3). -/
structure OrdrNumbers where
  id : Nat
  tank : Nat
  dest : Option Nat
  action : Action
  priority : Nat
  retries : Nat
  manual : Bool
  deriving DecidableEq, Repr

/-- A field value in its range, where it is present. -/
def inRangeIfPresent (hi : Nat) (x : Option Int) : Option (Option Nat) :=
  match x with
  | none => some none
  | some v => (natUpTo hi v).map some

/-- The numbers of an ORDR; `none` is RANGE (R111, test 3). An absent MF means clear. -/
def ordrNumbers (f : OrdrFields) : Option OrdrNumbers :=
  match natIn 1 255 f.oi, actionNamed f.ac, natUpTo 3 f.pr, natUpTo 7 f.rt, natUpTo 23 f.tk, inRangeIfPresent 23 f.dt with
  | some id, some a, some pr, some rt, some tk, some dt =>
    some { id := id, tank := tk, dest := dt, action := a, priority := pr, retries := rt, manual := flagOf (f.mf.getD 0) }
  | _, _, _, _, _, _ => none

/-- A terminal order of lower ended time, and of lower rank among equal times, stands first for reuse (R111, test 5). -/
def reuseBefore (a b : Order) : Bool :=
  a.ended.getD 0 < b.ended.getD 0 || (a.ended.getD 0 = b.ended.getD 0 && a.rank < b.rank)

/-- The slot an order takes: an empty one (log 10), else that of the terminal order chosen for reuse; `none` is FULL (R111, test 5). -/
def orderSlot (s : State) : Option Nat :=
  match indexOf? Option.isNone s.orders.slots with
  | some i => some i
  | none =>
    match sortBy reuseBefore ((ordersList s).filter fun o => terminalState o.state) with
    | o :: _ => indexOf? (fun x => x.any fun y => y.id = o.id) s.orders.slots
    | [] => none

/-- The tanks that the numbers name: the source, and the destination of a TRANSFER (R112). -/
def namedTanks (n : OrdrNumbers) : List Nat := n.tank :: n.dest.toList

/-- A tank is out of gauge: WITHDRAWN or UNMAPPED (R112, test 3). -/
def outOfGauge (s : State) (t : Nat) : Bool := !((tankRec s t).any fun r => gaugeInUse r.gauge)

/-- The tests of R112 that concern the tanks; `none` when they pass. -/
def tankTests (s : State) (n : OrdrNumbers) : Option Oc :=
  if (namedTanks n).any (fun t => (tankData s t).isNone) || n.dest = some n.tank then some .range
  else if n.dest.any fun d => mainOf s d != mainOf s n.tank then some .route
  else if (namedTanks n).any (outOfGauge s) then some .noGauge
  else if (namedTanks n).any fun t => !(ordersOn s t).isEmpty then some .conflict
  else if !n.manual && (namedTanks n).any (heldBy s.orders.windows) then some .held
  else none

/-- The derived fields of an order (R113, R114). -/
structure Derived where
  level : Nat
  clamped : Bool
  startMass : Nat
  toMove : Nat
  endSource : Nat
  endDest : Option Nat
  deriving DecidableEq, Repr

/-- A level clamped into a tank's min and max levels (R113). -/
def clampLevel (d : TankData) (level : Int) : Nat := (saturate d.minLevel d.maxLevel level).toNat

/-- The clamped target lies on the side of the current level that the action needs (R113). -/
def targetAhead (a : Action) (target current : Nat) : Bool :=
  match a with
  | .fill => current < target
  | .discharge | .transfer => target < current

/-- The mass to move to a target mass (R113). -/
def toMoveOf (a : Action) (start target : Nat) : Nat :=
  match a with
  | .fill => target - start
  | .discharge | .transfer => start - target

/-- The fields derived from a clamped target level (R113). -/
def deriveAt (a : Action) (d : TankData) (r : Tank) (dest : Option Tank) (level : Nat) (clamped : Bool) : Derived :=
  let target := massAt d.points level r.density
  let move := toMoveOf a r.mass target
  { level := level, clamped := clamped, startMass := r.mass, toMove := move, endSource := target, endDest := dest.map fun x => x.mass + move }

/-- The target level as given (R113). -/
def givenLevel (d : TankData) (r : Tank) : Target → Int
  | .level l => l
  | .mass m => levelFor d r.density m

/-- The room of a destination (R114). -/
def roomOf (d : TankData) (r : Tank) : Nat := massAt d.points d.maxLevel r.density - r.mass

/-- The source target raised so that the moved ballast fits the room (R114). -/
def raiseTarget (d : TankData) (r : Tank) (dest : Tank) (room : Nat) : Option Derived :=
  let level := clampLevel d (levelFor d r.density ((r.mass : Int) - room))
  if level < r.level then some (deriveAt .transfer d r (some dest) level true) else none

/-- The derivation of R113 and R114; `none` is RANGE. -/
def derive (a : Action) (d : TankData) (r : Tank) (dest : Option (TankData × Tank)) (g : Target) : Option Derived :=
  let given := givenLevel d r g
  let level := clampLevel d given
  if !targetAhead a level r.level then none
  else
    let x := deriveAt a d r (dest.map Prod.snd) level (decide ((level : Int) ≠ given))
    match dest with
    | none => some x
    | some (dd, dr) => if roomOf dd dr < x.toMove then raiseTarget d r dr (roomOf dd dr) else some x

/-- The data and record of a tank. -/
def tankBoth (s : State) (t : Nat) : Option (TankData × Tank) :=
  match tankData s t, tankRec s t with
  | some d, some r => some (d, r)
  | _, _ => none

/-- The order record as it enters admission (R109, R115). -/
def newOrder (n : OrdrNumbers) (g : Target) (x : Derived) (slot : Nat) : Order where
  id := n.id
  tank := n.tank
  action := n.action
  dest := n.dest
  target := g
  priority := n.priority
  retries := n.retries
  manual := n.manual
  targetLevel := x.level
  startMass := x.startMass
  toMove := x.toMove
  endSource := x.endSource
  endDest := x.endDest
  direction := none
  state := .admitting
  reason := none
  attempts := 0
  pumps := []
  rank := 0
  admitted := none
  started := none
  ended := none
  moved := 0
  progress := if x.toMove = 0 then 100 else 0
  stall := none
  gaugeLost := false
  slot := some slot
  clamped := x.clamped

/-- What the tests of R111 to R114 make of an ORDR: an outcome that refuses it, or the order with its table slot. -/
def ordrTests (s : State) (k : Nat) (f : OrdrFields) : Oc ⊕ (Nat × Order) :=
  if !ordrShape f then .inl .format
  else match ordrNumbers f, targetOf f with
    | some n, some g =>
      if (orderById s n.id).isSome then .inl .conflict
      else match orderSlot s with
        | none => .inl .full
        | some i =>
          match tankTests s n with
          | some oc => .inl oc
          | none =>
            match tankBoth s n.tank with
            | none => .inl .range
            | some (d, r) =>
              match derive n.action d r (n.dest.bind (tankBoth s)) g with
              | none => .inl .range
              | some x => .inr (i, newOrder n g x k)
    | _, _ => .inl .range

/-- The admission preview's entry (R73, R115). -/
def admissionEntry (o : Order) : PreviewEntry := { requester := .order o.id, overrides := endOverrides o }

/-- The order is written in its slot and its preview is asked for (R115). -/
def enterAdmission (s : State) (k i : Nat) (o : Order) : State :=
  let s := setOrders s { s.orders with slots := modAt s.orders.slots i fun _ => some o }
  placePreview (hold s .console k) (admissionEntry o)

/-- ORDR (R111 to R115). -/
def ordr (k : Nat) (f : OrdrFields) (s : State) : State :=
  match ordrTests s k f with
  | .inl oc => refuse s .console k oc
  | .inr (i, o) => if hasRoom s (admissionEntry o) then enterAdmission s k i o else refuse s .console k .busy

/-- ORDR (R21, R111). -/
def execOrdr (slot : Nat) (s : State) : Result :=
  serve .console slot s fun r s =>
    match r with
    | .ordr f => whenAdmitted inCallOnly .console slot s (ordr slot f)
    | _ => s

/-! ### The stall window -/

/-- The movement since the baseline (R123). -/
def movement (o : Order) (baseline level : Nat) : Int :=
  match o.action with
  | .fill => (level : Int) - baseline
  | .discharge | .transfer => (baseline : Int) - level

/-- An ACTIVE order's stall window expires (R123). -/
def stallExpired (id : Nat) (s : State) : State :=
  match orderById s id with
  | none => s
  | some o =>
    match o.stall with
    | none => s
    | some w =>
      if o.state = .active && due (some w.expiry) (now s) then
        if movement o w.baseline (levelOf s o.tank) < s.settings.sm then
          settleArbiter (badEvent (stopOrder s id .stall) o.tank)
        else modOrder s id fun x => { x with stall := some (freshStall s o) }
      else s

/-- STALL_WINDOW_EXPIRY (R123). -/
def execStallWindowExpiry (order : Nat) (s : State) : Result := event s (stallExpired order)

/-! ### OCAN, OREL, OQRY -/

/-- The order an OI names (R130, R131). -/
def orderNamed (s : State) (oi : Int) : Option Order :=
  match natIn 1 255 oi with
  | some id => orderById s id
  | none => none

/-- The state of an order as a reply field (R130). -/
def orderStateField (s : State) (id : Nat) : List (Field × Val) :=
  match orderById s id with
  | some o => [rvNum (orderStateCode o.state)]
  | none => []

/-- OCAN (R130). An order cancelled at once holds the reason CANCEL that ended it (R110). -/
def ocan (k : Nat) (oi : Int) (s : State) : State :=
  match orderNamed s oi with
  | none => refuse s .console k .range
  | some o =>
    match o.state with
    | .queued | .suspended =>
      let s := moveOrder s o.id fun o => { o with state := .cancelled, reason := some .cancel, ended := some (now s) }
      reply s .console k .ok (orderStateField s o.id)
    | .lineup | .starting | .active =>
      let s := settleArbiter (stopOrder s o.id .cancel)
      reply s .console k .ok (orderStateField s o.id)
    | .admitting | .stopping | .done | .failed | .cancelled => refuse s .console k .state

/-- OCAN (R21, R130). -/
def execOcan (slot : Nat) (s : State) : Result :=
  serve .console slot s fun r s =>
    match r with
    | .ocan oi => whenAdmitted inCallOnly .console slot s (ocan slot oi)
    | _ => s

/-- OREL (R131). -/
def orel (k : Nat) (oi : Int) (s : State) : State :=
  match orderNamed s oi with
  | none => refuse s .console k .range
  | some o =>
    if terminalState o.state then
      reply (setOrders s { s.orders with slots := s.orders.slots.map fun x => if x.any fun y => y.id = o.id then none else x }) .console k .ok []
    else refuse s .console k .state

/-- OREL (R21, R131). -/
def execOrel (slot : Nat) (s : State) : Result :=
  serve .console slot s fun r s =>
    match r with
    | .orel oi => whenAdmitted inCallOnly .console slot s (orel slot oi)
    | _ => s

/-- A target as given: one value, whether level or mass (R109; log 18). -/
def targetValue : Target → Int
  | .level l => l
  | .mass m => m

/-- An order's record in the order of R109, ABSENT for the fields that hold no value; an order that holds no pump carries no pump element, and the end masses are two values, the second ABSENT but for a TRANSFER (R131; log 18). -/
def orderFields (o : Order) : List (Field × Val) :=
  [rvNum o.id, rvNum o.tank, rvNum (actionCode o.action), rv (valNat o.dest), rvNum (targetValue o.target),
    rvNum o.priority, rvNum o.retries, rvNum (boolCode o.manual), rvNum o.targetLevel, rvNum o.startMass, rvNum o.toMove,
    rvNum o.endSource, rv (valNat o.endDest), rv (valOr (o.direction.map directionCode)), rvNum (orderStateCode o.state),
    rv (valOr (o.reason.map reasonCode)), rvNum o.attempts]
    ++ o.pumps.map (fun n : Nat => rvNum n)
    ++ [rv (if o.rank = 0 then .absent else .num o.rank), rv (valNat o.admitted), rv (valNat o.started), rv (valNat o.ended), rvNum o.moved, rvNum o.progress,
      rv (valNat (o.stall.map Stall.expiry)), rv (valNat (o.stall.map Stall.baseline)), rvNum (boolCode o.gaugeLost)]

/-- An occupied slot in the list of OQRY (R131; log 18). -/
def orderLine (o : Order) : List (Field × Val) :=
  [rvNum o.id, rvNum (orderStateCode o.state), rv (valOr (o.reason.map reasonCode))]

/-- OQRY (R131). -/
def oqry (k : Nat) (oi : Option Int) (s : State) : State :=
  match oi with
  | none => reply s .console k .ok ((ordersList s).flatMap orderLine)
  | some x =>
    match orderNamed s x with
    | some o => reply s .console k .ok (orderFields o)
    | none => refuse s .console k .range

/-- OQRY (R131). -/
def execOqry (slot : Nat) (s : State) : Result :=
  serve .console slot s fun r s =>
    match r with
    | .oqry oi => oqry slot oi s
    | _ => s

/-! ### HWIN -/

/-- The number of declared tanks that windows hold (R132). -/
def heldCount (s : State) (ws : List Window) : Nat := ((upTo s.tanks.length).filter (heldBy ws)).length

/-- A window with the present fields replaced (R133). -/
def windowWith (wv : Option Bool) (wb wm : Option Nat) (w : Window) : Window :=
  { valid := wv.getD w.valid, base := wb.getD w.base, mask := wm.getD w.mask }

/-- The parts of a window that HWIN names; `none` is RANGE (R133, test 2; log 11). -/
def hwinParts (wn : Int) (wv wb wm : Option Int) : Option (Nat × Option Bool × Option Nat × Option Nat) :=
  match natUpTo 3 wn, inRangeIfPresent 23 wb, inRangeIfPresent 31 wm with
  | some n, some b, some m => some (n, wv.map flagOf, b, m)
  | _, _, _ => none

/-- The held flags mirror the windows (R132). -/
def mirrorHeld (ws : List Window) : Nat → List Tank → List Tank
  | _, [] => []
  | t, r :: rs => { r with held := heldBy ws t } :: mirrorHeld ws (t + 1) rs

/-- A tank the order needs is held now and was not before (R129). -/
def newlyHeld (before after : List Window) (o : Order) : Bool :=
  (o.tank :: o.dest.toList).any fun t => heldBy after t && !heldBy before t

/-- A suspended order after a change of the windows: HULL and PREEMPTED may become HELD, HELD may return (R129). -/
def windowsChangedFor (before : List Window) (s : State) (id : Nat) : State :=
  match orderById s id with
  | none => s
  | some o =>
    match o.reason with
    | some .hull | some .preempted =>
      if !o.manual && newlyHeld before s.orders.windows o then modOrder s id fun o => { o with reason := some .held } else s
    | some .held =>
      if (o.tank :: o.dest.toList).any (heldBy s.orders.windows) then s else queueOrder s id fun o => o
    | _ => s

/-- The set of held tanks has changed (R133). -/
def heldSetChanged (s : State) (before after : List Window) : Bool :=
  (upTo s.tanks.length).any fun t => heldBy before t != heldBy after t

/-- The windows as they are set, with all that follows (R129, R132, R133). -/
def setWindows (s : State) (ws : List Window) : State :=
  let before := s.orders.windows
  let s := setTanks (setOrders s { s.orders with windows := ws }) (mirrorHeld ws 0 s.tanks)
  let ids := ((ordersList s).filter fun o => o.state = .suspended).map Order.id
  let s := ids.foldl (windowsChangedFor before) s
  settleArbiter (if heldSetChanged s before ws then callArbiter s else s)

/-- The four windows, each with its valid flag, base and mask, and the number of tanks held (R132, R133; log 18). -/
def windowFields (s : State) : List (Field × Val) :=
  (s.orders.windows.flatMap fun w => [rvNum (boolCode w.valid), rvNum w.base, rvNum w.mask])
    ++ [rvNum (heldCount s s.orders.windows)]

/-- HWIN (R133). -/
def hwin (k : Nat) (wn : Int) (wv wb wm : Option Int) (s : State) : State :=
  match hwinParts wn wv wb wm with
  | none => refuse s .console k .range
  | some (n, v, b, m) =>
    let ws := modAt s.orders.windows n (windowWith v b m)
    if Config.heldMax < heldCount s ws then refuse s .console k .limit
    else
      let s := setWindows s ws
      reply s .console k .ok (windowFields s)

/-- HWIN (R21, R133). -/
def execHwin (slot : Nat) (s : State) : Result :=
  serve .console slot s fun r s =>
    match r with
    | .hwin wn wv wb wm => whenAdmitted inCallOnly .console slot s (hwin slot wn wv wb wm)
    | _ => s

end Sys2Proof.Machine
end

