-- ==== Sys2Proof/Machine/ExecPlant.lean ====
section
/-! DEFINITION. Meanings of the plant commands: VALVE_LIMIT_CHANGE, STROKE_TIMER_EXPIRY, PRESSURE_PROVEN_CHANGE, PUMP_RUNNING_FEEDBACK_CHANGE, PROVE_TIMER_EXPIRY, PUMP_STOP_TIMER_EXPIRY, PRST, XOVR, GANG (R85 to R106). -/

namespace Sys2Proof.Machine

/-! ### Input changes -/

/-- A line takes a debounced level (R85). -/
def setLine (s : State) (i : Nat) (x : Bool) : State :=
  setPlant s { s.plant with lines := modAt s.plant.lines i (InputLine.settledAt x) }

/-- What the controller does with an input change of a valve's limit (R88). -/
def limitEvent (v : Nat) (l : Limit) (x : Bool) (s : State) : State := changeValve s v (limitChanged l x)

/-- A RUNNING pump whose running feedback becomes absent has tripped (R97). -/
def tripPump (s : State) (n : Nat) : State :=
  let id := (pumpRec s n).bind Pump.holder
  let s := stopPump s n
  match id with
  | some id => failAttempt s id .trip
  | none => s

/-- A STOPPING pump whose running feedback becomes absent is STOPPED (R99). -/
def stoppedPump (s : State) (n : Nat) : State :=
  let id := (pumpRec s n).bind Pump.holder
  let s := stopPump s n
  match id with
  | some id => checkRelease s id
  | none => s

/-- What the controller does with an input change of a pump's running feedback (R90, R94, R97, R99). -/
def runningEvent (n : Nat) (x : Bool) (s : State) : State :=
  if x then checkProven s n
  else match pumpState s n with
    | .running => tripPump s n
    | .stopping => stoppedPump s n
    | .stopped => if available s n then pumpNotice s else s
    | .priming | .withdrawn => s

/-- What the controller does with an input change of a pump's pressure-proven feedback (R94). -/
def provenEvent (n : Nat) (x : Bool) (s : State) : State := if x then checkProven s n else s

/-- A debounced change of a line: none where the line already has the level (log 1). -/
def lineChange (i : Nat) (x : Bool) (act : State → State) (s : State) : State :=
  if i < s.plant.lines.length && lineOn s.plant i != x then settleArbiter (act (setLine s i x)) else s

/-- VALVE_LIMIT_CHANGE (R88). -/
def execValveLimitChange (v : Nat) (l : Limit) (present : Bool) (s : State) : Result :=
  event s fun s => if v ≤ xv then lineChange (limitLine v l) present (limitEvent v l present) s else s

/-- The pumps are 1 to 4 (R90). -/
def isPump (n : Nat) : Bool := 1 ≤ n && n ≤ 4

/-- PRESSURE_PROVEN_CHANGE (R94). -/
def execPressureProvenChange (pump : Nat) (present : Bool) (s : State) : Result :=
  event s fun s => if isPump pump then lineChange (provenLine pump) present (provenEvent pump present) s else s

/-- PUMP_RUNNING_FEEDBACK_CHANGE (R97). -/
def execPumpRunningFeedbackChange (pump : Nat) (present : Bool) (s : State) : Result :=
  event s fun s => if isPump pump then lineChange (runningLine pump) present (runningEvent pump present) s else s

/-! ### Timers -/

/-- A stroke timer expires: OPENING and CLOSING become FAULT (R88). -/
def strokeExpired (v : Nat) (s : State) : State :=
  if due ((s.plant.valves[v]?).bind Valve.stroke) (now s) then
    settleArbiter (changeValve s v fun x =>
      if x.state = .opening || x.state = .closing then { x with state := .fault, stroke := none } else { x with stroke := none })
  else s

/-- STROKE_TIMER_EXPIRY (R88). -/
def execStrokeTimerExpiry (v : Nat) (s : State) : Result := event s (strokeExpired v)

/-- A pump still PRIMING adds 1 to its failure count (R95). -/
def countFailure (s : State) (n : Nat) : State :=
  if pumpState s n = .priming then modPumpS s n fun x => { x with failures := x.failures + 1 } else s

/-- A prove timer expires (R95). -/
def proveExpired (id : Nat) (s : State) : State :=
  match attemptOf s.plant id with
  | some a =>
    if due a.prove (now s) then settleArbiter (failAttempt (a.pumps.foldl countFailure s) id .startFail) else s
  | none => s

/-- PROVE_TIMER_EXPIRY (R95). -/
def execProveTimerExpiry (order : Nat) (s : State) : Result := event s (proveExpired order)

/-- A stop timer expires: a STOPPING pump has failed to stop and becomes WITHDRAWN (R99). -/
def stopExpired (n : Nat) (s : State) : State :=
  match pumpRec s n with
  | some p =>
    if p.state = .stopping && due p.stopTimer (now s) then
      let s := withdrawPump s n
      settleArbiter (match p.holder with
        | some id => checkRelease s id
        | none => s)
    else s
  | none => s

/-- PUMP_STOP_TIMER_EXPIRY (R99). -/
def execPumpStopTimerExpiry (pump : Nat) (s : State) : Result := event s (stopExpired pump)

/-! ### Requests -/

/-- A reply to PRST, XOVR or GANG, a refusal as much as an OK: it carries the plant view (R100, R103, R105, R106). -/
def replyPlant (s : State) (k : Nat) (oc : Oc) : State := reply s .console k oc (plantView s)

/-- A plant request is taken with a profile in force, and else refused with STATE by the controller that owns it (R21); this reply too carries the plant view (R106; log 49). -/
def whenPlantAdmitted (k : Nat) (s : State) (act : State → State) : State := if withProfile s.call then act s else replyPlant s k .state

/-- A pump returned to use, with its pump-available notice (R100). The arbiter's run comes before the reply's plant view (R106; log 40). -/
def restorePump (s : State) (n : Nat) : State :=
  settleArbiter (pumpNotice (modPumpS s n fun x => { x with state := .stopped, failures := 0 }))

/-- PRST (R100). Its refusals carry the plant view as its OK does (R106). -/
def prst (k : Nat) (pu : Int) (s : State) : State :=
  match natIn 1 4 pu with
  | none => replyPlant s k .range
  | some n =>
    if pumpState s n != .withdrawn then replyPlant s k .state
    else if runningOn s.plant n then replyPlant s k .state
    else replyPlant (restorePump s n) k .ok

/-- PRST (R21, R100). -/
def execPrst (slot : Nat) (s : State) : Result :=
  serve .console slot s fun r s =>
    match r with
    | .prst pu => whenPlantAdmitted slot s (prst slot pu)
    | _ => s

/-- The target an XM names (R103). -/
def targetNamed (xm : Int) : Option CrossTarget := if xm = 0 then some .straight else if xm = 1 then some .crossed else none

/-- A change of crossover begins (R103). The arbiter's run that a stroke completed at once calls for comes before the reply's plant view (R106; log 40). -/
def beginCrossover (s : State) (t : CrossTarget) : State :=
  settleArbiter (commandXv (setPlant s { s.plant with crossMode := .changing, crossTarget := t }) t)

/-- XOVR (R103). Its refusals carry the plant view as its OK does (R106). -/
def xovr (k : Nat) (xm : Option Int) (s : State) : State :=
  match xm with
  | none => replyPlant s k .ok
  | some x =>
    match targetNamed x with
    | none => replyPlant s k .range
    | some t =>
      if s.plant.crossMode = .changing then replyPlant s k .busy
      else if !([1, 2, 3, 4].all (pumpFree s)) then replyPlant s k .busy
      else if s.plant.crossMode = targetMode t then replyPlant s k .ok
      else replyPlant (beginCrossover s t) k .ok

/-- XOVR (R21, R103). -/
def execXovr (slot : Nat) (s : State) : Result :=
  serve .console slot s fun r s =>
    match r with
    | .xovr xm => whenPlantAdmitted slot s (xovr slot xm)
    | _ => s

/-- The group a GA names (R105). -/
def groupNamed (ga : Int) : Option Group := if ga = 0 then some .a else if ga = 1 then some .b else none

/-- A flag given as 0 or 1 (R195). -/
def binary (x : Int) : Option Bool := if x = 0 then some false else if x = 1 then some true else none

/-- The plant with another gang mode of a group (R105). -/
def setGang (p : Plant) (g : Group) (x : Bool) : Plant :=
  match g with
  | .a => { p with gangedA := x }
  | .b => { p with gangedB := x }

/-- GANG (R105). The arbiter's run that the change calls for comes before the reply's plant view (R106; log 40). -/
def gang (k : Nat) (ga gm : Int) (s : State) : State :=
  match groupNamed ga, binary gm with
  | some g, some x =>
    if !(groupPumps g).all (pumpFree s) then replyPlant s k .busy
    else if ganged s.plant g = x then replyPlant s k .ok
    else replyPlant (settleArbiter (pumpNotice (setPlant s (setGang s.plant g x)))) k .ok
  | _, _ => replyPlant s k .range

/-- GANG (R21, R105). -/
def execGang (slot : Nat) (s : State) : Result :=
  serve .console slot s fun r s =>
    match r with
    | .gang ga gm => whenPlantAdmitted slot s (gang slot ga gm)
    | _ => s

/-! ### The chain's refresh (R85) -/

/-- What the controller does with an input change of line `i` (R84). -/
def lineEvent (i : Nat) (x : Bool) (s : State) : State :=
  if i < 4 then runningEvent (i + 1) x s
  else if i < 8 then provenEvent (i - 3) x s
  else if i < 37 then limitEvent (i - 8) .openLimit x s
  else limitEvent (i - 37) .closedLimit x s

/-- One line sampled; its input change is dealt with whole, the arbiter runs that it calls for included, before the next line is sampled (R85, R116; log 3). -/
def sampleLine (s : State) (i : Nat) : State :=
  match s.plant.lines[i]? with
  | none => s
  | some l =>
    let l' := l.sample s.settings.db
    let s := setPlant s { s.plant with lines := modAt s.plant.lines i fun _ => l' }
    if l'.debounced = l.debounced then s else settleArbiter (lineEvent i l'.debounced s)

/-- One refresh of the chain: every input line is sampled, in chain order (R85; log 3). -/
def refreshChain (s : State) : State := (upTo 66).foldl sampleLine s

end Sys2Proof.Machine
end

