-- ==== Sys2Proof/Machine/ExecPour.lean ====
section
/-! DEFINITION. Meanings of the pour commands: PLAN, PCLR, HCOR, SREQ, HOLD_TIMER_EXPIRY, SFRC, SSKP, SCAN, TALY, SFIN, SETTLE_TIMER_EXPIRY, LSTP (R134 to R156). -/

namespace Sys2Proof.Machine

/-! ### The plan -/

/-- The last step number, 0 for an empty plan (R134). -/
def lastStep (s : State) : Nat := s.pour.plan.length

/-- A step as PLAN writes it (R134). -/
def Step.planned_ (number hold planned : Nat) (companions : List Companion) (period : Option Nat) : Step where
  number := number
  hold := hold
  planned := planned
  companions := companions
  holdPeriod := period
  state := .planned
  waitReason := none
  replyPending := none
  base := none
  lastTally := none
  tallyAtHalt := none
  haltCause := none
  overshootMark := false
  overshootAccepted := false
  runOnRaised := false
  loaderStopped := false
  final := none
  grantTime := none
  endTime := none
  reportSerial := none
  holdTimer := none
  settleTimer := none

/-- The declared hold a field names (R135, R139). -/
def holdNamed (s : State) (hd : Int) : Option Nat :=
  match natIn 1 9 hd with
  | some h => if (holdData s h).isSome then some h else none
  | none => none

/-- Companion ids are not 0 and required progress is at most 100 (R135, test 3). -/
def companionsOk (cp : List Companion) : Bool := cp.all fun c => c.order != 0 && c.required ≤ 100

/-- Two companions name the same order (R135, test 4). -/
def companionsClash : List Companion → Bool
  | [] => false
  | c :: cs => cs.any (fun d => d.order = c.order) || companionsClash cs

/-- A hold period code where it is present (R135, test 3). -/
def periodNamed (hc : Option Int) : Option (Option Nat) :=
  match hc with
  | none => some none
  | some x => (natIn 1 3 x).map some

/-- A step record as reply fields, in the order of R134; a companion is two values, its order id and its required progress (R135; log 18). -/
def stepFields (st : Step) : List (Field × Val) :=
  [rvNum st.number, rvNum st.hold, rvNum st.planned]
    ++ st.companions.flatMap (fun c => [rvNum c.order, rvNum c.required])
    ++ [rv (valNat st.holdPeriod), rvNum (stepCode st.state), rv (valOr (st.waitReason.map waitCode)), rv (valNat st.replyPending),
      rv (valNat st.base), rv (valNat st.lastTally), rv (valNat st.tallyAtHalt), rv (valOr (st.haltCause.map haltCode)),
      rvNum (boolCode st.overshootMark), rvNum (boolCode st.overshootAccepted), rvNum (boolCode st.runOnRaised), rvNum (boolCode st.loaderStopped),
      rv (valNat st.final), rv (valNat st.grantTime), rv (valNat st.endTime), rv (valNat st.reportSerial), rv (valNat st.holdTimer),
      rv (valNat st.settleTimer)]

/-- What the tests of R135 make of a PLAN: an outcome that refuses it, or the step to write. -/
def planTests (s : State) (st hd pt : Int) (cp : List Companion) (hc : Option Int) : Oc ⊕ Step :=
  if 4 < cp.length then .inl .format
  else match natIn 1 48 st, holdNamed s hd, natIn 1 60000 pt, periodNamed hc with
    | some n, some h, some p, some c =>
      if !companionsOk cp then .inl .range
      else if companionsClash cp then .inl .conflict
      else if ((holdData s h).map HoldData.capacity).getD 0 < p then .inl .limit
      else if lastStep s + 1 < n then .inl .sequence
      else if (stepByNumber s n).any fun x => x.state != .planned then .inl .state
      else .inr (Step.planned_ n h p cp c)
    | _, _, _, _ => .inl .range

/-- A step appended, or the PLANNED step of its number replaced whole (R135). -/
def writeStep (s : State) (x : Step) : State :=
  if x.number ≤ lastStep s then modStep s x.number fun _ => x
  else setPour s { s.pour with plan := s.pour.plan ++ [x] }

/-- PLAN (R135). -/
def plan (k : Nat) (st hd pt : Int) (cp : List Companion) (hc : Option Int) (s : State) : State :=
  match planTests s st hd pt cp hc with
  | .inl oc => refuse s .console k oc
  | .inr x => reply (writeStep s x) .console k .ok (stepFields x)

/-- PLAN (R21, R135). -/
def execPlan (slot : Nat) (s : State) : Result :=
  serve .console slot s fun r s =>
    match r with
    | .plan st hd pt cp hc => whenAdmitted inCallOnly .console slot s (plan slot st hd pt cp hc)
    | _ => s

/-- The plan without its longest run of PLANNED steps at the end (R136). -/
def withoutPlannedTail (xs : List Step) : List Step := (xs.reverse.dropWhile fun x => x.state = .planned).reverse

/-- The plan cut to a new last (R136). -/
def cutPlan (s : State) (xs : List Step) : State := setPour s { s.pour with plan := xs }

/-- The new last of a cut plan, in the reply to PCLR (R136; log 18). -/
def lastFields (s : State) : List (Field × Val) := [rvNum (lastStep s)]

/-- PCLR (R136). -/
def pclr (k : Nat) (st : Option Int) (s : State) : State :=
  match st with
  | none =>
    let s := cutPlan s (withoutPlannedTail s.pour.plan)
    reply s .console k .ok (lastFields s)
  | some x =>
    match natIn 1 (lastStep s) x with
    | none => refuse s .console k .range
    | some n =>
      if (s.pour.plan.drop (n - 1)).all fun x => x.state = .planned then
        let s := cutPlan s (s.pour.plan.take (n - 1))
        reply s .console k .ok (lastFields s)
      else refuse s .console k .state

/-- PCLR (R21, R136). -/
def execPclr (slot : Nat) (s : State) : Result :=
  serve .console slot s fun r s =>
    match r with
    | .pclr st => whenAdmitted inCallOnly .console slot s (pclr slot st)
    | _ => s

/-! ### HCOR -/

/-- A tally as reply fields. -/
def tallyFields (t : Option Tally) : List (Field × Val) := [rv (valNat (t.map Tally.tonnes)), rv (valNat (t.map Tally.arrival))]

/-- A hold record as reply fields, in the order of R138 (R139; log 18). -/
def holdFields (s : State) (h : Nat) : List (Field × Val) :=
  match holdRec s h with
  | some r =>
    [rvNum r.mass, rvNum (holdSourceCode r.source)] ++ tallyFields r.latest ++ tallyFields r.previous
      ++ [rv (valNat r.estimate)]
  | none => []

/-- The current step pours into the hold: POURING, HALTED or SETTLING (R139). -/
def holdInUse (s : State) (h : Nat) : Bool :=
  (currentStep s).any fun st => st.hold = h && (stepPours st || st.state = .settling)

/-- HCOR (R139). -/
def hcor (k : Nat) (hd ms : Int) (s : State) : State :=
  match holdNamed s hd, natUpTo 2000000 ms with
  | some h, some m =>
    if holdInUse s h then refuse s .console k .state
    else
      let s := liveRequest (modHold s h fun r => { r with mass := m, source := .corrected, estimate := none }) false
      reply s .console k .ok (holdFields s h)
  | _, _ => refuse s .console k .range

/-- HCOR (R21, R139). -/
def execHcor (slot : Nat) (s : State) : Result :=
  serve .console slot s fun r s =>
    match r with
    | .hcor hd ms => whenAdmitted inCallOnly .console slot s (hcor slot hd ms)
    | _ => s

/-! ### Asking leave -/

/-- The current step, where a field names it (R140, R147, R148, R154, R156). -/
def currentNamed (s : State) (st : Int) : Option Step := (currentStep s).filter fun x => (x.number : Int) = st

/-- The state of a step as reply fields. -/
def stateFields (s : State) (n : Nat) : List (Field × Val) :=
  match stepByNumber s n with
  | some st => [(.ST, .num n), (.SS, .num (stepCode st.state))]
  | none => []

/-- SREQ (R140 to R143). -/
def sreq (k : Nat) (st : Int) (s : State) : State :=
  match currentNamed s st with
  | none => refuse s .terminal k .sequence
  | some x =>
    if x.state != .planned && x.state != .blocked then refuse s .terminal k .state
    else match firstUnmet s x with
      | some r => startWaiting s x k r
      | none => enterEvaluating (hold s .terminal k) x (some k)

/-- SREQ (R21, R140). -/
def execSreq (slot : Nat) (s : State) : Result :=
  serve .terminal slot s fun r s =>
    match r with
    | .sreq st => whenAdmitted inCallOnly .terminal slot s (sreq slot st)
    | _ => s

/-- The gate preview FOR a step becomes DISCARD (R146, R147). -/
def discardPreviewFor (s : State) (n : Nat) : State :=
  if s.pour.preview = .forStep n then setPour s { s.pour with preview := .discard } else s

/-- A hold timer expires (R146). -/
def holdExpired (n : Nat) (s : State) : State :=
  match stepByNumber s n with
  | none => s
  | some st =>
    if (st.state = .waiting || st.state = .evaluating) && due st.holdTimer (now s) then
      discardPreviewFor (blockStep s st rnTimeout) n
    else s

/-- HOLD_TIMER_EXPIRY (R146). -/
def execHoldTimerExpiry (step : Nat) (s : State) : Result := event s (holdExpired step)

/-- The state of a step, in the reply to SFRC (R147; log 18). -/
def forcedFields (s : State) (n : Nat) : List (Field × Val) :=
  match stepByNumber s n with
  | some st => [rvNum (stepCode st.state)]
  | none => []

/-- SFRC (R147). -/
def sfrc (k : Nat) (st : Int) (s : State) : State :=
  match currentNamed s st with
  | none => refuse s .console k .sequence
  | some x =>
    match x.state with
    | .planned | .waiting | .blocked | .evaluating =>
      if !reportMet s then refuse s .console k .busy
      else if !hullMet s then refuse s .console k .limit
      else
        let s := grant (discardPreviewFor s x.number) x
        reply s .console k .ok (forcedFields s x.number)
    | .halted =>
      if !hullMet s then refuse s .console k .limit
      else
        let s := modStep s x.number fun y => { y with overshootMark := false, overshootAccepted := true }
        let s := resume s x
        reply s .console k .ok (forcedFields s x.number)
    | .pouring | .settling | .reporting | .done | .skipped => refuse s .console k .state

/-- SFRC (R21, R147). -/
def execSfrc (slot : Nat) (s : State) : Result :=
  serve .console slot s fun r s =>
    match r with
    | .sfrc st => whenAdmitted inCallOnly .console slot s (sfrc slot st)
    | _ => s

/-- A step becomes SKIPPED; WAITING and BLOCKED send BLKD (R148). -/
def skipStep (s : State) (x : Step) : State :=
  let s := modStep s x.number fun y => { y with state := .skipped, holdTimer := none }
  if x.state = .planned then s else handTerminal s (.blkd x.number rnSkipped)

/-- SSKP (R148). -/
def sskp (k : Nat) (st : Int) (s : State) : State :=
  match natIn 1 (lastStep s) st with
  | none => refuse s .console k .range
  | some n =>
    match stepByNumber s n with
    | none => refuse s .console k .range
    | some x =>
      if x.state = .planned || x.state = .waiting || x.state = .blocked then reply (skipStep s x) .console k .ok []
      else refuse s .console k .state

/-- SSKP (R21, R148). -/
def execSskp (slot : Nat) (s : State) : Result :=
  serve .console slot s fun r s =>
    match r with
    | .sskp st => whenAdmitted inCallOnly .console slot s (sskp slot st)
    | _ => s

/-- SCAN withdraws the terminal's request (R148). -/
def scan (k : Nat) (st : Int) (s : State) : State :=
  match currentNamed s st with
  | none => refuse s .terminal k .sequence
  | some x =>
    if x.state = .waiting || x.state = .blocked then
      let s := modStep s x.number fun y => { y with state := .planned, holdTimer := none }
      reply s .terminal k .ok (stateFields s x.number)
    else refuse s .terminal k .state

/-- SCAN (R21, R148). -/
def execScan (slot : Nat) (s : State) : Result :=
  serve .terminal slot s fun r s =>
    match r with
    | .scan st => whenAdmitted inCallOnly .terminal slot s (scan slot st)
    | _ => s

/-! ### Pouring -/

/-- The step and its hold after an accepted tally (R150; log 22). -/
def recordTally (s : State) (st : Step) (ty : Nat) : State :=
  let s := modStep s st.number fun x => { x with lastTally := some ty }
  modHold s st.hold fun h => { h with
    mass := st.base.getD 0 + ty, source := .tally, previous := h.latest, latest := some { tonnes := ty, arrival := now s }, estimate := none }

/-- TALY (R150, R151, R161). Its reply is composed last, after the GRNT of a step that the change to UP resumes and the HALT of its tests (log 34). -/
def taly (k : Nat) (hd ty : Int) (s : State) : State :=
  match natUpTo 2000000 ty with
  | none => refuse s .terminal k .range
  | some n =>
    match (currentStep s).filter stepPours with
    | none => refuse s .terminal k .state
    | some st =>
      if (st.hold : Int) != hd then refuse s .terminal k .sequence
      else
        let s := liveRequest (recordTally s st n) false
        let s := tallyTests (tallyAccepted s) n
        reply s .terminal k .ok [(.HD, .num st.hold), (.MS, .num (((holdRec s st.hold).map Hold.mass).getD 0 : Nat))]

/-- TALY (R21, R150). -/
def execTaly (slot : Nat) (s : State) : Result :=
  serve .terminal slot s fun r s =>
    match r with
    | .taly hd ty => whenAdmitted inCallOnly .terminal slot s (taly slot hd ty)
    | _ => s

/-- The step and its hold as SFIN sets them (R154). -/
def recordFinal (s : State) (st : Step) (fn : Nat) : State :=
  let s := modStep s st.number fun x => { x with
    final := some fn, overshootMark := false, haltCause := none, state := .settling, settleTimer := some (expiryAfter s s.settings.si) }
  modHold s st.hold fun h => { h with mass := st.base.getD 0 + fn, source := .tally, estimate := none }

/-- SFIN accepted; an SI of 0 settles in the same event (R154, R155). -/
def finishStep (s : State) (st : Step) (fn : Nat) : State :=
  let s := pouringEnded (liveRequest (recordFinal s st fn) false)
  if s.settings.si = 0 then settled s st.number else s

/-- SFIN (R154). -/
def sfin (k : Nat) (st fn : Int) (s : State) : State :=
  match currentNamed s st with
  | none => refuse s .terminal k .sequence
  | some x =>
    if !stepPours x then refuse s .terminal k .state
    else match natUpTo 2000000 fn with
      | none => refuse s .terminal k .range
      | some n =>
        let s := finishStep s x n
        reply s .terminal k .ok (stateFields s x.number)

/-- SFIN (R21, R154). -/
def execSfin (slot : Nat) (s : State) : Result :=
  serve .terminal slot s fun r s =>
    match r with
    | .sfin st fn => whenAdmitted inCallOnly .terminal slot s (sfin slot st fn)
    | _ => s

/-- A settle timer expires (R155). -/
def settleExpired (n : Nat) (s : State) : State :=
  match stepByNumber s n with
  | some st => if st.state = .settling && due st.settleTimer (now s) then settled s n else s
  | none => s

/-- SETTLE_TIMER_EXPIRY (R155). -/
def execSettleTimerExpiry (step : Nat) (s : State) : Result := event s (settleExpired step)

/-- LSTP (R156). -/
def lstp (k : Nat) (st : Int) (s : State) : State :=
  match currentNamed s st with
  | none => refuse s .terminal k .sequence
  | some x =>
    if x.state = .halted then
      let s := modStep s x.number fun y => { y with loaderStopped := true }
      reply s .terminal k .ok (stateFields s x.number)
    else refuse s .terminal k .state

/-- LSTP (R21, R156). -/
def execLstp (slot : Nat) (s : State) : Result :=
  serve .terminal slot s fun r s =>
    match r with
    | .lstp st => whenAdmitted inCallOnly .terminal slot s (lstp slot st)
    | _ => s

end Sys2Proof.Machine
end

