-- ==== Sys2Proof/Machine/ExecProfile.lean ====
section
/-! DEFINITION. Meanings of the profile commands: POPN, PDAT, PCLS, PROFILE_CHECKS_COMPLETE, NON_VOLATILE_WRITE_COMPLETE (R11 to R14). -/

namespace Sys2Proof.Machine

/-- The validity mark cleared (R11). -/
def clearMark (s : State) : State := setStored s { s.stored with mark := false }

/-- LOADING with a load record (R1). -/
def setLoad (s : State) (r : LoadRecord) : State := setProfile s (.loading r)

/-- An empty open load record, the mark cleared (R11). -/
def openLoad (s : State) : State := clearMark (setLoad s LoadRecord.fresh)

/-- The VALID profile withdrawn and a load opened: call state, tank table, evaluation queue and hull record follow (R11, R17, R47, R72, R83; log 23). -/
def withdrawProfile (s : State) : State :=
  resetHull (abandonEngine (setTanks (setCall (openLoad s) .noProfile) []))

/-- POPN by call state and profile state (R11). -/
def popn (k : Nat) (s : State) : State :=
  match s.profile with
  | .empty => reply (openLoad s) .console k .ok []
  | .loading r => if r.closing.isSome then refuse s .console k .busy else reply (openLoad s) .console k .ok []
  | .valid _ => if s.call = .idle then reply (withdrawProfile s) .console k .ok [] else refuse s .console k .state

/-- POPN (R11). -/
def execPopn (slot : Nat) (s : State) : Result :=
  serve .console slot s fun r s =>
    match r with
    | .popn => popn slot s
    | _ => s

/-- PDAT tested in order (R12). -/
def pdat (k : Nat) (sn : List Byte) (xi : Int) (sd : List Byte) (s : State) : State :=
  match s.profile with
  | .loading r =>
    if r.closing.isSome then refuse s .console k .busy
    else match secOf sn with
      | none => refuse s .console k .format
      | some n =>
        match natIn (indexRange n).1 (indexRange n).2 xi with
        | none => refuse s .console k .range
        | some i =>
          if !sdLengthOk n sd then refuse s .console k .format
          else if (secData r.sections n i).isSome then refuse s .console k .conflict
          else
            let r := r.add { name := n, index := i, data := sd }
            reply (setLoad s r) .console k .ok [(.LL, .num r.byteCount)]
  | _ => refuse s .console k .state

/-- PDAT, dealt with in the order of arrival: `serve` passes over one that is not in its turn (R12). -/
def execPdat (slot : Nat) (s : State) : Result :=
  serve .console slot s fun r s =>
    match r with
    | .pdat sn xi sd => pdat slot sn xi sd s
    | _ => s

/-- PCLS sets the closing flag and its reply waits (R13). -/
def pcls (k : Nat) (cr : Crc32) (s : State) : State :=
  match s.profile with
  | .loading r =>
    if r.closing.isSome then refuse s .console k .busy
    else hold (setLoad s { r with closing := some { slot := k, cr := cr, writing := false } }) .console k
  | _ => refuse s .console k .state

/-- PCLS (R13). -/
def execPcls (slot : Nat) (s : State) : Result :=
  serve .console slot s fun r s =>
    match r with
    | .pcls cr => pcls slot cr s
    | _ => s

/-- The load record discarded, the profile state EMPTY (R13, R14). -/
def failLoad (s : State) : State := setProfile s .empty

/-- The checks at close have ended: PROFILE_CRC, PROFILE, or the write begins (R13). -/
def checksEnd (s : State) : State :=
  match s.profile with
  | .loading r =>
    match r.closing with
    | some c =>
      if c.writing then s
      else if crc32Finish r.crc != c.cr then
        reply (failLoad s) .console c.slot .profileCrc [(.CR, .raw (natBytes 4 (crc32Finish r.crc).toNat))]
      else match firstFailure r.sections with
        | some (n, i) => reply (failLoad s) .console c.slot .profile [(.SN, .raw (secAscii n)), (.XI, .num i)]
        | none => setLoad s { r with closing := some { c with writing := true } }
    | none => s
  | _ => s

/-- PROFILE_CHECKS_COMPLETE (R13). -/
def execProfileChecksComplete (s : State) : Result := event s checksEnd

/-- The profile now in force is announced: IDLE, the tank table at its initial values, the hull record reset (R14, R47, R83). -/
def announceProfile (s : State) : State :=
  resetHull (setTanks (setCall s .idle) (tanksOf s.profile))

/-- The written copy read back (R14; log 19). Where its CRC is the console's the profile state becomes VALID, PCLS is answered OK, and then the new profile is announced; where it differs the state becomes EMPTY, without a mark. -/
def writeEnd (readBack : List Byte) (s : State) : State :=
  match s.profile with
  | .loading r =>
    match r.closing with
    | some c =>
      if !c.writing then s
      else
        let good := crc32 readBack = c.cr
        let s := setStored s { mark := good, bytes := readBack, count := r.byteCount, crc := c.cr }
        if good then announceProfile (reply (setProfile s (.valid (profileFrom r.sections))) .console c.slot .ok [])
        else reply (failLoad s) .console c.slot .profileCrc []
    | none => s
  | _ => s

/-- NON_VOLATILE_WRITE_COMPLETE (R14). -/
def execNonVolatileWriteComplete (readBack : List Byte) (s : State) : Result := event s (writeEnd readBack)

end Sys2Proof.Machine
end

