-- ==== Sys2Proof/Machine/ExecReports.lean ====
section
/-! DEFINITION. Meanings of the report and attention requests: RCFG, RREQ, AENB, AACK, AQRY (R169, R179, R185, R186). -/

namespace Sys2Proof.Machine

/-! ### RCFG and RREQ -/

/-- The kind an RK names (R195). -/
def reportKindNamed (rk : Int) : Option ReportKind :=
  if rk = 0 then some .step else if rk = 1 then some .survey else if rk = 2 then some .exception else if rk = 3 then some .departure else none

/-- The route an RU names (R195). -/
def routeNamed (ru : Int) : Option Route :=
  if ru = 0 then some .console else if ru = 1 then some .terminal else if ru = 2 then some .both else none

/-- A channel override: 0 to 15, or 255 for none (R169). -/
def overrideNamed (ch : Int) : Option (Option Nat) := if ch = 255 then some none else (natUpTo 15 ch).map some

/-- The request asks for FIXED (R195). -/
def asksFixed (f : RcfgFields) : Bool := f.lm = some 1

/-- The shape of an RCFG (R169, test 1). -/
def rcfgShape (f : RcfgFields) : Bool := (asksFixed f == f.ll.isSome) && f.ic.length ≤ 40

/-- The content list that the IC fields give; `none` when a code is refused (R169, test 3). -/
def contentNamed (ic : List Int) : Option (List Nat) :=
  if ic = [0] then some [] else if ic.all codeOk then some (ic.map Int.toNat) else none

/-- A length mode of the free value: AUTO, or FIXED with a length 4 to 64 (log 11). -/
def otherMode (lm : Int) : LengthMode :=
  match Config.otherLengthMode lm with
  | none => .auto
  | some v => .fixed (v.val + 4)

/-- The length mode after an RCFG: AUTO, FIXED with its LL, and beyond 0 and 1 a free value (R169, R195; log 11). -/
def lengthModeWith (f : RcfgFields) (ll : Option Nat) (old : LengthMode) : LengthMode :=
  match f.lm with
  | none => old
  | some lm => if lm = 1 then .fixed (ll.getD 4) else if lm = 0 then .auto else otherMode lm

/-- A value for a field that is present and can be taken. -/
def present {α : Type} (f : Int → Option α) (x : Option Int) : Option (Option α) :=
  match x with
  | none => some none
  | some v => (f v).map some

/-- What the tests of R169 make of an RCFG: an outcome that refuses it, or the kind with its new settings. -/
def rcfgTests (r : Reports) (f : RcfgFields) : Oc ⊕ (ReportKind × ReportSettings) :=
  if !rcfgShape f then .inl .format
  else match reportKindNamed f.rk, present routeNamed f.ru, present overrideNamed f.ch, present (natIn 4 64) f.ll, contentNamed f.ic with
    | some k, some ru, some ch, some ll, some content =>
      let old := settingsOf r k
      .inr (k, { route := ru.getD old.route, channel := ch.getD old.channel, lengthMode := lengthModeWith f ll old.lengthMode,
                 content := if f.ic.isEmpty then old.content else content })
    | _, _, _, _, _ => .inl .range

/-- A channel override as a field value: 255 for none (R169). -/
def overrideCode (c : Option Nat) : Int := c.getD 255

/-- A length mode and its length, ABSENT with AUTO (log 18). -/
def lengthFields : LengthMode → List (Field × Val)
  | .auto => [rvNum 0, rv .absent]
  | .fixed l => [rvNum 1, rvNum l]

/-- The settings of a kind in the order of R168: route, channel override, length mode with its length, content list (R169; log 18). -/
def settingsFields (x : ReportSettings) : List (Field × Val) :=
  [rvNum (routeCode x.route), rvNum (overrideCode x.channel)] ++ lengthFields x.lengthMode ++ x.content.map fun c : Nat => rvNum c

/-- RCFG (R169). -/
def rcfg (k : Nat) (f : RcfgFields) (s : State) : State :=
  match rcfgTests s.reports f with
  | .inl oc => refuse s .console k oc
  | .inr (kind, x) => reply (setReports s (withSettings s.reports kind x)) .console k .ok (settingsFields x)

/-- RCFG (R169). -/
def execRcfg (slot : Nat) (s : State) : Result :=
  serve .console slot s fun r s =>
    match r with
    | .rcfg f => rcfg slot f s
    | _ => s

/-- RREQ (R179). -/
def rreq (k : Nat) (s : State) : State :=
  match nextSerial s .survey with
  | none => refuse s .console k .limit
  | some n =>
    let s := trigger s .survey none
    reply s .console k .ok [(.SR, .num n), (.QN, .num s.reports.queue.length)]

/-- RREQ (R21, R179). -/
def execRreq (slot : Nat) (s : State) : Result :=
  serve .console slot s fun r s =>
    match r with
    | .rreq => whenAdmitted inCallOnly .console slot s (rreq slot)
    | _ => s

/-! ### AENB, AACK, AQRY -/

/-- AENB; its reply carries the mask now in force (R185; log 18). -/
def aenb (k : Nat) (em : Int) (s : State) : State :=
  match natUpTo 0x3FFF em with
  | none => refuse s .console k .range
  | some n => reply (setAttention s (enableIn s.attention (BitVec.ofNat 14 n))) .console k .ok [rvNum n]

/-- AENB (R185). -/
def execAenb (slot : Nat) (s : State) : Result :=
  serve .console slot s fun r s =>
    match r with
    | .aenb em => aenb slot em s
    | _ => s

/-- The conditions a list names; `none` when one is outside 0 to 13 (R186). -/
def conditionsNamed : List Int → Option (List Nat)
  | [] => some []
  | x :: xs =>
    match natUpTo 13 x, conditionsNamed xs with
    | some n, some ns => some (n :: ns)
    | _, _ => none

/-- AACK; its reply writes the set of pending conditions as their numbers, rising, one RV each (R186; log 18). -/
def aack (k : Nat) (cn : List Int) (s : State) : State :=
  match conditionsNamed cn with
  | none => refuse s .console k .range
  | some ns =>
    let a := ns.foldl ackIn s.attention
    reply (setAttention s a) .console k .ok ((pendingSet a).map fun n : Nat => rvNum n)

/-- AACK (R186). -/
def execAack (slot : Nat) (s : State) : Result :=
  serve .console slot s fun r s =>
    match r with
    | .aack cn => aack slot cn s
    | _ => s

/-- A condition in the reply to AQRY (R186; log 18). -/
def conditionFields (a : Attention) (n : Nat) : List (Field × Val) :=
  match a.conditions[n]? with
  | none => []
  | some c =>
    [rvNum (boolCode (!isLevel n)), rvNum (boolCode c.pending)]
      ++ (if isLevel n then [rvNum (boolCode c.cause)] else [])
      ++ [rvNum c.count, rv (valNat c.first), rv (valNat c.latest), rvNum (boolCode (a.owed.contains n))]

/-- AQRY (R186). -/
def execAqry (slot : Nat) (s : State) : Result :=
  serve .console slot s fun r s =>
    match r with
    | .aqry => reply s .console slot .ok (rvNum s.attention.mask.toNat :: (upTo 14).flatMap (conditionFields s.attention))
    | _ => s

end Sys2Proof.Machine
end

