-- ==== Sys2Proof/Machine/ExecSystem.lean ====
section
/-! DEFINITION. Meanings of the supply, reset and clock commands: POWER_ON, WARM_RESET, UPTIME_SECOND, POWER_LOSS, WRST. -/

namespace Sys2Proof.Machine

/-- POWER_ON (R15, R24): taken without supply as well. -/
def execPowerOn (s : State) : Result := .next (powerOn s)

/-- WARM_RESET: a low level on RSTN (R24). -/
def execWarmReset (s : State) : Result := event s warmReset

/-- The clocks after one more second (R22, R23). The call clock advances with the uptime clock. -/
def Clocks.tick (c : Clocks) : Clocks :=
  if c.uptime < Config.clockMax then
    { uptime := c.uptime + 1, call := c.call.map fun n => min Config.callClockMax (n + 1) }
  else c

/-- A RUNNING pump counts the second (R101; log 21). -/
def Pump.tick (p : Pump) : Pump :=
  if p.state = .running then { p with runSeconds := min Config.clockMax (p.runSeconds + 1) } else p

/-- One second of the uptime clock (R22, R23, R101). -/
def oneSecond (s : State) : State :=
  setPlant (setClocks s s.clocks.tick) { s.plant with pumps := s.plant.pumps.map Pump.tick }

/-- UPTIME_SECOND (R22). -/
def execUptimeSecond (s : State) : Result := event s oneSecond

/-- A non-volatile write is under way (R14). -/
def writing (s : State) : Bool :=
  match s.profile with
  | .loading r => (r.closing.map Closing.writing).getD false
  | _ => false

/-- The supply goes: a write under way leaves the copy without its mark (R14; log 24). -/
def losePower (s : State) : State :=
  setStored (setPowered s false) { s.stored with mark := s.stored.mark && !writing s }

/-- POWER_LOSS (R14). -/
def execPowerLoss (s : State) : Result := event s losePower

/-- WRST: the console port stops taking frames and the reply OK is placed (R193). -/
def execWrst (slot : Nat) (s : State) : Result :=
  serve .console slot s fun r s =>
    match r with
    | .wrst => reply (setWrstPending s true) .console slot .ok []
    | _ => s

end Sys2Proof.Machine
end

