-- ==== Sys2Proof/Machine/ExecTerminal.lean ====
section
/-! DEFINITION. Meanings of the terminal-link commands: TATT, TDET, QUIET_TIMER_EXPIRY, SQRY (R158 to R166). -/

namespace Sys2Proof.Machine

/-- The number of the current step, 0 for none (R159, R165). -/
def currentNumber (s : State) : Nat := ((currentStep s).map Step.number).getD 0

/-- LS and QC (R159, R165). -/
def linkFields (s : State) : List (Field × Val) := [(.LS, .num (linkCode s.term.state)), (.QC, .num s.term.count)]

/-- The fields of the reply to TATT (R159). -/
def attachFields (s : State) : List (Field × Val) :=
  linkFields s ++ [(.ST, .num (currentNumber s)), (.SS, valOr ((currentStep s).map fun st => stepCode st.state))]

/-- The kept frames placed in the outgoing queue, oldest first, and the list emptied (R159, step 1). -/
def sendKept (s : State) : State :=
  setTerm (s.term.kept.foldl (fun s u => place s .terminal (.unsolicited u)) s) { s.term with kept := [] }

/-- Re-attach from LOST, before the reply; the quiet timer runs with a step POURING or HALTED (R159, R161; log 35). -/
def reattach (s : State) : State :=
  let s := setLinkState (sendKept s) .up
  let s := setTerm s { s.term with count := 0 }
  if (currentStep s).any stepPours then startQuiet s else s

/-- The reply to TATT (R159). -/
def answerTatt (s : State) (k : Nat) : State := reply s .terminal k .ok (attachFields s)

/-- TATT: the state is set, the reply composed, then the change announced. R159 gives this order for a re-attach from LOST; from DETACHED it is the model's (log 46). -/
def tatt (k : Nat) (s : State) : State :=
  match s.term.state with
  | .up | .quiet => answerTatt s k
  | .detached => linkChanged (answerTatt (setLinkState s .up) k)
  | .lost => linkChanged (answerTatt (reattach s) k)

/-- TATT (R159). -/
def execTatt (slot : Nat) (s : State) : Result :=
  serve .terminal slot s fun r s =>
    match r with
    | .tatt => tatt slot s
    | _ => s

/-- A frame that TDET leaves in the outgoing queue (R160). -/
def staysAtDetach : Class1 → Bool
  | .reply _ => true
  | .unsolicited _ => false

/-- An RPRT whose transmission is under way on the terminal link is abandoned (R160, R178). -/
def abandonReport (s : State) : State :=
  match s.terminal.tx with
  | some { frame := .rprt r _, .. } => abandonTransmission (setTerminal s { s.terminal with tx := none }) r
  | _ => s

/-- The effects of an accepted TDET before its reply (R20, R160). -/
def detach (s : State) : State :=
  let s := setLinkState s .detached
  let s := setTerm s { s.term with kept := [] }
  let s := setTerminal s { s.terminal with queue := s.terminal.queue.filter staysAtDetach }
  linkChanged (closingCheck (abandonReport s))

/-- The reply to TDET. -/
def answerTdet (s : State) (k : Nat) : State := reply s .terminal k .ok [(.LS, .num (linkCode s.term.state))]

/-- TDET (R160). A request handed over before the link became LOST finds LOST here and is refused with STATE, without the LS of R163 (log 42); no refusal of a TDET carries LS (R158; log 50). The reply is composed after the test of R20, so that its CS is IDLE where the TDET ends the call (log 47). -/
def tdet (k : Nat) (s : State) : State :=
  match s.term.state with
  | .detached => answerTdet s k
  | .lost => refuse s .terminal k .state
  | .up | .quiet => if (currentStep s).any stepPours then refuse s .terminal k .state else answerTdet (detach s) k

/-- TDET (R160). -/
def execTdet (slot : Nat) (s : State) : Result :=
  serve .terminal slot s fun r s =>
    match r with
    | .tdet => tdet slot s
    | _ => s

/-- The link is lost at the fourth expiry (R162). -/
def loseLink (s : State) : State :=
  let s := setLinkState s .lost
  let s := linkChanged (setTerm s { s.term with quietTimer := none, count := 4 })
  let s := raise s terminalLost none
  trigger s .exception (currentStep s)

/-- A quiet expiry below the fourth: the timer restarts, and UP becomes QUIET (R162). -/
def quietOn (s : State) : State :=
  let s := setTerm s { s.term with count := s.term.count + 1, quietTimer := some (expiryAfter s s.settings.qt) }
  if s.term.state = .up then changeLink s .quiet else s

/-- The quiet timer expires (R162). -/
def quietExpired (s : State) : State :=
  if due s.term.quietTimer (now s) then (if 3 ≤ s.term.count then loseLink s else quietOn s) else s

/-- QUIET_TIMER_EXPIRY (R162). -/
def execQuietTimerExpiry (s : State) : Result := event s quietExpired

/-- The wait reason or halt cause of a step (R165; log 17). -/
def stepReason (st : Step) : Option Int :=
  match st.haltCause with
  | some c => some (haltCode c)
  | none => st.waitReason.map waitCode

/-- The step fields of SQRY in the order of R165, ABSENT where there is no step. -/
def stepView (s : State) (st : Option Step) : List (Field × Val) :=
  let h := st.bind fun x => holdRec s x.hold
  [(.SS, valOr (st.map fun x => stepCode x.state)), (.HD, valNat (st.map Step.hold)), (.PT, valNat (st.map Step.planned)),
    (.RN, valOr (st.bind stepReason)), (.TY, valNat (st.bind Step.lastTally)), (.FN, valNat (st.bind Step.final)),
    (.MS, valNat (h.map Hold.mass)), rv (valOr (h.map fun x => holdSourceCode x.source)),
    rv (match st.bind fun x => holdData s x.hold with
      | some d => .raw d.name
      | none => .absent),
    rv (valNat (st.bind Step.grantTime)), rv (valNat (st.bind Step.endTime)), rv (valNat (st.bind Step.reportSerial))]

/-- The reply to SQRY for a step (R165). -/
def answerSqry (s : State) (k : Nat) (st : Option Step) : State :=
  reply s .terminal k .ok (linkFields s ++ [(.ST, .num (currentNumber s))] ++ stepView s st)

/-- SQRY (R165). A refusal with RANGE carries no LS (R158; log 50). -/
def sqry (k : Nat) (st : Option Int) (s : State) : State :=
  match st with
  | none => answerSqry s k (currentStep s)
  | some x =>
    match natIn 1 s.pour.plan.length x with
    | some n => answerSqry s k (stepByNumber s n)
    | none => refuse s .terminal k .range

/-- SQRY (R165). -/
def execSqry (slot : Nat) (s : State) : Result :=
  serve .terminal slot s fun r s =>
    match r with
    | .sqry st => sqry slot st s
    | _ => s

end Sys2Proof.Machine
end

