-- ==== Sys2Proof/Machine/Dispatch.lean ====
section
/-! DEFINITION. The meaning of every command: one arm for each row of the opcode table. -/

namespace Sys2Proof.Machine

/-- The effect of a command on everything but the queue. -/
def exec (i : Instr) (s : State) : Host.Outcome State Fault Refusal :=
  match i with
  | .powerOn => Sys2Proof.Machine.execPowerOn s
  | .warmReset => Sys2Proof.Machine.execWarmReset s
  | .uptimeSecond => Sys2Proof.Machine.execUptimeSecond s
  | .frameReceived link bytes => Sys2Proof.Machine.execFrameReceived link bytes s
  | .frameDiscarded link bytes => Sys2Proof.Machine.execFrameDiscarded link bytes s
  | .frameIncompleteTimeout link => Sys2Proof.Machine.execFrameIncompleteTimeout link s
  | .frameTransmitStart link => Sys2Proof.Machine.execFrameTransmitStart link s
  | .replyTransmitComplete link => Sys2Proof.Machine.execReplyTransmitComplete link s
  | .delivery link => Sys2Proof.Machine.execDelivery link s
  | .popn slot => Sys2Proof.Machine.execPopn slot s
  | .pdat slot => Sys2Proof.Machine.execPdat slot s
  | .pcls slot => Sys2Proof.Machine.execPcls slot s
  | .profileChecksComplete => Sys2Proof.Machine.execProfileChecksComplete s
  | .nonVolatileWriteComplete readBack => Sys2Proof.Machine.execNonVolatileWriteComplete readBack s
  | .copn slot => Sys2Proof.Machine.execCopn slot s
  | .cend slot => Sys2Proof.Machine.execCend slot s
  | .clks slot => Sys2Proof.Machine.execClks slot s
  | .setp slot => Sys2Proof.Machine.execSetp slot s
  | .scanPeriodTick => Sys2Proof.Machine.execScanPeriodTick s
  | .conversionComplete code => Sys2Proof.Machine.execConversionComplete code s
  | .gcal slot => Sys2Proof.Machine.execGcal slot s
  | .tmap slot => Sys2Proof.Machine.execTmap slot s
  | .dens slot => Sys2Proof.Machine.execDens slot s
  | .sndg slot => Sys2Proof.Machine.execSndg slot s
  | .gqry slot => Sys2Proof.Machine.execGqry slot s
  | .liveEvaluationComplete => Sys2Proof.Machine.execLiveEvaluationComplete s
  | .previewComplete => Sys2Proof.Machine.execPreviewComplete s
  | .prev slot => Sys2Proof.Machine.execPrev slot s
  | .hqry slot => Sys2Proof.Machine.execHqry slot s
  | .valveLimitChange valve limit present => Sys2Proof.Machine.execValveLimitChange valve limit present s
  | .strokeTimerExpiry valve => Sys2Proof.Machine.execStrokeTimerExpiry valve s
  | .pressureProvenChange pump present => Sys2Proof.Machine.execPressureProvenChange pump present s
  | .pumpRunningFeedbackChange pump present => Sys2Proof.Machine.execPumpRunningFeedbackChange pump present s
  | .proveTimerExpiry order => Sys2Proof.Machine.execProveTimerExpiry order s
  | .pumpStopTimerExpiry pump => Sys2Proof.Machine.execPumpStopTimerExpiry pump s
  | .prst slot => Sys2Proof.Machine.execPrst slot s
  | .xovr slot => Sys2Proof.Machine.execXovr slot s
  | .gang slot => Sys2Proof.Machine.execGang slot s
  | .ordr slot => Sys2Proof.Machine.execOrdr slot s
  | .stallWindowExpiry order => Sys2Proof.Machine.execStallWindowExpiry order s
  | .ocan slot => Sys2Proof.Machine.execOcan slot s
  | .orel slot => Sys2Proof.Machine.execOrel slot s
  | .oqry slot => Sys2Proof.Machine.execOqry slot s
  | .hwin slot => Sys2Proof.Machine.execHwin slot s
  | .plan slot => Sys2Proof.Machine.execPlan slot s
  | .pclr slot => Sys2Proof.Machine.execPclr slot s
  | .hcor slot => Sys2Proof.Machine.execHcor slot s
  | .sreq slot => Sys2Proof.Machine.execSreq slot s
  | .holdTimerExpiry step => Sys2Proof.Machine.execHoldTimerExpiry step s
  | .sfrc slot => Sys2Proof.Machine.execSfrc slot s
  | .sskp slot => Sys2Proof.Machine.execSskp slot s
  | .scan slot => Sys2Proof.Machine.execScan slot s
  | .taly slot => Sys2Proof.Machine.execTaly slot s
  | .sfin slot => Sys2Proof.Machine.execSfin slot s
  | .settleTimerExpiry step => Sys2Proof.Machine.execSettleTimerExpiry step s
  | .lstp slot => Sys2Proof.Machine.execLstp slot s
  | .tatt slot => Sys2Proof.Machine.execTatt slot s
  | .tdet slot => Sys2Proof.Machine.execTdet slot s
  | .quietTimerExpiry => Sys2Proof.Machine.execQuietTimerExpiry s
  | .sqry slot => Sys2Proof.Machine.execSqry slot s
  | .rcfg slot => Sys2Proof.Machine.execRcfg slot s
  | .rreq slot => Sys2Proof.Machine.execRreq slot s
  | .aenb slot => Sys2Proof.Machine.execAenb slot s
  | .aack slot => Sys2Proof.Machine.execAack slot s
  | .aqry slot => Sys2Proof.Machine.execAqry slot s
  | .wrst slot => Sys2Proof.Machine.execWrst slot s
  | .startByteFound link bytes => Sys2Proof.Machine.execStartByteFound link bytes s
  | .powerLoss => Sys2Proof.Machine.execPowerLoss s

end Sys2Proof.Machine
end

