-- ==== Sys2Proof/Machine/Step.lean ====
section
/-! DEFINITION. One step: the command at the front of the queue, or on an empty queue one refresh of the plant I/O chain (R85; log 3). -/

namespace Sys2Proof.Machine

/-- The step on an empty queue: one refresh of the chain of a part that has power (log 3, 24). -/
def idle (s : State) : State := if s.powered then refreshChain s else s

/-- One step: the front command runs on the queue's rest (log 31). -/
def step (s : State) : Host.Outcome State Fault Refusal :=
  match s.pending with
  | [] => .next (idle s)
  | c :: rest => exec c (setPending s rest)

/-- The state with the command that a word spells at the front of the queue; unchanged where it spells none (log 6). -/
def State.withFetchWord (s : State) (nbits w : Nat) : State :=
  match decodeTableWord nbits w with
  | some c => setPending s (c :: s.pending)
  | none => s

end Sys2Proof.Machine
end

