-- ==== Sys2Proof/Safety.lean ====
section
/-! DEFINITION. The words that statements about the part are made of: a request that waits for its owner, the blocks of the state and what a command may change, the call-state admission of R21, and the laws that every block keeps. -/

namespace Sys2Proof.Machine

/-! ### Requests that wait -/

/-- The part has power, and slot `k` of link `l` hands request `r` to its owner, in its turn (R190, step 5; R12). -/
abbrev Asked (s : State) (l : Link) (k : Nat) (r : Request) : Prop := s.powered = true ∧ handed s l k = some r

/-- The link whose request set holds the request (12.4, 9.5). -/
def Request.link : Request → Link
  | .tatt | .tdet | .sreq _ | .taly _ _ | .sfin _ _ | .lstp _ | .scan _ | .sqry _ => .terminal
  | _ => .console

/-- The command that deals with a request held in slot `k`. -/
def Request.command (k : Nat) : Request → Instr
  | .popn => .popn k
  | .pdat _ _ _ => .pdat k
  | .pcls _ => .pcls k
  | .copn => .copn k
  | .cend => .cend k
  | .clks _ => .clks k
  | .setp _ => .setp k
  | .tmap _ _ => .tmap k
  | .gcal _ _ _ _ => .gcal k
  | .dens _ _ => .dens k
  | .sndg _ _ => .sndg k
  | .gqry _ _ => .gqry k
  | .prev _ => .prev k
  | .hqry => .hqry k
  | .prst _ => .prst k
  | .xovr _ => .xovr k
  | .gang _ _ => .gang k
  | .ordr _ => .ordr k
  | .ocan _ => .ocan k
  | .orel _ => .orel k
  | .oqry _ => .oqry k
  | .hwin _ _ _ _ => .hwin k
  | .plan _ _ _ _ _ => .plan k
  | .pclr _ => .pclr k
  | .sfrc _ => .sfrc k
  | .sskp _ => .sskp k
  | .hcor _ _ => .hcor k
  | .rreq => .rreq k
  | .rcfg _ => .rcfg k
  | .aenb _ => .aenb k
  | .aack _ => .aack k
  | .aqry => .aqry k
  | .wrst => .wrst k
  | .tatt => .tatt k
  | .tdet => .tdet k
  | .sreq _ => .sreq k
  | .taly _ _ => .taly k
  | .sfin _ _ => .sfin k
  | .lstp _ => .lstp k
  | .scan _ => .scan k
  | .sqry _ => .sqry k

/-- The call states in which the table of R21 answers a request with STATE. POPN, PDAT, PCLS, COPN and CEND have no row there. -/
def refusedByCallState : Request → CallState → Bool
  | .tmap _ _, c | .gcal _ _ _ _, c | .dens _ _, c | .sndg _ _, c => c = .noProfile
  | .prst _, c | .xovr _, c | .gang _ _, c | .prev _, c => c = .noProfile
  | .ordr _, c | .ocan _, c | .orel _, c | .hwin _ _ _ _, c => c != .inCall
  | .plan _ _ _ _ _, c | .pclr _, c | .sfrc _, c | .sskp _, c | .hcor _ _, c | .rreq, c => c != .inCall
  | .sreq _, c | .taly _ _, c | .sfin _ _, c | .lstp _, c | .scan _, c => c != .inCall
  | _, _ => false

/-- The port of link `l` in `t` is that of `s` after the owner of slot `k` has composed this reply (R191). -/
def Replied (s t : State) (l : Link) (k : Nat) (oc : Oc) (fields : List (Field × Val)) : Prop :=
  portOf t l = portOf (reply s l k oc fields) l

/-- The link's receiver takes bytes in: the part has power, and no WRST is pending on the console (R188, R193). -/
abbrev Listening (s : State) (l : Link) : Prop := s.powered = true ∧ ¬(l = .console ∧ s.wrstPending = true)

/-- The values every block takes at power-on and at a warm reset, with the straps, the lines' levels, the stored copy and the queue of before (R24, R27, R30, R47, R50, R83, R85, R107, R108, R157, R166, R180, R187, R188, R190). -/
structure AfterReset (s t : State) : Prop where
  powered : t.powered = true
  clocks : t.clocks = { uptime := 0, call := none }
  call : t.call = if (profileOf t).isSome then .idle else .noProfile
  settings : t.settings = Settings.default
  rates : t.rates = { s.rates with console := s.rates.consoleStraps.rate, terminal := s.rates.terminalStraps.rate }
  stored : t.stored = s.stored
  gauge : t.gauge = Gauge.initial
  tanks : t.tanks = ((profileOf t).map fun p => p.tanks.map Tank.initial).getD []
  engine : t.engine = Engine.initial
  hull : t.hull = Hull.initial
  lines : t.plant.lines = s.plant.lines.map InputLine.firstSample
  pumps : t.plant.pumps = List.replicate 4 Pump.initial
  valves : t.plant.valves = List.replicate 29 Valve.initial
  attempts : t.plant.attempts = []
  mains : t.plant.portMain = { mode := .idle, orders := [] } ∧ t.plant.stbdMain = { mode := .idle, orders := [] }
  modes : t.plant.crossMode = .straight ∧ t.plant.crossTarget = .straight ∧ t.plant.gangedA = false ∧ t.plant.gangedB = false
  orders : t.orders = Orders.initial
  pour : t.pour = Pour.initial
  term : t.term = TermLink.initial
  reports : t.reports = Reports.initial
  attention : t.attention = Attention.initial
  console : t.console = Port.initial
  terminal : t.terminal = Port.initial
  wrst : t.wrstPending = false
  pending : t.pending = s.pending

/-! ### What a command may change -/

/-- The pieces of the state. -/
inductive Block where
  | powered | clocks | call | settings | rates | profile | stored | gauge | tanks | engine | hull | plant | orders | pour | term
  | reports | attention | console | terminal | wrstPending | pending
  deriving DecidableEq, Repr

/-- A piece is the same in two states. -/
def Block.kept (b : Block) (s t : State) : Prop :=
  match b with
  | .powered => t.powered = s.powered
  | .clocks => t.clocks = s.clocks
  | .call => t.call = s.call
  | .settings => t.settings = s.settings
  | .rates => t.rates = s.rates
  | .profile => t.profile = s.profile
  | .stored => t.stored = s.stored
  | .gauge => t.gauge = s.gauge
  | .tanks => t.tanks = s.tanks
  | .engine => t.engine = s.engine
  | .hull => t.hull = s.hull
  | .plant => t.plant = s.plant
  | .orders => t.orders = s.orders
  | .pour => t.pour = s.pour
  | .term => t.term = s.term
  | .reports => t.reports = s.reports
  | .attention => t.attention = s.attention
  | .console => t.console = s.console
  | .terminal => t.terminal = s.terminal
  | .wrstPending => t.wrstPending = s.wrstPending
  | .pending => t.pending = s.pending

/-- Every piece but those listed is the same in two states. -/
def ChangesOnly (bs : List Block) (s t : State) : Prop := ∀ b, b ∉ bs → b.kept s t

/-- The piece that holds a link's port. -/
def portBlock : Link → Block
  | .console => .console
  | .terminal => .terminal

/-- What the order engine and the plant change as they act on each other: their own records, and through announcements, notices and raised conditions the pour gate, the engine and the attention unit. -/
def ballastBlocks : List Block := [.orders, .plant, .pour, .engine, .attention]

/-- What a reset changes: everything but the stored copy and the queue (R24). -/
def resetBlocks : List Block :=
  [.powered, .clocks, .call, .settings, .rates, .profile, .gauge, .tanks, .engine, .hull, .plant, .orders, .pour, .term, .reports,
    .attention, .console, .terminal, .wrstPending]

/-- The pieces that a command may change. -/
def touches : Instr → List Block
  | .powerOn | .warmReset => resetBlocks
  | .uptimeSecond => [.clocks, .plant]
  | .powerLoss => [.powered, .stored]
  | .wrst _ => [.wrstPending, .console]
  | .startByteFound l _ | .frameReceived l _ | .frameDiscarded l _ | .frameIncompleteTimeout l => [portBlock l]
  | .frameTransmitStart .console => [.console, .attention, .reports]
  | .frameTransmitStart .terminal => [.terminal, .reports]
  | .replyTransmitComplete .console => resetBlocks
  | .replyTransmitComplete .terminal => [.terminal]
  | .delivery l => [portBlock l, .reports, .pour, .engine, .call, .gauge]
  | .popn _ => [.profile, .stored, .call, .tanks, .engine, .hull, .attention, .console]
  | .pdat _ | .pcls _ | .profileChecksComplete => [.profile, .console]
  | .nonVolatileWriteComplete _ => [.profile, .stored, .call, .tanks, .hull, .attention, .console]
  | .copn _ => [.call, .reports, .pour, .gauge, .hull, .attention, .engine, .console]
  | .cend _ => [.call, .reports, .console, .terminal, .orders, .tanks, .pour, .attention, .hull, .engine, .term, .gauge]
  | .clks _ => [.clocks, .console]
  | .setp _ => [.settings, .engine, .console]
  | .scanPeriodTick => [.gauge, .pour, .engine]
  | .conversionComplete _ => [.gauge, .tanks] ++ ballastBlocks
  | .gcal _ | .tmap _ => [.gauge, .tanks, .console] ++ ballastBlocks
  | .dens _ | .sndg _ => [.tanks, .engine, .console]
  | .gqry _ | .hqry _ | .oqry _ | .aqry _ => [.console]
  | .liveEvaluationComplete => [.hull, .reports, .term, .terminal] ++ ballastBlocks
  | .previewComplete => [.term, .terminal, .console] ++ ballastBlocks
  | .prev _ => [.engine, .console]
  | .valveLimitChange _ _ _ | .strokeTimerExpiry _ | .pressureProvenChange _ _ | .pumpRunningFeedbackChange _ _ => ballastBlocks
  | .proveTimerExpiry _ | .pumpStopTimerExpiry _ => ballastBlocks
  | .prst _ | .xovr _ | .gang _ | .ocan _ => .console :: ballastBlocks
  | .ordr _ => [.orders, .engine, .console]
  | .stallWindowExpiry _ => .tanks :: ballastBlocks
  | .orel _ => [.orders, .console]
  | .hwin _ => [.tanks, .console] ++ ballastBlocks
  | .plan _ | .pclr _ => [.pour, .console]
  | .hcor _ => [.pour, .engine, .console]
  | .sreq _ => [.pour, .engine, .terminal]
  | .holdTimerExpiry _ => [.pour, .term, .terminal, .attention]
  | .sfrc _ => [.pour, .term, .terminal, .console]
  | .sskp _ => [.pour, .term, .terminal, .console]
  | .scan _ | .lstp _ => [.pour, .terminal]
  | .taly _ => [.pour, .engine, .term, .terminal, .attention, .reports]
  | .sfin _ => [.pour, .engine, .term, .terminal, .attention]
  | .settleTimerExpiry _ => [.pour, .engine]
  | .tatt _ => [.term, .terminal, .attention, .pour, .engine]
  | .tdet _ => [.term, .terminal, .attention, .pour, .engine, .reports, .call, .gauge]
  | .quietTimerExpiry => [.term, .terminal, .attention, .pour, .engine, .reports]
  | .sqry _ => [.terminal]
  | .rcfg _ => [.reports, .console]
  | .rreq _ => [.reports, .attention, .pour, .engine, .console]
  | .aenb _ | .aack _ => [.attention, .console]

/-! ### The laws of the blocks -/

/-- Every setting lies in its range, DB is a multiple of 10, and TN lies below TX (R25, R26). -/
def SettingsOk (x : Settings) : Prop :=
  (∀ f ∈ settingFields, within (settingRange f).1 (settingRange f).2 (getSetting x f) = true) ∧ x.db % 10 = 0 ∧ x.tn < x.tx

/-- The call state is NO_PROFILE exactly without a profile in force, and the tank table has a record for each declared tank (R17, R45). -/
def CallOk (s : State) : Prop :=
  (s.call = .noProfile ↔ profileOf s = none) ∧ s.tanks.length = ((profileOf s).map fun p => p.tanks.length).getD 0

/-- At most 4 entries of the preview queue are not the pour gate's (R70). -/
def EngineOk (g : Engine) : Prop := (g.previews.filter fun e => !fromGate e).length ≤ 4

/-- While the live result is RED the stop state is STOPPED, and without a live result it is CLEAR (R78, R83). -/
def HullOk (h : Hull) : Prop :=
  match h.live with
  | none => h.stop = .clear ∧ h.completedAt = none
  | some r => h.completedAt.isSome = true ∧ (r.band = .red → h.stop = .stopped)

/-- A pump's start line is asserted exactly while it is PRIMING or RUNNING (R90). -/
def PumpOk (p : Pump) : Prop := p.startLine = decide (p.state = .priming ∨ p.state = .running)

/-- A valve's stroke timer runs exactly while it moves, and its state agrees with the commanded position (R86 to R88). -/
def ValveOk (v : Valve) : Prop :=
  v.stroke.isSome = decide (v.state = .opening ∨ v.state = .closing)
    ∧ ((v.state = .opening ∨ v.state = .opened) → v.commandedOpen = true)
    ∧ ((v.state = .closing ∨ v.state = .closed) → v.commandedOpen = false)

/-- A main is IDLE exactly while no order holds it, and at most two orders hold it (R91). -/
def MainOk (m : MainRec) : Prop := (m.mode = .idle ↔ m.orders = []) ∧ m.orders.length ≤ 2

/-- The records of the plant and their laws (R84, R86, R90, R91). -/
def PlantOk (p : Plant) : Prop :=
  p.lines.length = 66 ∧ p.pumps.length = 4 ∧ p.valves.length = 29 ∧ (∀ x ∈ p.pumps, PumpOk x) ∧ (∀ v ∈ p.valves, ValveOk v)
    ∧ MainOk p.portMain ∧ MainOk p.stbdMain

/-- The numbers of an order lie in their ranges (R109). -/
def OrderOk (o : Order) : Prop := 1 ≤ o.id ∧ o.id ≤ 255 ∧ o.priority ≤ 3 ∧ o.retries ≤ 7 ∧ o.progress ≤ 100

/-- The order table has 16 slots and no id twice, and there are four windows (R108, R111, R132). -/
def OrdersOk (x : Orders) : Prop :=
  x.slots.length = Config.orderSlots ∧ x.windows.length = 4 ∧ (x.slots.filterMap fun o => o.map Order.id).Nodup
    ∧ ∀ o, some o ∈ x.slots → OrderOk o

/-- The plan's steps are numbered from 1 without a gap, at most 48, and there are nine holds (R134, R136, R138). -/
def PourOk (p : Pour) : Prop :=
  p.plan.map Step.number = (upTo p.plan.length).map (· + 1) ∧ p.plan.length ≤ Config.planMax ∧ p.holds.length = 9

/-- The consecutive count is at most 4 and at most 4 frames are kept (R158). -/
def TermOk (x : TermLink) : Prop := x.count ≤ 4 ∧ x.kept.length ≤ 4

/-- The report queue holds at most 8 records, no gap counter exceeds 255, and the serial counter stays below 65,535 (R173 to R175). -/
def ReportsOk (r : Reports) : Prop :=
  r.queue.length ≤ Config.reportQueueMax ∧ r.consoleGap ≤ 255 ∧ r.terminalGap ≤ 255 ∧ (∀ n, r.counter = some n → n ≤ 65534)

/-- A condition's record: a count of at most 255; a level condition is pending exactly while its cause holds and has no details; a latched one has no cause, and neither count nor details while it is not pending (R181 to R183, R186). -/
def ConditionOk (n : Nat) (c : Condition) : Prop :=
  c.count ≤ 255 ∧
    if isLevel n then c.pending = c.cause ∧ c.first = none ∧ c.latest = none
    else c.cause = false ∧ (c.pending = false → c.count = 0 ∧ c.first = none ∧ c.latest = none)

/-- The condition is pending. -/
def isPending (a : Attention) (n : Nat) : Bool := (a.conditions[n]?.map Condition.pending).getD false

/-- The 14 records and their laws; a notice is owed at most once for each condition, and only for one that is pending and enabled (R181 to R186). -/
def AttentionOk (a : Attention) : Prop :=
  a.conditions.length = 14 ∧ a.owed.Nodup ∧ (∀ n ∈ a.owed, enabled a n = true ∧ isPending a n = true)
    ∧ ∀ n c, a.conditions[n]? = some c → ConditionOk n c

/-- A channel's record lies in its ranges (R30). -/
def ChannelOk (c : Channel) : Prop :=
  c.zeroCode ≤ 65535 ∧ 1 ≤ c.gain ∧ c.gain ≤ 65535 ∧ within (-5000) 5000 c.offset = true ∧ ∀ n, c.lastRaw = some n → n ≤ 65535

/-- There are 32 channel records, and a running round stands at a channel of its list (R28, R30). -/
def GaugeOk (g : Gauge) : Prop :=
  g.channels.length = 32 ∧ (∀ c ∈ g.channels, ChannelOk c) ∧ ∀ r, g.round = some r → r.position < r.channels.length

/-- A tank's score, ring, source and channel agree with its gauge state (R35, R40 to R42). -/
def TankOk (t : Tank) : Prop :=
  t.ring.length ≤ 4 ∧ t.score ≤ 255 ∧ t.reinstatement < 128 ∧ (t.channel = none ↔ t.gauge = .unmapped)
    ∧ (t.gauge = .normal → t.score < 128) ∧ (t.gauge = .suspect → 128 ≤ t.score) ∧ (t.gauge = .withdrawn → t.score = 255)
    ∧ (t.source = .gauge ↔ t.ring ≠ []) ∧ (t.ring ≠ [] → gaugeInUse t.gauge = true)
    ∧ (t.source = .manual → gaugeInUse t.gauge = false)

/-- Every tank record keeps its laws. -/
def TanksOk (ts : List Tank) : Prop := ∀ t ∈ ts, TankOk t

/-- The arrival number of the request that a slot holds. -/
def arrivalAt (p : Port) (k : Nat) : Option Nat := (p.slots[k]?).join.map Slot.arrival

/-- No two of the requests that a port holds arrived at once (R12; log 51). -/
def ArrivalsDiffer (p : Port) : Prop := ∀ i < Config.slotCount, ∀ j < i, arrivalAt p i = arrivalAt p j → arrivalAt p i = none

/-- A port has 8 slots, with requests that arrived one after another, holds at most 8 port replies, and collects only from a start byte (R12, R188, R190). -/
def PortOk (p : Port) : Prop :=
  p.slots.length = Config.slotCount ∧ ArrivalsDiffer p ∧ portRepliesWaiting p ≤ Config.portReplyMax
    ∧ (p.rx.collecting = true → p.rx.bytes.head? = some 0x5A#8)

end Sys2Proof.Machine
end

