-- ==== Sys2Proof/Certificates/Slice0/Obligations.lean ====
section
/-! DEFINITION. Statements for the provers, from the numbered rules of the spec. Statements that rest on a choice of the model name its log entry. -/

section

open Sys2Proof Sys2Proof.Machine

/-! ### Steps, frames, slots -/

/-- A step takes the command at the front of the queue and runs it on the queue's rest (log 31). -/
def Obligations.StepRunsTheFrontCommand : Prop :=
  ∀ (c : Instr) (rest : List Instr) (s : State), s.pending = c :: rest → step s = exec c { s with pending := rest }

/-- On an empty queue a part with power samples each of its 66 input lines once, in chain order, and deals with each debounced change as the command for that line's change would, before the next line is sampled; one without power does nothing (R85, R116; log 3, 24). With DB at 10 n ms, a line that shows a new level at every sample keeps its debounced level for n samples after none has begun a hold, and takes the new level at the sample n samples after the one that began it; a sample that shows the old level ends a hold (R85). -/
def Obligations.EmptyQueueSamplesAndDebounces : Prop :=
  (
  ∀ s : State, s.pending = [] →
    (s.powered = false → step s = .next s)
    ∧ (s.powered = true → s.plant.lines.length = 66 →
        let lineCommand := fun (i : Nat) (x : Bool) =>
          if i < 4 then Instr.pumpRunningFeedbackChange (i + 1) x
          else if i < 8 then .pressureProvenChange (i - 3) x
          else if i < 37 then .valveLimitChange (i - 8) .openLimit x
          else .valveLimitChange (i - 37) .closedLimit x
        ∃ u : Nat → State, u 0 = s ∧ step s = .next (u 66)
          ∧ (u 66).plant.lines = s.plant.lines.map (InputLine.sample s.settings.db) ∧ ChangesOnly ballastBlocks s (u 66)
          ∧ ∀ (i : Nat) (l : InputLine), s.plant.lines[i]? = some l → (u i).plant.lines[i]? = some l
            ∧ ((l.sample s.settings.db).debounced = l.debounced →
              u (i + 1) = { u i with plant := { (u i).plant with lines := modAt (u i).plant.lines i fun _ => l.sample s.settings.db } })
            ∧ ((l.sample s.settings.db).debounced = !l.debounced →
              exec (lineCommand i (!l.debounced)) (u i) = .next (u (i + 1)))))
  ∧
  (
  (∀ (n : Nat) (l : InputLine), l.pin ≠ l.debounced → l.hold = none →
    (∀ k, k ≤ n → (iter (InputLine.sample (10 * n)) k l).debounced = l.debounced)
      ∧ (iter (InputLine.sample (10 * n)) (n + 1) l).debounced = l.pin)
  ∧ ∀ (db : Int) (l : InputLine), l.pin = l.debounced →
      (l.sample db).debounced = l.debounced ∧ (l.sample db).hold = none)

/-- Every command ends in a next state: none faults and none is refused, also one that names nothing and one that reaches a part without power, which changes nothing (log 1, 24). It changes only the pieces of the state that the rules of its kind give it; a reset or a power-on sets all of them (R24). -/
def Obligations.CommandsStayInTheirBlocks : Prop :=
  ∀ (c : Instr) (s : State), ∃ t, exec c s = .next t ∧ ChangesOnly (touches c) s t

/-- A composed reply is placed last in its link's outgoing queue, with the kind and tag of its request, its outcome, the call state in force and its fields; nothing but its own slot's phase changes besides, and its frame carries QK, OC, CS and the fields in that order (R17, R191, R196). -/
def Obligations.ReplyEchoesItsRequest : Prop :=
  (∀ (s : State) (l : Link) (k : Nat) (sl : Slot) (oc : Oc) (fs : List (Field × Val)), slotAt s l k = some sl →
    (portOf (reply s l k oc fs) l).queue
        = (portOf s l).queue ++ [.reply { slot := some k, tag := sl.tag, kind := kindAscii sl.kind, outcome := oc, callState := s.call, fields := fs }]
      ∧ slotAt (reply s l k oc fs) l k = some { sl with phase := .replied }
      ∧ (∀ j, j ≠ k → slotAt (reply s l k oc fs) l j = slotAt s l j)
      ∧ (portOf (reply s l k oc fs) l).rx = (portOf s l).rx ∧ (portOf (reply s l k oc fs) l).tx = (portOf s l).tx
      ∧ ChangesOnly [portBlock l] s (reply s l k oc fs))
  ∧ ∀ r : Reply, txBytes (.class1 (.reply r))
      = frameBytes (ascii4 'R' 'P' 'L' 'Y') r.tag
          (bodyBytes ([(.QK, .raw r.kind), (.OC, .num (ocCode r.outcome)), (.CS, .num (callCode r.callState))] ++ r.fields))

/-- A request that the table of R21 does not take in the call state is refused with STATE and changes nothing else; the reply has no result fields, but for PRST, XOVR and GANG the plant view (R21, R106; log 49). A request command whose slot hands over no request of its kind changes nothing: a request is dealt with once, from its own slot (R190; log 1, 29). A slot hands over the request that its owner has not dealt with yet; of POPN, PDAT and PCLS only the one that arrived first (R12; log 51 for POPN and PCLS). -/
def Obligations.RequestsAreAdmittedFromTheirSlot : Prop :=
  (
  ∀ (r : Request) (k : Nat) (s : State), Asked s r.link k r → refusedByCallState r s.call = true →
    exec (r.command k) s = .next (reply s r.link k .state
      (match r with
        | .prst _ | .xovr _ | .gang _ _ => plantView s
        | _ => [])))
  ∧
  (
  ∀ (r : Request) (k : Nat) (s : State), (∀ r', handed s r.link k = some r' → r'.command k ≠ r.command k) →
    exec (r.command k) s = .next s)
  ∧
  (
  let store := fun r : Request => match r with
    | .popn | .pdat _ _ _ | .pcls _ => True
    | _ => False
  ∀ (s : State) (l : Link) (k : Nat) (x : Slot), slotAt s l k = some x →
    (handed s l k = some x.request
      ↔ x.phase = .handed
        ∧ (store x.request → ∀ j y, slotAt s l j = some y → y.phase = .handed → store y.request → x.arrival ≤ y.arrival)))

/-! ### Supply, reset and clock -/

/-- Power-on takes the profile from an intact stored copy alone, a warm reset keeps a VALID profile and no other; both set every block to its values after reset and release every output line (R15, R16, R24, R84). Of these values the base and mask of the windows (log 32) and the time of a receiver's last byte (log 30) are the model's. Pump n's start line stands at chain position n - 1 and valve v's command line at v + 4, which is module 0 from line 4 on, module 1 and line 0 of module 2; a tank valve of an undeclared tank is held released, and the lines above are not used (R84). -/
def Obligations.ResetsRestartThePart : Prop :=
  (∀ s : State, ∃ t, exec .powerOn s = .next t ∧ AfterReset s t ∧ t.profile = verified s.stored ∧ ∀ position, outputLevel t position = false)
  ∧ (∀ c : StoredCopy, c.mark = false ∨ crc32 c.bytes ≠ c.crc → verified c = .empty)
  ∧ (∀ (c : StoredCopy) (secs : List Sec), c.mark = true → crc32 c.bytes = c.crc → readSections c.bytes.length c.bytes = some secs →
      verified c = .valid (profileFrom secs))
  ∧ (∀ s : State, s.powered = true →
      ∃ t, exec .warmReset s = .next t ∧ AfterReset s t
        ∧ (∀ p, s.profile = .valid p → t.profile = .valid p) ∧ (profileOf s = none → t.profile = .empty)
        ∧ ∀ position, outputLevel t position = false)
  ∧ (∀ (s : State) (n : Nat) (p : Pump), 1 ≤ n → n ≤ 4 → s.plant.pumps[n - 1]? = some p → outputLevel s (n - 1) = p.startLine)
  ∧ (∀ (s : State) (v : Nat) (w : Valve), s.plant.valves[v]? = some w →
      (outputLevel s (v + 4) = true ↔ w.commandedOpen = true ∧ (v < 24 → tankData s v ≠ none)))
  ∧ ∀ (s : State) (position : Nat), s.plant.valves.length = 29 → 33 ≤ position → outputLevel s position = false

/-- Each second moves the uptime clock and a set call clock by one up to their ends and adds a second to each RUNNING pump (R22, R23, R101; log 21); a power loss stops the part, and leaves no validity mark when it cuts off the non-volatile write (R14; log 24). A part without power takes no command but POWER_ON (log 24). -/
def Obligations.SecondsAndPowerLoss : Prop :=
  (
  (∀ s : State, s.powered = true → ∃ t, exec .uptimeSecond s = .next t ∧ ChangesOnly [.clocks, .plant] s t
    ∧ (s.clocks.uptime < 4294967295 → t.clocks = { uptime := s.clocks.uptime + 1, call := s.clocks.call.map fun n => min 2147483647 (n + 1) })
    ∧ (4294967295 ≤ s.clocks.uptime → t.clocks = s.clocks)
    ∧ t.plant = { s.plant with pumps := t.plant.pumps } ∧ t.plant.pumps.length = s.plant.pumps.length
    ∧ (∀ (i : Nat) (p : Pump), s.plant.pumps[i]? = some p →
        t.plant.pumps[i]? = some (if p.state = .running then { p with runSeconds := min 4294967295 (p.runSeconds + 1) } else p)))
  ∧ (∀ (s : State) (r : LoadRecord) (c : Closing), s.powered = true → s.profile = .loading r → r.closing = some c → c.writing = true →
      exec .powerLoss s = .next { s with powered := false, stored := { s.stored with mark := false } })
  ∧ ∀ s : State, s.powered = true → (∀ r c, s.profile = .loading r → r.closing = some c → c.writing = false) →
      exec .powerLoss s = .next { s with powered := false })
  ∧
  (
  ∀ (c : Instr) (s : State), s.powered = false → c ≠ .powerOn → exec c s = .next s)

/-- WRST is answered OK and stops the console's input; when that reply has been sent the part is reset as by RSTN (R193). -/
def Obligations.WrstEndsInAWarmReset : Prop :=
  (∀ (k : Nat) (s : State), Asked s .console k .wrst → exec (.wrst k) s = .next (reply { s with wrstPending := true } .console k .ok []))
  ∧ (∀ (s : State) (bytes : List Byte), s.wrstPending = true →
      exec (.startByteFound .console bytes) s = .next s ∧ exec (.frameReceived .console bytes) s = .next s
        ∧ exec (.frameDiscarded .console bytes) s = .next s)
  ∧ ∀ (s : State) (k : Nat) (r : Reply) (w : List Byte) (sl : Slot), s.wrstPending = true →
      s.console.tx = some { frame := .class1 (.reply r), wire := w } → r.slot = some k → slotAt s .console k = some sl → sl.request = .wrst →
      exec (.replyTransmitComplete .console) s = exec .warmReset s

/-! ### Bytes -/

/-- A frame that the part lays out is read back from the bytes of a link, whatever follows it; so is a body of field elements (R188, R194). A number that the part writes in a reply is read back as itself (R195). -/
def Obligations.FramesAndNumbersReadBack : Prop :=
  (
  (∀ (kind : List Byte) (tag : Byte) (body rest : List Byte), kind.length = 4 → body.length ≤ 1024 →
    readFrame (frameBytes kind tag body ++ rest) = .frame kind tag body rest)
  ∧ ∀ fields : List (Field × Val), (∀ f ∈ fields, (valBytes f.2).length ≤ 255) →
      readElements (bodyBytes fields).length (bodyBytes fields) = some (fields.map fun f => { name := fieldAscii f.1, value := valBytes f.2 }))
  ∧
  (
  ∀ x : Int, -(2 ^ 63) ≤ x → x < 2 ^ 63 → intOfBytes (numBytes x) = x)

/-- The section bytes of accepted sections, stored one after the other, are read back as those sections in their stored order (R3, R15). -/
def Obligations.StoredSectionsReadBack : Prop :=
  ∀ secs : List Sec, (∀ x ∈ secs, sdLengthOk x.name x.data = true ∧ x.index ≤ 255) →
    readSections (secs.flatMap sectionBytes).length (secs.flatMap sectionBytes) = some secs

/-! ### Links -/

/-- A hunting receiver discards every byte before a start byte and collects from it; without one it discards all (R188; log 30). A frame with an over-long length or a CRC that does not match is damaged; a damaged frame, and one whose next byte has not come in for two seconds, is discarded without a reply, and the receiver hunts from the byte after its start byte (R188; log 30). -/
def Obligations.ReceiverHuntsAndDiscards : Prop :=
  (
  ∀ (l : Link) (s : State), Listening s l → (portOf s l).rx.collecting = false → (∀ b ∈ (portOf s l).rx.bytes, b ≠ 0x5A#8) →
    (∀ noise rest : List Byte, (∀ b ∈ noise, b ≠ 0x5A#8) →
      exec (.startByteFound l (noise ++ 0x5A#8 :: rest)) s
        = .next (setPort s l { portOf s l with rx := { collecting := true, bytes := 0x5A#8 :: rest, lastByteAt := s.clocks.uptime } }))
    ∧ ∀ noise : List Byte, noise ≠ [] → (∀ b ∈ noise, b ≠ 0x5A#8) →
      exec (.startByteFound l noise) s
        = .next (setPort s l { portOf s l with rx := { collecting := false, bytes := [], lastByteAt := s.clocks.uptime } }))
  ∧
  (
  (∀ bytes : List Byte, 3 ≤ bytes.length → 1024 < natOfBytes ((bytes.drop 1).take 2) → readFrame bytes = .bad)
  ∧ (∀ (kind : List Byte) (tag : Byte) (body rest : List Byte) (crc : Crc16), kind.length = 4 → body.length ≤ 1024 →
      crc ≠ crc16 (natBytes 2 body.length ++ kind ++ [tag] ++ body) →
      readFrame ([0x5A#8] ++ (natBytes 2 body.length ++ kind ++ [tag] ++ body) ++ natBytes 2 crc.toNat ++ rest) = .bad)
  ∧ (∀ (l : Link) (s : State) (bytes : List Byte), Listening s l → (portOf s l).rx.collecting = true → bytes ≠ [] →
      readFrame ((portOf s l).rx.bytes ++ bytes) = .bad →
      exec (.frameDiscarded l bytes) s = .next (setPort s l { portOf s l with
        rx := { collecting := false, bytes := ((portOf s l).rx.bytes ++ bytes).tail, lastByteAt := s.clocks.uptime } }))
  ∧ ∀ (l : Link) (s : State), s.powered = true → (portOf s l).rx.collecting = true → readFrame (portOf s l).rx.bytes = .incomplete →
      ((portOf s l).rx.lastByteAt + 2 ≤ s.clocks.uptime →
        exec (.frameIncompleteTimeout l) s = .next (setPort s l { portOf s l with
          rx := { collecting := false, bytes := (portOf s l).rx.bytes.tail, lastByteAt := (portOf s l).rx.lastByteAt } }))
      ∧ (s.clocks.uptime < (portOf s l).rx.lastByteAt + 2 → exec (.frameIncompleteTimeout l) s = .next s))

/-- A received frame is dealt with in the order of R190: UNKNOWN, BUSY, the terminal port's STATE in LOST with LS, FORMAT, and else a slot that holds the request for its owner, with an arrival number above those held (R12; log 51); the receiver hunts on in the bytes that follow (log 10, 30). With 8 port replies waiting, a frame that would need a ninth is discarded as a damaged one is and the receiver hunts from the byte after its start byte (log 8); a request that finds a slot is taken all the same. -/
def Obligations.ReceivedFrameIsDealtWith : Prop :=
  ∀ (l : Link) (s : State) (bytes kind : List Byte) (tag : Byte) (body rest : List Byte), Listening s l → (portOf s l).rx.collecting = true →
    bytes ≠ [] → (portOf s l).rx.bytes ++ bytes = frameBytes kind tag body ++ rest → kind.length = 4 → body.length ≤ 1024 →
    let rx : Receiver := { collecting := false, bytes := rest, lastByteAt := s.clocks.uptime }
    let answered := fun (oc : Oc) (fs : List (Field × Val)) =>
      (portRepliesWaiting (portOf s l) < 8 →
        exec (.frameReceived l bytes) s = .next (setPort s l { portOf s l with
          rx := rx,
          queue := (portOf s l).queue ++ [.reply { slot := none, tag := tag, kind := kind, outcome := oc, callState := s.call, fields := fs }] }))
      ∧ (8 ≤ portRepliesWaiting (portOf s l) →
        exec (.frameReceived l bytes) s = .next (setPort s l { portOf s l with
          rx := { collecting := false, bytes := ((portOf s l).rx.bytes ++ bytes).tail, lastByteAt := s.clocks.uptime } }))
    (kindOf l kind = none → answered .unknown [])
    ∧ ∀ k, kindOf l kind = some k →
      (freeSlot (portOf s l) = none → answered .busy [])
      ∧ ∀ n, freeSlot (portOf s l) = some n →
        (l = .terminal ∧ s.term.state = .lost ∧ k ≠ .TATT → answered .state [(.LS, .num 3)])
        ∧ (¬(l = .terminal ∧ s.term.state = .lost ∧ k ≠ .TATT) →
          (parseBody k body = none → answered .format [])
          ∧ ∀ r, parseBody k body = some r →
            ∃ arrival, (∀ j x, slotAt s l j = some x → x.arrival < arrival)
              ∧ exec (.frameReceived l bytes) s = .next (setPort s l { portOf s l with
                rx := rx,
                slots := modAt (portOf s l).slots n fun _ => some { request := r, kind := k, tag := tag, phase := .handed, arrival := arrival } }))

/-- A free transmitter takes the first frame of class 1; where none waits the console's takes the NOTE owed first, with what the condition holds now; where none is owed the oldest record whose flag for the link is pending, with the link's gap count, unless a record is being sent on the link, or the link is the terminal's and DETACHED or LOST; a busy one is left alone, and with a WRST pending the console's takes class 1 alone (R176, R184, R192, R193). -/
def Obligations.TransmitterChoosesByClass : Prop :=
  ∀ (l : Link) (s : State), s.powered = true →
    ((portOf s l).tx ≠ none → exec (.frameTransmitStart l) s = .next s)
    ∧ ((portOf s l).tx = none →
      (∀ f rest, (portOf s l).queue = f :: rest →
        exec (.frameTransmitStart l) s
          = .next (setPort s l { portOf s l with queue := rest, tx := some { frame := .class1 f, wire := txBytes (.class1 f) } }))
      ∧ ((portOf s l).queue = [] →
        (l = .console ∧ s.wrstPending = true → exec (.frameTransmitStart l) s = .next s)
        ∧ (¬(l = .console ∧ s.wrstPending = true) →
          (∀ n rest c, l = .console → s.attention.owed = n :: rest → s.attention.conditions[n]? = some c →
            exec (.frameTransmitStart l) s = .next { s with
              attention := { s.attention with owed := rest },
              console := { s.console with
                tx := some { frame := .note { condition := n, first := c.first, latest := c.latest, count := c.count },
                             wire := txBytes (.note { condition := n, first := c.first, latest := c.latest, count := c.count }) } } })
          ∧ ((l = .console → s.attention.owed = []) →
            let silent := (∃ x ∈ s.reports.queue, linkFlag l x = .sending) ∨ (l = .terminal ∧ (s.term.state = .detached ∨ s.term.state = .lost))
            (silent ∨ (∀ x ∈ s.reports.queue, linkFlag l x ≠ .pending) → exec (.frameTransmitStart l) s = .next s)
            ∧ ∀ older r newer, ¬silent → s.reports.queue = older ++ r :: newer → (∀ x ∈ older, linkFlag l x ≠ .pending) → linkFlag l r = .pending →
              exec (.frameTransmitStart l) s = .next (setPort
                { s with reports := { s.reports with
                    queue := s.reports.queue.map fun x => if x.serial = r.serial then withLinkFlag l .sending x else x } } l
                { portOf s l with
                  tx := some { frame := .rprt (withLinkFlag l .sending r) (gapOf l s.reports),
                               wire := txBytes (.rprt (withLinkFlag l .sending r) (gapOf l s.reports)) } })))))

/-- When a reply has been sent its slot is free and so is the transmitter; a NOTE, GRNT, HALT or BLKD frees the transmitter alone (R191, R192; log 7). -/
def Obligations.SentFramesFreeTheLink : Prop :=
  (∀ (l : Link) (s : State) (r : Reply) (w : List Byte) (k : Nat), s.powered = true → ¬(l = .console ∧ s.wrstPending = true) →
    (portOf s l).tx = some { frame := .class1 (.reply r), wire := w } → r.slot = some k →
    exec (.replyTransmitComplete l) s
      = .next (setPort s l { portOf s l with tx := none, slots := modAt (portOf s l).slots k fun _ => none }))
  ∧ (∀ (l : Link) (s : State) (r : Reply) (w : List Byte), s.powered = true →
      (portOf s l).tx = some { frame := .class1 (.reply r), wire := w } → r.slot = none →
      exec (.replyTransmitComplete l) s = .next (setPort s l { portOf s l with tx := none }))
  ∧ (∀ (l : Link) (s : State) (u : Unsolicited) (w : List Byte), s.powered = true →
      (portOf s l).tx = some { frame := .class1 (.unsolicited u), wire := w } →
      exec (.replyTransmitComplete l) s = .next (setPort s l { portOf s l with tx := none }))
  ∧ ∀ (l : Link) (s : State) (n : Note) (w : List Byte), s.powered = true →
      (portOf s l).tx = some { frame := .note n, wire := w } →
      exec (.replyTransmitComplete l) s = .next (setPort s l { portOf s l with tx := none })

/-- A delivery lowers the link's gap counter by the carried count and clears the record's flag for the link; with both flags clear the record leaves the queue and the pour gate is told its serial: an outstanding STEP report of that serial becomes none, and a WAITING step is rechecked (R141, R145, R174, R177); a DEPARTURE record that leaves in CLOSING ends the call; with one flag left it stays, but where its console flag is clear and the terminal is DETACHED it is removed without a gap and the call ends (R20, R177). In CLOSING a delivery of a record that CEND removed leaves the DEPARTURE record as it is (R180), and one that is delivered only in a new call lowers its gap counter alone (log 43). -/
def Obligations.DeliveriesClearTheRecord : Prop :=
  (∀ (l : Link) (s : State) (x q : Report) (carried : Nat) (w : List Byte), s.powered = true → s.call ≠ .closing →
    (portOf s l).tx = some { frame := .rprt x carried, wire := w } → s.reports.queue.find? (isSending l) = some q →
    ∃ t, exec (.delivery l) s = .next t ∧ ChangesOnly [portBlock l, .reports, .pour, .engine] s t
      ∧ portOf t l = { portOf s l with tx := none } ∧ gapOf l t.reports = gapOf l s.reports - carried
      ∧
      let cleared := s.reports.queue.map fun y => if isSending l y then withLinkFlag l .clear y else y
      let lowered := withGap l (gapOf l s.reports - carried) s.reports
      let holding := fun (queue : List Report) => setPort { s with reports := { lowered with queue := queue } } l { portOf s l with tx := none }
      ((withLinkFlag l .clear q).consoleFlag = .clear ∧ (withLinkFlag l .clear q).terminalFlag = .clear →
          t.reports.queue = cleared.filter (fun y => y.serial != q.serial)
          ∧
          let left := holding (cleared.filter fun y => y.serial != q.serial)
          t = recheck (if s.pour.outstanding = some q.serial then { left with pour := { left.pour with outstanding := none } } else left))
      ∧ (¬((withLinkFlag l .clear q).consoleFlag = .clear ∧ (withLinkFlag l .clear q).terminalFlag = .clear) → t = holding cleared))
  ∧ (∀ (l : Link) (s : State) (x : Report) (carried : Nat) (w : List Byte), s.powered = true → s.call ≠ .closing →
      (portOf s l).tx = some { frame := .rprt x carried, wire := w } → s.reports.queue.find? (isSending l) = none →
      exec (.delivery l) s
        = .next (setPort { s with reports := withGap l (gapOf l s.reports - carried) s.reports } l { portOf s l with tx := none }))
  ∧ ∀ (l : Link) (s : State) (x q : Report) (carried : Nat) (w : List Byte), s.powered = true → s.call = .closing →
      (portOf s l).tx = some { frame := .rprt x carried, wire := w } → s.reports.queue = [q] → q.kind = .departure →
      let q' := withLinkFlag l .clear q
      let lowered := withGap l (gapOf l s.reports - carried) s.reports
      (isSending l q = true →
        (q'.consoleFlag = .clear → q'.terminalFlag = .clear →
          ∃ t, exec (.delivery l) s = .next t ∧ t.call = .idle ∧ t.reports.queue = [] ∧ t.gauge = { s.gauge with timer := none, round := none }
            ∧
            let left := setPort { s with reports := { lowered with queue := [] } } l { portOf s l with tx := none }
            let told := recheck (if s.pour.outstanding = some q.serial then { left with pour := { left.pour with outstanding := none } } else left)
            t = { told with call := .idle, gauge := { s.gauge with timer := none, round := none } })
        ∧ (q'.consoleFlag = .clear → q'.terminalFlag ≠ .clear → s.term.state = .detached →
          exec (.delivery l) s = .next (setPort { s with
            call := .idle, reports := { lowered with queue := [] }, gauge := { s.gauge with timer := none, round := none } } l { portOf s l with tx := none }))
        ∧ (¬(q'.consoleFlag = .clear ∧ (q'.terminalFlag = .clear ∨ s.term.state = .detached)) →
          exec (.delivery l) s = .next (setPort { s with reports := { lowered with queue := [q'] } } l { portOf s l with tx := none })))
      ∧ (isSending l q = false → ¬(q.consoleFlag = .clear ∧ s.term.state = .detached) →
        exec (.delivery l) s = .next (setPort { s with reports := lowered } l { portOf s l with tx := none }))

/-! ### The profile -/

/-- POPN opens an empty load and clears the validity mark, in EMPTY, in an open load, and in IDLE with a VALID profile, which it withdraws; every PREV whose preview runs or waits is then answered STATE, in NO_PROFILE (R72; log 38 for their order, log 23); it is refused with BUSY while the load closes and with STATE in a call (R11). -/
def Obligations.PopnOpensALoad : Prop :=
  (∀ (k : Nat) (s : State), Asked s .console k .popn → (s.profile = .empty ∨ ∃ r, s.profile = .loading r ∧ r.closing = none) →
    exec (.popn k) s = .next (reply { s with
      profile := .loading { sections := [], crc := 0xFFFFFFFF#32, byteCount := 0, closing := none },
      stored := { s.stored with mark := false } } .console k .ok []))
  ∧ (∀ (k : Nat) (s : State) (r : LoadRecord) (c : Closing), Asked s .console k .popn → s.profile = .loading r → r.closing = some c →
      exec (.popn k) s = .next (reply s .console k .busy []))
  ∧ (∀ (k : Nat) (s : State) (p : Profile), Asked s .console k .popn → s.profile = .valid p → s.call ≠ .idle →
      exec (.popn k) s = .next (reply s .console k .state []))
  ∧ ∀ (k : Nat) (s : State) (p : Profile), Asked s .console k .popn → s.profile = .valid p → s.call = .idle →
      ∃ t, exec (.popn k) s = .next t
        ∧ ChangesOnly [.profile, .stored, .call, .tanks, .engine, .hull, .attention, .console] s t
        ∧ t.profile = .loading { sections := [], crc := 0xFFFFFFFF#32, byteCount := 0, closing := none }
        ∧ t.stored = { s.stored with mark := false } ∧ t.call = .noProfile ∧ t.tanks = [] ∧ t.engine = Engine.initial ∧ t.hull = Hull.initial
        ∧
        let requesters := (match s.engine.running with
          | some { kind := .preview e _, .. } => [e.requester]
          | _ => []) ++ s.engine.previews.map PreviewEntry.requester
        let withdrawn := requesters.filterMap fun r => match r with
          | .console j => some j
          | _ => none
        let refused := withdrawn.filterMap fun j => (slotAt s .console j).map fun x => Class1.reply
          { slot := some j, tag := x.tag, kind := kindAscii x.kind, outcome := .state, callState := .noProfile, fields := [] }
        (∀ j x, slotAt s .console j = some x → slotAt t .console j = some { x with phase := if j = k ∨ j ∈ withdrawn then .replied else x.phase })
        ∧ ∀ sl, slotAt s .console k = some sl →
            t.console.queue = s.console.queue ++ refused
              ++ [.reply { slot := some k, tag := sl.tag, kind := kindAscii sl.kind, outcome := .ok, callState := .noProfile, fields := [] }]

/-- PDAT makes the seven tests of R12 in their order, and the section it accepts joins the load record, the running CRC and the byte count. A PDAT whose turn has not come has no effect: it waits while one that arrived before it is not dealt with, so that sections are accepted in the order of their arrival (R12; that its command changes nothing and may come again is the model's, log 1, 51). -/
def Obligations.PdatTestsInOrder : Prop :=
  (∀ (s : State) (k j : Nat) (x y : Slot), slotAt s .console k = some x → slotAt s .console j = some y →
    (∃ sn xi sd, x.request = .pdat sn xi sd) → (∃ sn xi sd, y.request = .pdat sn xi sd) → y.phase = .handed → y.arrival < x.arrival →
    exec (.pdat k) s = .next s)
  ∧ ∀ (k : Nat) (s : State) (sn : List Byte) (xi : Int) (sd : List Byte), Asked s .console k (.pdat sn xi sd) →
    ((∀ r, s.profile ≠ .loading r) → exec (.pdat k) s = .next (reply s .console k .state []))
    ∧ ∀ r, s.profile = .loading r →
      (r.closing ≠ none → exec (.pdat k) s = .next (reply s .console k .busy []))
      ∧ (r.closing = none →
        (secOf sn = none → exec (.pdat k) s = .next (reply s .console k .format []))
        ∧ ∀ n, secOf sn = some n →
          (¬((indexRange n).1 ≤ xi ∧ xi ≤ (indexRange n).2) → exec (.pdat k) s = .next (reply s .console k .range []))
          ∧ ∀ i : Nat, xi = i → (indexRange n).1 ≤ i → i ≤ (indexRange n).2 →
            (sdLengthOk n sd = false → exec (.pdat k) s = .next (reply s .console k .format []))
            ∧ (sdLengthOk n sd = true →
              ((∃ x ∈ r.sections, x.name = n ∧ x.index = i) → exec (.pdat k) s = .next (reply s .console k .conflict []))
              ∧ ((∀ x ∈ r.sections, ¬(x.name = n ∧ x.index = i)) →
                exec (.pdat k) s = .next (reply { s with profile := .loading {
                    sections := r.sections ++ [{ name := n, index := i, data := sd }],
                    crc := crc32Run r.crc (secAscii n ++ natBytes 1 i ++ sd),
                    byteCount := r.byteCount + (4 + sd.length), closing := r.closing } }
                  .console k .ok [(.LL, .num (r.byteCount + (4 + sd.length) : Nat))]))))

/-- PCLS sets the closing flag and its reply waits; the checks answer PROFILE_CRC with the part's CRC, or PROFILE with the section that failed, and leave EMPTY, or begin the write; the write makes the profile VALID, answers OK in the call state still in force and then announces the profile, which moves the call state to IDLE and sets tank table and hull record, or it leaves EMPTY with PROFILE_CRC and no CR (R13, R14, R17; log 19). The structural checks stop at the first name and index, in the order of R13, at which a declared section is missing or breaks a check of R4 to R9, or an undeclared one is present (R3, R4, R5, R6, R7, R8, R9); the profile in force holds the fields of the accepted sections at the offsets of those tables. -/
def Obligations.LoadClosesByCheckAndWrite : Prop :=
  (∀ (k : Nat) (s : State) (cr : Crc32), Asked s .console k (.pcls cr) →
    ((∀ r, s.profile ≠ .loading r) → exec (.pcls k) s = .next (reply s .console k .state []))
    ∧ ∀ r, s.profile = .loading r →
      (r.closing ≠ none → exec (.pcls k) s = .next (reply s .console k .busy []))
      ∧ (r.closing = none →
        exec (.pcls k) s = .next (hold { s with profile := .loading { r with closing := some { slot := k, cr := cr, writing := false } } } .console k)))
  ∧ (∀ (s : State) (r : LoadRecord) (c : Closing), s.powered = true → s.profile = .loading r → r.closing = some c → c.writing = false →
      (~~~r.crc ≠ c.cr → exec .profileChecksComplete s
        = .next (reply { s with profile := .empty } .console c.slot .profileCrc [(.CR, .raw (natBytes 4 (~~~r.crc).toNat))]))
      ∧ (~~~r.crc = c.cr →
        (∀ n i, firstFailure r.sections = some (n, i) → exec .profileChecksComplete s
          = .next (reply { s with profile := .empty } .console c.slot .profile [(.SN, .raw (secAscii n)), (.XI, .num i)]))
        ∧ (firstFailure r.sections = none → exec .profileChecksComplete s
          = .next { s with profile := .loading { r with closing := some { c with writing := true } } })))
  ∧ (∀ (s : State) (r : LoadRecord) (c : Closing) (back : List Byte), s.powered = true → s.profile = .loading r → r.closing = some c →
      c.writing = true →
      (crc32 back ≠ c.cr → exec (.nonVolatileWriteComplete back) s
        = .next (reply { s with profile := .empty, stored := { mark := false, bytes := back, count := r.byteCount, crc := c.cr } }
            .console c.slot .profileCrc []))
      ∧ (crc32 back = c.cr → ∃ t, exec (.nonVolatileWriteComplete back) s = .next t
        ∧ ChangesOnly [.profile, .stored, .call, .tanks, .hull, .attention, .console] s t
        ∧ t.profile = .valid (profileFrom r.sections) ∧ t.stored = { mark := true, bytes := back, count := r.byteCount, crc := c.cr }
        ∧ t.call = .idle ∧ t.tanks = (profileFrom r.sections).tanks.map Tank.initial ∧ t.hull = Hull.initial
        ∧ Replied s t .console c.slot .ok []))
  ∧ ∀ secs : List Sec, (∀ x ∈ secs, sdLengthOk x.name x.data = true) →
      let held := fun (n : SecName) (i : Nat) => (secs.find? fun x => x.name = n && x.index = i).map Sec.data
      let data := fun (n : SecName) (i : Nat) => (held n i).getD []
      let u := fun (d : List Byte) (off w : Nat) => natOfBytes ((d.drop off).take w)
      let sg := fun (d : List Byte) (off w : Nat) => intOfBytes ((d.drop off).take w)
      let gen := data .gen 0
      let declared := fun (n : SecName) (i : Nat) => match n with
        | .gen => i = 0
        | .tnk | .snd => i < u gen 8 1
        | .hld => 1 ≤ i ∧ i ≤ u gen 9 1
        | .frm | .ksf | .kbm => 1 ≤ i ∧ i ≤ u gen 10 1
        | .hyd => i < u gen 11 1
      let sound := fun (n : SecName) (i : Nat) (d : List Byte) => match n with
        | .gen => 1 ≤ u d 0 4 ∧ u d 0 4 ≤ 150000 ∧ u d 4 4 ≤ 40000 ∧ 1 ≤ u d 8 1 ∧ u d 8 1 ≤ 24 ∧ 1 ≤ u d 9 1 ∧ u d 9 1 ≤ 9
            ∧ 1 ≤ u d 10 1 ∧ u d 10 1 ≤ 12 ∧ 2 ≤ u d 11 1 ∧ u d 11 1 ≤ 16
        | .tnk => (∀ b ∈ d.take 4, 0x20 ≤ b.toNat ∧ b.toNat ≤ 0x7E) ∧ u d 4 1 ≤ 1 ∧ u d 5 4 ≤ 40000 ∧ 1 ≤ u d 9 2 ∧ u d 9 2 ≤ 30000
            ∧ u d 11 2 < u d 9 2 ∧ 1000 ≤ u d 13 2 ∧ u d 13 2 ≤ 1050 ∧ u d 15 2 ≤ 2000 ∧ (u d 17 1 ≤ 31 ∨ u d 17 1 = 255)
            ∧ (u d 17 1 = 255 ∨ ∀ j, j < i → u (data .tnk j) 17 1 ≠ u d 17 1)
        | .snd => (∀ j, j < u d 0 1 → u d (1 + 6 * j) 2 ≤ 30000 ∧ u d (3 + 6 * j) 4 ≤ 1000000) ∧ u d 1 2 = 0
            ∧ (∀ j, j + 1 < u d 0 1 → u d (1 + 6 * j) 2 < u d (1 + 6 * (j + 1)) 2 ∧ u d (3 + 6 * j) 4 ≤ u d (3 + 6 * (j + 1)) 4)
            ∧ u (data .tnk i) 9 2 ≤ u d (1 + 6 * (u d 0 1 - 1)) 2
        | .hld => (∀ b ∈ d.take 4, 0x20 ≤ b.toNat ∧ b.toNat ≤ 0x7E) ∧ u d 4 4 ≤ 40000 ∧ 1 ≤ u d 8 4 ∧ u d 8 4 ≤ 150000
        | .frm => u d 0 4 ≤ 40000 ∧ -99999999 ≤ sg d 4 4 ∧ sg d 4 4 ≤ 99999999 ∧ -999999999 ≤ sg d 8 4 ∧ sg d 8 4 ≤ 999999999
            ∧ 1 ≤ u d 12 4 ∧ u d 12 4 ≤ 99999999 ∧ 1 ≤ u d 16 4 ∧ u d 16 4 ≤ 99999999
            ∧ 1 ≤ u d 20 4 ∧ u d 20 4 ≤ 999999999 ∧ 1 ≤ u d 24 4 ∧ u d 24 4 ≤ 999999999
            ∧ (2 ≤ i → u (data .frm (i - 1)) 0 4 < u d 0 4)
        | .ksf | .kbm => (∀ c, c < 24 → u gen 8 1 ≤ c → sg d (2 * c) 2 = 0) ∧ ∀ h, 1 ≤ h → h ≤ 9 → u gen 9 1 < h → sg d (2 * (23 + h)) 2 = 0
        | .hyd => 1 ≤ u d 0 4 ∧ u d 0 4 ≤ 400000 ∧ u d 4 2 ≤ 30000 ∧ u d 6 4 ≤ 40000 ∧ 1 ≤ u d 10 4 ∧ u d 10 4 ≤ 2000000
            ∧ (1 ≤ i → u (data .hyd (i - 1)) 0 4 < u d 0 4)
      let passes := fun (x : SecName × Nat) => (declared x.1 x.2 → ∃ d, held x.1 x.2 = some d ∧ sound x.1 x.2 d)
        ∧ (¬declared x.1 x.2 → held x.1 x.2 = none)
      let run := fun (n : SecName) (first count : Nat) => (List.range count).map fun i => (n, first + i)
      let order := [(SecName.gen, 0)] ++ run .tnk 0 24 ++ run .snd 0 24 ++ run .hld 1 9 ++ run .frm 1 12 ++ run .ksf 1 12 ++ run .kbm 1 12
        ++ run .hyd 0 16
      (firstFailure secs = none ↔ ∀ x ∈ order, passes x)
      ∧ (∀ (before after : List (SecName × Nat)) (x : SecName × Nat), order = before ++ x :: after → (∀ y ∈ before, passes y) → ¬passes x →
          firstFailure secs = some x)
      ∧ (profileFrom secs).w0 = u gen 0 4 ∧ (profileFrom secs).x0 = u gen 4 4
      ∧ (profileFrom secs).tanks.length = u gen 8 1 ∧ (profileFrom secs).holds.length = u gen 9 1
      ∧ (profileFrom secs).frames.length = u gen 10 1 ∧ (profileFrom secs).rows.length = u gen 11 1
      ∧ (∀ i, i < u gen 8 1 →
          let d := data .tnk i
          let e := data .snd i
          (profileFrom secs).tanks[i]? = some {
            name := d.take 4, main := if u d 4 1 = 0 then .port else .stbd, lcg := u d 5 4, maxLevel := u d 9 2, minLevel := u d 11 2
            density := u d 13 2, allowance := u d 15 2, channel := if u d 17 1 = 255 then none else some (u d 17 1)
            points := (List.range (u e 0 1)).map fun j => { level := u e (1 + 6 * j) 2, volume := u e (3 + 6 * j) 4 } })
      ∧ (∀ h, 1 ≤ h → h ≤ u gen 9 1 →
          let d := data .hld h
          (profileFrom secs).holds[h - 1]? = some { name := d.take 4, lcg := u d 4 4, capacity := u d 8 4 })
      ∧ (∀ f, 1 ≤ f → f ≤ u gen 10 1 →
          let d := data .frm f
          (profileFrom secs).frames[f - 1]? = some {
            position := u d 0 4, sf0 := sg d 4 4, bm0 := sg d 8 4, sfPos := u d 12 4, sfNeg := u d 16 4, hog := u d 20 4, sag := u d 24 4
            kS := (List.range 33).map fun c => sg (data .ksf f) (2 * c) 2
            kB := (List.range 33).map fun c => sg (data .kbm f) (2 * c) 2 })
      ∧ ∀ i, i < u gen 11 1 →
          let d := data .hyd i
          (profileFrom secs).rows[i]? = some { displacement := u d 0 4, meanDraft := u d 4 2, lcb := u d 6 4, mctc := u d 10 4 }

/-! ### The call -/

/-- COPN in IDLE opens the call: the next report takes serial 1, the gap counters are 0, every hold is at mass 0 with source TALLY, the scan timer runs, the hull record holds band NONE, a live evaluation is requested, and the reply is OK; elsewhere it is refused with STATE (R18). -/
def Obligations.CopnOpensACall : Prop :=
  (∀ (k : Nat) (s : State), Asked s .console k .copn → s.call ≠ .idle → exec (.copn k) s = .next (reply s .console k .state []))
  ∧ ∀ (k : Nat) (s : State), Asked s .console k .copn → s.call = .idle →
      ∃ t, exec (.copn k) s = .next t ∧ ChangesOnly [.call, .reports, .pour, .gauge, .hull, .attention, .engine, .console] s t
        ∧ t.call = .inCall ∧ t.reports = { s.reports with counter := some 0, consoleGap := 0, terminalGap := 0 }
        ∧ t.pour = { s.pour with holds := List.replicate 9 Hold.initial, outstanding := none }
        ∧ t.gauge = { s.gauge with timer := some (s.clocks.uptime + s.settings.sc.toNat) } ∧ t.hull = Hull.initial
        ∧ (s.engine.running ≠ none → t.engine = { s.engine with pendingLive := true })
        ∧ (∀ p, s.engine.running = none → s.engine.previews = [] → s.profile = .valid p →
            t.engine.pendingLive = false ∧ t.engine.running = some { kind := .live s.engine.reportMark, inputs := latch t p })
        ∧ t.console = (reply { s with call := .inCall } .console k .ok []).console

/-- CEND is refused with STATE outside IN_CALL and with BUSY while an order is not terminal or a step is POURING, HALTED or SETTLING; accepted it leaves the DEPARTURE record alone in the queue and clears plan, holds, orders, windows, attention unit, engine and hull record, and is answered OK as the last reply (R19, R20); before it every PREV whose preview runs or waits and every pending SREQ is answered STATE, in CLOSING (R72, R144, R157; log 38 for the order of the PREVs). The DEPARTURE record is composed before the clearing (log 23), and base and mask of the cleared windows are 0 (log 32). The reply is composed after the test of R20 and shows the call state then in force (log 47). -/
def Obligations.CendClosesTheCall : Prop :=
  (∀ (k : Nat) (s : State), Asked s .console k .cend →
    (s.call ≠ .inCall → exec (.cend k) s = .next (reply s .console k .state []))
    ∧ (s.call = .inCall →
      ((∃ o, some o ∈ s.orders.slots ∧ o.state ≠ .done ∧ o.state ≠ .failed ∧ o.state ≠ .cancelled)
          ∨ (∃ st ∈ s.pour.plan, st.state = .pouring ∨ st.state = .halted ∨ st.state = .settling) →
        exec (.cend k) s = .next (reply s .console k .busy []))))
  ∧ ∀ (k n : Nat) (s : State), Asked s .console k .cend → s.call = .inCall → s.reports.counter = some n →
      (∀ o, some o ∈ s.orders.slots → o.state = .done ∨ o.state = .failed ∨ o.state = .cancelled) →
      (∀ st ∈ s.pour.plan, st.state ≠ .pouring ∧ st.state ≠ .halted ∧ st.state ≠ .settling) →
      ∃ t, exec (.cend k) s = .next t ∧ ChangesOnly (touches (.cend k)) s t
        ∧ t.pour = Pour.initial ∧ t.orders = { Orders.initial with rank := s.orders.rank } ∧ t.attention = Attention.initial
        ∧ t.engine = Engine.initial ∧ t.hull = Hull.initial ∧ t.tanks = s.tanks.map (fun x => { x with held := false })
        ∧ t.term = { s.term with quietTimer := none, count := 0 }
        ∧ (let requesters := (match s.engine.running with
              | some { kind := .preview e _, .. } => [e.requester]
              | _ => []) ++ s.engine.previews.map PreviewEntry.requester
           let withdrawn := requesters.filterMap fun r => match r with
              | .console j => some j
              | _ => none
           let pending := s.pour.plan.filterMap Step.replyPending
           let refused := fun (l : Link) (slots : List Nat) => slots.filterMap fun j => (slotAt s l j).map fun x => Class1.reply
              { slot := some j, tag := x.tag, kind := kindAscii x.kind, outcome := .state, callState := .closing, fields := [] }
           (∀ j x, slotAt s .console j = some x →
              slotAt t .console j = some { x with phase := if j = k ∨ j ∈ withdrawn then .replied else x.phase })
           ∧ (∀ j x, slotAt s .terminal j = some x → slotAt t .terminal j = some { x with phase := if j ∈ pending then .replied else x.phase })
           ∧ t.terminal.queue = s.terminal.queue ++ refused .terminal pending
           ∧ ∀ sl, slotAt s .console k = some sl → t.console.queue = s.console.queue ++ refused .console withdrawn
              ++ [.reply { slot := some k, tag := sl.tag, kind := kindAscii sl.kind, outcome := .ok, callState := t.call, fields := [] }])
        ∧ (s.reports.departureSet.route = .terminal ∧ s.term.state = .detached →
            t.call = .idle ∧ t.reports.queue = [] ∧ t.gauge = { s.gauge with timer := none, round := none })
        ∧ (¬(s.reports.departureSet.route = .terminal ∧ s.term.state = .detached) →
            t.call = .closing ∧ t.gauge = s.gauge
              ∧ t.reports = { Reports.initial with
                  queue := [compose { s with call := .closing } .departure none (n + 1)]
                  consoleGap := s.reports.consoleGap
                  terminalGap := s.reports.terminalGap })

/-- CLKS sets the call clock to a CL of 0 to 2,147,483,647 and answers with it and the uptime; another CL is refused with RANGE (R23). SETP clamps each value to its range, DB first lowered to a multiple of 10; refuses all with RANGE where TN would not lie below TX; else puts every value in force, answers CLAMPED or OK with the values, and requests a live evaluation in a call when DL, TN or TX has changed (R25, R26); the reply names the values in the order of the request (log 44). -/
def Obligations.ClockAndSettingsAreSet : Prop :=
  (
  (∀ (k n : Nat) (s : State), Asked s .console k (.clks n) → n ≤ 2147483647 →
    exec (.clks k) s = .next (reply { s with clocks := { s.clocks with call := some n } } .console k .ok
      [(.CL, .num n), (.RV, .num s.clocks.uptime)]))
  ∧ ∀ (k : Nat) (cl : Int) (s : State), Asked s .console k (.clks cl) → cl < 0 ∨ 2147483647 < cl →
      exec (.clks k) s = .next (reply s .console k .range []))
  ∧
  (
  ∀ (k : Nat) (s : State) (vs : List (Field × Int)), Asked s .console k (.setp vs) → (vs.map Prod.fst).Nodup →
    (∀ fv ∈ vs, fv.1 ∈ settingFields) →
    let clamp := fun (f : Field) (v : Int) =>
      saturate (settingRange f).1 (settingRange f).2 (if f = .DB then v / 10 * 10 else v)
    let inForce := fun (f : Field) => ((vs.find? fun fv => fv.1 = f).map fun fv => clamp f fv.2).getD (getSetting s.settings f)
    (inForce .TX ≤ inForce .TN → exec (.setp k) s = .next (reply s .console k .range []))
    ∧ (inForce .TN < inForce .TX → ∃ t, exec (.setp k) s = .next t ∧ ChangesOnly [.settings, .engine, .console] s t
      ∧ (∀ f ∈ settingFields, getSetting t.settings f = inForce f)
      ∧ ((∀ f, f = .DL ∨ f = .TN ∨ f = .TX → inForce f = getSetting s.settings f) → t.engine = s.engine)
      ∧ (¬(∀ f, f = .DL ∨ f = .TN ∨ f = .TX → inForce f = getSetting s.settings f) →
          t.engine = (liveRequest { s with settings := t.settings } false).engine)
      ∧ Replied s t .console k (if ∀ fv ∈ vs, clamp fv.1 fv.2 = fv.2 then .ok else .clamped)
          (vs.map fun fv => (fv.1, .num (clamp fv.1 fv.2)))))

/-! ### Gauging -/

/-- A scan-period tick restarts the timer with SC in force and starts a round over the mapped channels where none runs; an empty round ends at its start (R27, R28). A conversion records its code, hands it to the tank mapped to its channel, which takes it by its gauge state, and moves the round on or ends it; no other channel and no other tank changes (R28, R32, R35, R40, R41). A good reading of a gauge in use, and one that reinstates, sends a level notice; a bad reading that withdraws raises GAUGE_WITHDRAWN and sends a gauge-lost notice, one that makes a NORMAL gauge SUSPECT raises GAUGE_SUSPECT (R35, R40, R41). A level notice moves the order on the tank and stops it at its target or with a full destination (R121, R122); a gauge-lost notice ends or stops it with NO_GAUGE (R127). At a round's end a live evaluation is requested in a call, the pour gate recomputes its estimate while the link is QUIET or LOST and rechecks its waiting step (R28, R145, R156; log 33, 41); that the recomputation makes the source ESTIMATE, whatever it was, is the model's reading (log 22). A conversion with no round running, and a tick that is not due, change nothing (log 1, 2); the arbiter's run that a notice calls for follows at the end of the conversion (log 14). -/
def Obligations.ScanRoundsReadTheTanks : Prop :=
  (
  ∀ s : State, s.powered = true →
    (due s.gauge.timer s.clocks.uptime = false → exec .scanPeriodTick s = .next s)
    ∧ (due s.gauge.timer s.clocks.uptime = true →
      (∀ r, s.gauge.round = some r →
        exec .scanPeriodTick s = .next { s with gauge := { s.gauge with timer := some (s.clocks.uptime + s.settings.sc.toNat) } })
      ∧ (s.gauge.round = none → mappedChannels s.tanks ≠ [] →
        exec .scanPeriodTick s = .next { s with gauge := { s.gauge with
          timer := some (s.clocks.uptime + s.settings.sc.toNat)
          round := some { channels := mappedChannels s.tanks, position := 0 } } })
      ∧ (s.gauge.round = none → mappedChannels s.tanks = [] →
        ∃ t, exec .scanPeriodTick s = .next t ∧ ChangesOnly [.gauge, .pour, .engine] s t
          ∧ t.gauge = { s.gauge with timer := some (s.clocks.uptime + s.settings.sc.toNat) }
          ∧ t = endRound { s with gauge := t.gauge })))
  ∧
  (
  (∀ s : State,
    let requested : State := if s.call = .inCall ∨ s.call = .closing then { s with engine := { s.engine with pendingLive := true } } else s
    endRound s = { recheck (choose (recomputeEstimate requested)) with gauge := { s.gauge with round := none } })
  ∧ (∀ s : State, ((s.term.state = .up ∨ s.term.state = .detached) ∨ ∀ y, currentStep s = some y → y.state ≠ .pouring ∧ y.state ≠ .halted) →
      recomputeEstimate s = s)
  ∧ (∀ (s : State) (y : Step) (b n : Nat) (h : Hold), s.term.state = .quiet ∨ s.term.state = .lost → currentStep s = some y →
      y.state = .pouring ∨ y.state = .halted → y.base = some b → y.lastTally = some n → holdRec s y.hold = some h → SettingsOk s.settings →
      let limit : Nat := ((y.planned : Int) * (100 + s.settings.oa) / 100).toNat
      let rate : Nat := match h.latest, h.previous with
        | some a, some c => if y.loaderStopped = true ∨ a.tonnes ≤ c.tonnes ∨ a.arrival ≤ c.arrival then 0 else (a.tonnes - c.tonnes) / (a.arrival - c.arrival)
        | _, _ => 0
      let since : Nat := match h.latest with | some a => s.clocks.uptime - a.arrival | none => 0
      let e := max (b + n) (min (b + limit) (b + n + rate * since))
      let withHold := fun (x : Hold) => { s with pour := { s.pour with holds := modAt s.pour.holds (y.hold - 1) fun _ => x } }
      (n ≤ limit → recomputeEstimate s = markLive (withHold { h with mass := e, source := .estimate, estimate := some e }) false)
      ∧ (limit < n → h.source = .estimate → recomputeEstimate s = withHold { h with mass := b + n, source := .tally, estimate := none })
      ∧ (limit < n → h.source ≠ .estimate → recomputeEstimate s = s)))
  ∧
  (
  (∀ (s : State) (i : Nat), (∀ o, some o ∈ s.orders.slots → needs o i = true → terminalState o.state = true) →
    levelNotice s i = s ∧ gaugeLost s i = s)
  ∧ ∀ (s : State) (i : Nat) (o : Order), OrdersOk s.orders → some o ∈ s.orders.slots → needs o i = true → terminalState o.state = false →
      (∀ x, some x ∈ s.orders.slots → needs x i = true → terminalState x.state = false → x = o) →
      let put := fun (x : Order) => { s with orders := { s.orders with slots := s.orders.slots.map fun z => if z = some o then some x else z } }
      let mass := massOf s i
      let moved := if o.action = .fill then mass - o.startMass else o.startMass - mass
      let o1 : Order := if o.tank = i then { o with moved := moved, progress := if o.toMove = 0 then 100 else min 100 (moved * 100 / o.toMove) } else o
      let atTarget := if o.action = .fill then (o.targetLevel : Int) - s.settings.sl ≤ levelOf s o.tank
        else (levelOf s o.tank : Int) ≤ o.targetLevel + s.settings.sl
      let destFull := o.action = .transfer ∧ ∃ d, o.dest = some d ∧ (maxLevelOf s d : Int) - s.settings.sl ≤ levelOf s d
      (o.state = .admitting → levelNotice s i = s ∧ gaugeLost s i = put { o with gaugeLost := true })
      ∧ (o.state ≠ .admitting → o.state ≠ .active ∨ (¬atTarget ∧ ¬destFull) → levelNotice s i = put o1)
      ∧ (∀ r, o.state = .active → (r = .target ∧ atTarget) ∨ (r = .destFull ∧ ¬atTarget ∧ destFull) →
          levelNotice s i = stopOrder (put o1) o.id r
          ∧ ∃ o', orderById (levelNotice s i) o.id = some o' ∧ o'.reason = some r ∧ o'.stall = none ∧ (o'.state = .stopping ∨ o'.state = .done))
      ∧ (o.state = .queued ∨ o.state = .suspended →
          gaugeLost s i = raise (recheck (put { o with state := .failed, reason := some .noGauge, ended := some s.clocks.uptime })) 6 (some o.id))
      ∧ (o.state = .lineup ∨ o.state = .starting ∨ o.state = .active →
          gaugeLost s i = stopOrder s o.id .noGauge
          ∧ ∃ o', orderById (gaugeLost s i) o.id = some o' ∧ o'.reason = some .noGauge ∧ o'.stall = none
            ∧ (o'.state = .stopping ∨ o'.state = .failed))
      ∧ (o.state = .stopping → gaugeLost s i = s))
  ∧
  (
  (∀ (code : Fin 65536) (s : State), s.gauge.round = none → exec (.conversionComplete code) s = .next s)
  ∧ ∀ (code : Fin 65536) (s : State) (r : Round) (ch : Nat) (c : Channel), s.powered = true → s.gauge.round = some r →
    r.channels[r.position]? = some ch → s.gauge.channels[ch]? = some c →
    ∃ t, exec (.conversionComplete code) s = .next t ∧ ChangesOnly ([.gauge, .tanks] ++ ballastBlocks) s t
      ∧ t.gauge = { channels := modAt s.gauge.channels ch fun c => { c with lastRaw := some code.val }, timer := s.gauge.timer,
                    round := if r.position + 1 < r.channels.length then some { r with position := r.position + 1 } else none }
      ∧ (tankOnChannel s.tanks ch = none → t.tanks = s.tanks
        ∧ let u : State := { s with gauge := { s.gauge with channels := modAt s.gauge.channels ch fun c => { c with lastRaw := some code.val } } }
          t = settleArbiter (if r.position + 1 < r.channels.length
            then { u with gauge := { u.gauge with round := some { r with position := r.position + 1 } } } else endRound u))
      ∧ ∀ (i : Nat) (d : TankData) (x : Tank), tankOnChannel s.tanks ch = some i → tankData s i = some d → s.tanks[i]? = some x →
        (∀ j, j ≠ i → t.tanks[j]? = s.tanks[j]?)
        ∧ (x.gauge = .normal ∨ x.gauge = .suspect →
            (∀ level, classify s.settings d c code.val = some level → t.tanks[i]? = some (goodReading d level s.clocks.uptime x))
            ∧ (classify s.settings d c code.val = none → t.tanks[i]? = some (badReading x)))
        ∧ (x.gauge = .withdrawn →
            (∀ level, classify s.settings d c code.val = some level → t.tanks[i]? = some (goodWhileWithdrawn d level s.clocks.uptime x))
            ∧ (classify s.settings d c code.val = none → t.tanks[i]? = some { x with reinstatement := 0 }))
        ∧ ∃ told : State,
          let u : State := { s with
            gauge := { s.gauge with channels := modAt s.gauge.channels ch fun c => { c with lastRaw := some code.val } }, tanks := t.tanks }
          t = settleArbiter (if r.position + 1 < r.channels.length
            then { told with gauge := { told.gauge with round := some { r with position := r.position + 1 } } } else endRound told)
          ∧ (x.gauge = .normal ∨ x.gauge = .suspect →
            (∀ level, classify s.settings d c code.val = some level → told = levelNotice u i)
            ∧ (classify s.settings d c code.val = none →
              (255 < x.score + 8 → told = gaugeLost (raise u 3 (some i)) i)
              ∧ (x.score + 8 ≤ 255 → x.gauge = .normal → 128 ≤ x.score + 8 → told = raise u 2 (some i))
              ∧ (x.score + 8 ≤ 255 → x.gauge = .suspect ∨ x.score + 8 < 128 → told = u)))
          ∧ (x.gauge = .withdrawn →
            (∀ level, classify s.settings d c code.val = some level → told = if 127 ≤ x.reinstatement then levelNotice u i else u)
            ∧ (classify s.settings d c code.val = none → told = u))
          ∧ (x.gauge = .unmapped → told = u))

/-- What a reading is, and what readings make of a tank's record: good and bad readings by RA, RB and the max level, the ring of 4 with its rounded mean, the score with SUSPECT from 128 and withdrawal above 255, and reinstatement at the 128th good reading (R32, R35, R40, R41). -/
def Obligations.ReadingsScoreTheGauge : Prop :=
  (∀ (set : Settings) (d : TankData) (c : Channel) (code : Nat),
    let level := (roundHalfAway (((code : Int) - c.zeroCode) * c.gain) 16384 + c.offset).toNat
    ((code : Int) < set.ra ∨ set.rb < code ∨ d.maxLevel + 500 < level → classify set d c code = none)
    ∧ (set.ra ≤ code → (code : Int) ≤ set.rb → level ≤ d.maxLevel + 500 → classify set d c code = some level))
  ∧ (∀ (d : TankData) (level uptime : Nat) (x : Tank),
      let ring := (if x.ring.length < 4 then x.ring else x.ring.drop (x.ring.length - 3)) ++ [level]
      let mean := (roundHalfUp (ring.sum : Nat) ring.length).toNat
      goodReading d level uptime x = { x with
        ring := ring, level := mean, source := .gauge, mass := massAt d.points mean x.density, lastGood := some uptime,
        score := x.score - 1, gauge := if 128 ≤ x.score - 1 then .suspect else .normal })
  ∧ (∀ x : Tank,
      (x.score + 8 ≤ 255 → badReading x = { x with score := x.score + 8, gauge := if 128 ≤ x.score + 8 then .suspect else .normal })
      ∧ (255 < x.score + 8 → badReading x = { x with gauge := .withdrawn, score := 255, reinstatement := 0, ring := [], source := .frozen }))
  ∧ ∀ (d : TankData) (level uptime : Nat) (x : Tank),
      (x.reinstatement < 127 → goodWhileWithdrawn d level uptime x = { x with reinstatement := x.reinstatement + 1 })
      ∧ (127 ≤ x.reinstatement → goodWhileWithdrawn d level uptime x = { x with
          gauge := .normal, score := 0, reinstatement := 0, ring := [level], level := level, source := .gauge,
          mass := massAt d.points level x.density, lastGood := some uptime })

/-- Each declared tank carries an allowance derived from its level source and gauge state and its suspect allowance A, read with the mass when an evaluation latches its inputs, the mass clamped to 0 to 2,000,000 t (R44, R45, R51). A hold's allowance is 0 under TALLY and CORRECTED, and under ESTIMATE its mass less the step's base mass and last tally (R52). -/
def Obligations.AllowanceFollowsSourceAndState : Prop :=
  (∀ (d : TankData) (t : Tank),
    (t.source = .gauge → t.gauge = .normal → tankAllowance d t = 0)
    ∧ (t.source = .gauge → t.gauge = .suspect → tankAllowance d t = d.allowance)
    ∧ (t.source = .manual → t.gauge = .withdrawn ∨ t.gauge = .unmapped → tankAllowance d t = d.allowance)
    ∧ (t.source = .frozen → tankAllowance d t = 2 * d.allowance))
  ∧ (∀ (s : State) (p : Profile) (d : TankData) (t : Tank) (i : Nat), i < 24 → p.tanks[i]? = some d → s.tanks[i]? = some t →
      (latch s p).mass[i]? = some (saturate 0 2000000 t.mass).toNat ∧ (latch s p).allowance[i]? = some (tankAllowance d t))
  ∧ ∀ (s : State) (p : Profile) (d : HoldData) (r : Hold) (h : Nat), 1 ≤ h → h ≤ 9 → p.holds[h - 1]? = some d → s.pour.holds[h - 1]? = some r →
      (latch s p).mass[23 + h]? = some (saturate 0 2000000 r.mass).toNat
      ∧ (r.source = .tally ∨ r.source = .corrected → (latch s p).allowance[23 + h]? = some 0)
      ∧ ∀ (y : Step) (b n : Nat), r.source = .estimate → currentStep s = some y → y.hold = h → y.base = some b → y.lastTally = some n →
          (latch s p).allowance[23 + h]? = some (r.mass - (b + n))

/-- On a sounding table that rises, a level equal to a point's takes its volume, a level between two neighbouring points is interpolated with the quotient rounded half up, and a level above the last point takes its volume (R36); a mass is volume times density over 10,000, rounded half up (R37). The level for a mass is 0 below the first point's volume, the max level above the last point's, and else lies on the first segment whose upper volume reaches the target volume, at its lower level where the segment is flat (R39). -/
def Obligations.VolumesFollowTheSoundingTable : Prop :=
  (∀ (before after : List SndPoint) (p : SndPoint), pointsRise (before ++ p :: after) = true →
    volumeAt (before ++ p :: after) p.level = p.volume)
  ∧ (∀ (before after : List SndPoint) (p q : SndPoint) (level : Nat), pointsRise (before ++ p :: q :: after) = true →
      p.level < level → level < q.level →
      (volumeAt (before ++ p :: q :: after) level : Int)
        = p.volume + roundHalfUp (((q.volume : Int) - p.volume) * ((level : Int) - p.level)) ((q.level : Int) - p.level))
  ∧ (∀ (before : List SndPoint) (p : SndPoint) (level : Nat), pointsRise (before ++ [p]) = true → p.level < level →
      volumeAt (before ++ [p]) level = p.volume)
  ∧ (∀ (points : List SndPoint) (level density : Nat),
      (massAt points level density : Int) = roundHalfUp ((volumeAt points level : Int) * density) 10000)
  ∧ ∀ (d : TankData) (density : Nat) (mass : Int) (first last : SndPoint), 0 < density → pointsRise d.points = true →
      d.points.head? = some first → d.points.getLast? = some last →
      let v := roundHalfUp (mass * 10000) density
      (v < first.volume → levelFor d density mass = 0)
      ∧ (first.volume ≤ v → last.volume < v → levelFor d density mass = d.maxLevel)
      ∧ ∀ (before after : List SndPoint) (a b : SndPoint), d.points = before ++ a :: b :: after →
          (∀ q ∈ (before ++ [a]).tail, (q.volume : Int) < v) → first.volume ≤ v → v ≤ b.volume →
          (b.volume = a.volume → levelFor d density mass = a.level)
          ∧ (b.volume ≠ a.volume → (levelFor d density mass : Int)
              = a.level + roundHalfUp ((v - a.volume) * ((b.level : Int) - a.level)) ((b.volume : Int) - a.volume))

/-- GCAL is refused with RANGE by its three tests; accepted it puts the given fields in the channel's record, empties the ring of the mapped tank, sends the order engine a gauge-change notice for it, which restarts the stall window of the ACTIVE orders that need the tank, aborts and restarts a running round, requests a live evaluation in a call, and answers with the calibration (R21, R28, R29, R31, R35, R123; log 18). A run of the arbiter that is owed is made before the reply (log 14). A ZC or GN outside the ranges of R30 that passes the tests is accepted, and what it puts in the record is a value in those ranges that nothing fixes (log 12). -/
def Obligations.GcalSetsACalibration : Prop :=
  ∀ (k : Nat) (s : State) (gc : Int) (zc gn ofs : Option Int), Asked s .console k (.gcal gc zc gn ofs) → s.call ≠ .noProfile →
    (gc < 0 ∨ 31 < gc ∨ gn = some 0 ∨ (∃ v, ofs = some v ∧ (v < -5000 ∨ 5000 < v)) →
      exec (.gcal k) s = .next (reply s .console k .range []))
    ∧ ∀ (n : Nat) (c : Channel), gc = n → n ≤ 31 → s.gauge.channels[n]? = some c → OrdersOk s.orders →
      gn ≠ some 0 → (∀ v, ofs = some v → -5000 ≤ v ∧ v ≤ 5000) →
      ∃ (z g : Nat) (t : State),
        let c' : Channel := { zeroCode := z, gain := g, offset := ofs.getD c.offset, lastRaw := c.lastRaw }
        let calibrated : State := { s with gauge := { s.gauge with channels := modAt s.gauge.channels n fun _ => c' } }
        let window : Stall := { expiry := s.clocks.uptime + s.settings.sw.toNat, baseline := 0 }
        let noticed := fun (i : Nat) => { calibrated with
          tanks := modAt s.tanks i fun x => { x with ring := [], source := if x.gauge = .normal ∨ x.gauge = .suspect then .frozen else x.source }
          orders := { s.orders with slots := s.orders.slots.map fun z => z.map fun o =>
            if o.state = .active ∧ (o.tank = i ∨ o.dest = some i) then { o with stall := some { window with baseline := levelOf s o.tank } } else o } }
        let told : State := match tankOnChannel s.tanks n with | some i => noticed i | none => calibrated
        let restarted : State := if s.gauge.round = none then told else if mappedChannels s.tanks = [] then endRound told
          else { told with gauge := { told.gauge with round := some { channels := mappedChannels s.tanks, position := 0 } } }
        let requested : State := if s.call = .inCall ∨ s.call = .closing
          then { restarted with engine := { restarted.engine with pendingLive := true } } else restarted
        exec (.gcal k) s = .next t ∧ ChangesOnly (touches (.gcal k)) s t
        ∧ (zc = none → z = c.zeroCode) ∧ (∀ v, zc = some v → z ≤ 65535 ∧ (0 ≤ v → v ≤ 65535 → (z : Int) = v))
        ∧ (gn = none → g = c.gain) ∧ (∀ v, gn = some v → 1 ≤ g ∧ g ≤ 65535 ∧ (1 ≤ v → v ≤ 65535 → (g : Int) = v))
        ∧ t.gauge.channels = modAt s.gauge.channels n (fun _ => c') ∧ t.gauge.timer = s.gauge.timer
        ∧ (s.gauge.round = none → t.gauge.round = none)
        ∧ (s.gauge.round ≠ none → mappedChannels s.tanks ≠ [] →
            t.gauge.round = some { channels := mappedChannels s.tanks, position := 0 })
        ∧ t.tanks = told.tanks
        ∧ t = reply (settleArbiter (choose requested)) .console k .ok [(.RV, .num z), (.RV, .num g), (.RV, .num c'.offset)]

/-- TMAP makes the tests of R33 in order; a request that names the tank's present channel is answered without effect; an accepted one changes the tank's gauge record as the table of R34 states, level and mass kept, sends the order engine a gauge-change notice, which restarts the stall window of the ACTIVE orders that need the tank (R123), and, for a change to NONE, a gauge-lost notice (R127), aborts and restarts a running round (R28, R29), and requests a live evaluation in a call (R21); the arbiter's run that the notice calls for follows at the end (log 14); the reply carries channel and gauge state (R33; log 18), a refusal no field (log 49). -/
def Obligations.TmapChangesTheMap : Prop :=
  (∀ (k : Nat) (s : State) (tk gc : Int), Asked s .console k (.tmap tk gc) → s.call ≠ .noProfile → TanksOk s.tanks → OrdersOk s.orders →
    ((∀ i : Nat, tk = i → i ≤ 23 → tankData s i = none ∨ s.tanks[i]? = none) → exec (.tmap k) s = .next (reply s .console k .range []))
    ∧ ((gc < 0 ∨ 31 < gc) → gc ≠ 255 → exec (.tmap k) s = .next (reply s .console k .range []))
    ∧ ∀ (i : Nat) (d : TankData) (x : Tank) (c : Option Nat), tk = i → i ≤ 23 → tankData s i = some d → s.tanks[i]? = some x →
      ((c = none ∧ gc = 255) ∨ ∃ n : Nat, c = some n ∧ gc = n ∧ n ≤ 31) →
      ((∃ n u, c = some n ∧ tankOnChannel s.tanks n = some u ∧ u ≠ i) → exec (.tmap k) s = .next (reply s .console k .conflict []))
      ∧ ((∀ n u, c = some n → tankOnChannel s.tanks n = some u → u = i) →
        (x.channel = c → exec (.tmap k) s = .next (reply s .console k .ok [(.RV, .num gc), (.RV, .num (gaugeCode x.gauge))]))
        ∧ (x.channel ≠ c →
          let tanks := modAt s.tanks i fun _ => remap c x
          let window : Stall := { expiry := s.clocks.uptime + s.settings.sw.toNat, baseline := 0 }
          let changed : State := { s with
            tanks := tanks
            orders := { s.orders with slots := s.orders.slots.map fun z => z.map fun o =>
              if o.state = .active ∧ (o.tank = i ∨ o.dest = some i) then { o with stall := some { window with baseline := levelOf s o.tank } } else o } }
          let told : State := if c = none then gaugeLost changed i else changed
          let restarted : State := if s.gauge.round = none then told else if mappedChannels tanks = [] then endRound told
            else { told with gauge := { s.gauge with round := some { channels := mappedChannels tanks, position := 0 } } }
          let requested : State := if s.call = .inCall ∨ s.call = .closing
            then { restarted with engine := { restarted.engine with pendingLive := true } } else restarted
          ∃ t, exec (.tmap k) s = .next t ∧ ChangesOnly (touches (.tmap k)) s t
            ∧ t.tanks = tanks ∧ t.gauge.channels = s.gauge.channels ∧ t.gauge.timer = s.gauge.timer
            ∧ (s.gauge.round = none → t.gauge.round = none)
            ∧ (s.gauge.round ≠ none → mappedChannels tanks ≠ [] → t.gauge.round = some { channels := mappedChannels tanks, position := 0 })
            ∧ t = reply (settleArbiter (choose requested)) .console k .ok [(.RV, .num gc), (.RV, .num (gaugeCode (remap c x).gauge))])))
  ∧ ∀ (x : Tank) (n : Nat),
      (x.gauge = .normal ∨ x.gauge = .suspect →
        remap (some n) x = { x with channel := some n, reinstatement := 0, ring := [], source := .frozen }
        ∧ remap none x = { x with channel := none, gauge := .unmapped, score := 0, reinstatement := 0, ring := [], source := .frozen })
      ∧ (x.gauge = .withdrawn →
        remap (some n) x = { x with channel := some n, score := 255, reinstatement := 0, ring := [] }
        ∧ remap none x = { x with channel := none, gauge := .unmapped, score := 0, reinstatement := 0, ring := [] })
      ∧ (x.gauge = .unmapped →
        remap (some n) x = { x with channel := some n, gauge := .normal, score := 0, reinstatement := 0, ring := [], source := .frozen })

/-- DENS sets one tank's density, clamped into 1,000 to 1,050, recomputes its mass from its current level, requests a live evaluation in a call, and answers OK or CLAMPED with density and mass; a tank that is not declared is refused with RANGE (R38). SNDG makes the tests of R43 in order; accepted it sets level and mass of the tank with level source MANUAL, leaves its gauge state, score and count, requests a live evaluation in a call, and answers with level and mass. Both replies write their two values as RV (R195; log 18), and a refusal has no field (log 49). -/
def Obligations.DensityAndSoundingAreSet : Prop :=
  (
  ∀ (k : Nat) (s : State) (tk dn : Int), Asked s .console k (.dens tk dn) → s.call ≠ .noProfile →
    ((∀ i : Nat, tk = i → i ≤ 23 → tankData s i = none ∨ s.tanks[i]? = none) → exec (.dens k) s = .next (reply s .console k .range []))
    ∧ ∀ (i : Nat) (d : TankData) (x : Tank), tk = i → i ≤ 23 → tankData s i = some d → s.tanks[i]? = some x →
      let density := (saturate 1000 1050 dn).toNat
      let x' : Tank := { x with density := density, mass := massAt d.points x.level density }
      ∃ t, exec (.dens k) s = .next t ∧ ChangesOnly [.tanks, .engine, .console] s t
        ∧ t.tanks = modAt s.tanks i (fun _ => x') ∧ t.engine = (liveRequest { s with tanks := t.tanks } false).engine
        ∧ Replied s t .console k (if 1000 ≤ dn ∧ dn ≤ 1050 then .ok else .clamped) [(.RV, .num density), (.RV, .num x'.mass)])
  ∧
  (
  ∀ (k : Nat) (s : State) (tk lv : Int), Asked s .console k (.sndg tk lv) → s.call ≠ .noProfile →
    ((∀ i : Nat, tk = i → i ≤ 23 → tankData s i = none ∨ s.tanks[i]? = none) → exec (.sndg k) s = .next (reply s .console k .range []))
    ∧ ∀ (i : Nat) (d : TankData) (x : Tank), tk = i → i ≤ 23 → tankData s i = some d → s.tanks[i]? = some x →
      (x.gauge = .normal ∨ x.gauge = .suspect → exec (.sndg k) s = .next (reply s .console k .state []))
      ∧ (x.gauge = .withdrawn ∨ x.gauge = .unmapped →
        (lv < 0 ∨ (d.maxLevel : Int) + 500 < lv → exec (.sndg k) s = .next (reply s .console k .range []))
        ∧ ∀ n : Nat, lv = n → n ≤ d.maxLevel + 500 →
          let x' : Tank := { x with level := n, source := .manual, mass := massAt d.points n x.density }
          ∃ t, exec (.sndg k) s = .next t ∧ ChangesOnly [.tanks, .engine, .console] s t
            ∧ t.tanks = modAt s.tanks i (fun _ => x') ∧ t.engine = (liveRequest { s with tanks := t.tanks } false).engine
            ∧ Replied s t .console k .ok [(.RV, .num n), (.RV, .num x'.mass)]))

/-- The six queries and the XOVR without XM are answered and change nothing besides their reply (R46, R82, R103, R131, R165, R186; log 18). Their fields are written out: a tank's record (R45), a channel's (R30), the hull record with its result record (R67, R82), an order's record (R109, R131), the pour as the terminal sees it (R165; log 17 for RN), a condition (R186) and the plant view (R90, R91, R106), each value in RV that its rule gives no name (log 18), with the codes of R195. The refusals of GQRY, OQRY and SQRY, of which R46, R131, R158 and R165 leave it open, carry no field (log 49), that of an SQRY no LS (log 50). -/
def Obligations.QueriesChangeNothing : Prop :=
  (∀ (k : Nat) (s : State) (tk gc : Option Int), Asked s .console k (.gqry tk gc) →
    (tk.isSome = gc.isSome → exec (.gqry k) s = .next (reply s .console k .format []))
    ∧ (∀ x, tk = some x → gc = none →
      ((∀ i : Nat, x = i → i ≤ 23 → tankData s i = none ∨ s.tanks[i]? = none) → exec (.gqry k) s = .next (reply s .console k .range []))
      ∧ ∀ i : Nat, x = i → i ≤ 23 → tankData s i ≠ none → s.tanks[i]? ≠ none →
          exec (.gqry k) s = .next (reply s .console k .ok (tankFields s i)))
    ∧ ∀ x, tk = none → gc = some x →
      (x < 0 ∨ 31 < x → exec (.gqry k) s = .next (reply s .console k .range []))
      ∧ ∀ n : Nat, x = n → n ≤ 31 → exec (.gqry k) s = .next (reply s .console k .ok (channelFields s n)))
  ∧ (∀ (k : Nat) (s : State), Asked s .console k .hqry → exec (.hqry k) s = .next (reply s .console k .ok (hullFields s)))
  ∧ (∀ (k : Nat) (s : State) (oi : Option Int), Asked s .console k (.oqry oi) →
      (oi = none → exec (.oqry k) s = .next (reply s .console k .ok ((ordersList s).flatMap orderLine)))
      ∧ ∀ x, oi = some x →
        ((∀ o, some o ∈ s.orders.slots → x ≠ o.id) → exec (.oqry k) s = .next (reply s .console k .range []))
        ∧ ∀ o, OrdersOk s.orders → some o ∈ s.orders.slots → x = o.id → exec (.oqry k) s = .next (reply s .console k .ok (orderFields o)))
  ∧ (∀ (k : Nat) (s : State) (st : Option Int), Asked s .terminal k (.sqry st) →
      (st = none → exec (.sqry k) s = .next (reply s .terminal k .ok
        ([(.LS, .num (linkCode s.term.state)), (.QC, .num s.term.count), (.ST, .num (currentNumber s))] ++ stepView s (currentStep s))))
      ∧ ∀ x, st = some x →
        (x < 1 ∨ (s.pour.plan.length : Int) < x → exec (.sqry k) s = .next (reply s .terminal k .range []))
        ∧ ∀ n : Nat, x = n → 1 ≤ n → n ≤ s.pour.plan.length → exec (.sqry k) s = .next (reply s .terminal k .ok
            ([(.LS, .num (linkCode s.term.state)), (.QC, .num s.term.count), (.ST, .num (currentNumber s))] ++ stepView s (stepByNumber s n))))
  ∧ (∀ (k : Nat) (s : State), Asked s .console k .aqry →
      exec (.aqry k) s = .next (reply s .console k .ok
        ((.RV, .num s.attention.mask.toNat) :: (upTo 14).flatMap (conditionFields s.attention))))
  ∧ (∀ (k : Nat) (s : State), Asked s .console k (.xovr none) → s.call ≠ .noProfile →
      exec (.xovr k) s = .next (reply s .console k .ok (plantView s)))
  ∧
  let nat := fun (x : Option Nat) => match x with
    | some n => Val.num n
    | none => Val.absent
  let opt := fun (x : Option Int) => match x with
    | some n => Val.num n
    | none => Val.absent
  let yes := fun (b : Bool) => Val.num (if b then 1 else 0)
  let rvs := fun (vs : List Val) => vs.map fun v => (Field.RV, v)
  (∀ (s : State) (i : Nat) (d : TankData) (x : Tank), tankData s i = some d → s.tanks[i]? = some x →
    let before : List Val := [.num i, .raw d.name, .num (mainCode d.main), .num (match x.channel with | some c => c | none => 255),
      .num (gaugeCode x.gauge), .num x.score, .num x.reinstatement]
    let ring : List Val := x.ring.map fun l : Nat => .num l
    let after : List Val := [.num x.level, .num (levelSourceCode x.source), .num x.density, .num x.mass, .num (tankAllowance d x),
      nat x.lastGood, yes x.held]
    tankFields s i = rvs (before ++ ring ++ after))
  ∧ (∀ (s : State) (n : Nat) (c : Channel), s.gauge.channels[n]? = some c →
      channelFields s n = rvs [.num c.zeroCode, .num c.gain, .num c.offset, nat c.lastRaw, nat (tankOnChannel s.tanks n)]
      ∧ (∀ i, tankOnChannel s.tanks n = some i → (s.tanks[i]?).map Tank.channel = some (some n))
      ∧ (tankOnChannel s.tanks n = none → ∀ x ∈ s.tanks, x.channel ≠ some n))
  ∧ (∀ r : EvalResult,
      let low : Int := if r.tableLow then 4 else 0
      let high : Int := if r.tableHigh then 8 else 0
      let saturated : Int := if r.saturated then 16 else 0
      let before : List Val := [.num (if r.isLive then 1 else 2), .num r.displacement, .num r.lcg, .num r.tMean, .num r.tAft, .num r.tFwd,
        .num r.trim]
      let frames : List Val := (r.sf ++ r.bm ++ r.sfUtil ++ r.bmUtil).map opt
      let after : List Val := [.num r.draftUtil, .num r.trimUtil, .num r.peak, .num (peakSourceCode r.peakSource), .num (bandCode (some r.band)),
        .num (low + high + saturated), .num r.uptime, .num r.ballast, .num r.cargo]
      resultFields r = rvs (before ++ frames ++ after))
  ∧ (∀ s : State,
      let g := s.engine
      let record : List (Field × Val) := match s.hull.live with
        | some r => resultFields r
        | none => rvs (List.replicate (16 + 4 * 12) .absent)
      let running : Val := match g.running with
        | some { kind := .live _, .. } => .num 1
        | some { kind := .preview _ _, .. } => .num 2
        | none => .absent
      let gate := g.previews.any fun e => match e.requester with
        | .gate _ => true
        | _ => false
      let before := rvs [.num (bandCode (s.hull.live.map EvalResult.band)), .num (stopCode s.hull.stop), nat s.hull.completedAt]
      let after := rvs [yes g.running.isSome, .num (lastKindCode g.lastKind), running, yes g.pendingLive, yes g.reportMark,
        .num g.previews.length, yes gate]
      hullFields s = before ++ record ++ after)
  ∧ (∀ o : Order,
      orderLine o = rvs [.num o.id, .num (orderStateCode o.state), opt (o.reason.map reasonCode)]
      ∧
      let target : Val := match o.target with
        | .level x => .num x
        | .mass x => .num x
      let before : List Val := [.num o.id, .num o.tank, .num (actionCode o.action), nat o.dest, target, .num o.priority, .num o.retries,
        yes o.manual, .num o.targetLevel, .num o.startMass, .num o.toMove, .num o.endSource, nat o.endDest,
        opt (o.direction.map directionCode), .num (orderStateCode o.state), opt (o.reason.map reasonCode), .num o.attempts]
      let pumps : List Val := o.pumps.map fun n : Nat => .num n
      let after : List Val := [nat (if o.rank = 0 then none else some o.rank), nat o.admitted, nat o.started, nat o.ended, .num o.moved,
        .num o.progress, nat (o.stall.map Stall.expiry), nat (o.stall.map Stall.baseline), yes o.gaugeLost]
      orderFields o = rvs (before ++ pumps ++ after))
  ∧ (∀ (s : State) (y : Step) (h : Hold) (d : HoldData), holdRec s y.hold = some h → holdData s y.hold = some d →
      let reason : Val := match y.haltCause with
        | some c => .num (haltCode c)
        | none => opt (y.waitReason.map waitCode)
      let named : List (Field × Val) := [(.SS, .num (stepCode y.state)), (.HD, .num y.hold), (.PT, .num y.planned), (.RN, reason),
        (.TY, nat y.lastTally), (.FN, nat y.final), (.MS, .num h.mass)]
      stepView s (some y) = named ++ rvs [.num (holdSourceCode h.source), .raw d.name, nat y.grantTime, nat y.endTime, nat y.reportSerial])
  ∧ (∀ s : State, stepView s none = ([Field.SS, .HD, .PT, .RN, .TY, .FN, .MS, .RV, .RV, .RV, .RV, .RV].map fun f => (f, Val.absent))
      ∧ (currentNumber s : Int) = match currentStep s with | some y => (y.number : Int) | none => 0)
  ∧ (∀ (a : Attention) (n : Nat) (c : Condition), a.conditions[n]? = some c →
      let level := n = 0 ∨ n = 1 ∨ n = 10 ∨ n = 13
      let cause : List Val := if level then [yes c.cause] else []
      let after : List Val := [.num c.count, nat c.first, nat c.latest, yes (decide (n ∈ a.owed))]
      conditionFields a n = rvs (yes (decide ¬level) :: yes c.pending :: (cause ++ after)))
  ∧ (∀ (s : State) (p1 p2 p3 p4 : Pump), s.plant.pumps = [p1, p2, p3, p4] →
      let line := fun (i : Nat) => yes (lineOn s.plant i)
      let pump := fun (n : Nat) (p : Pump) => rvs [.num n, .num (if n ≤ 2 then 0 else 1), .num (pumpCode p.state), nat p.holder,
        .num p.failures, .num p.runSeconds, yes p.startLine, line (n - 1), line (n + 3)]
      let main := fun (m : MainRec) => rvs (.num (mainModeCode m.mode) :: m.orders.map fun id : Nat => .num id)
      let modes := rvs [.num (crossCode s.plant.crossMode), .num (targetCode s.plant.crossTarget), yes s.plant.gangedA, yes s.plant.gangedB]
      let valves := rvs (s.plant.valves.flatMap fun v => [yes v.commandedOpen, .num (valveCode v.state), .num v.users])
      plantView s = modes ++ pump 1 p1 ++ pump 2 p2 ++ pump 3 p3 ++ pump 4 p4 ++ main s.plant.portMain ++ main s.plant.stbdMain ++ valves)
  ∧ ([GaugeState.normal, .suspect, .withdrawn, .unmapped].map gaugeCode = [0, 1, 2, 3]
      ∧ [LevelSource.gauge, .frozen, .manual].map levelSourceCode = [0, 1, 2] ∧ [Main.port, .stbd].map mainCode = [0, 1]
      ∧ [none, some Band.green, some .amber, some .red].map bandCode = [0, 1, 2, 3] ∧ [StopState.clear, .stopped].map stopCode = [0, 1]
      ∧ (∀ f : Nat, peakSourceCode (.sf f) = 100 + f ∧ peakSourceCode (.bm f) = 200 + f)
      ∧ [PeakSource.draft, .trim].map peakSourceCode = [300, 301] ∧ [LastKind.none, .live, .preview].map lastKindCode = [0, 1, 2]
      ∧ [OrderState.admitting, .queued, .lineup, .starting, .active, .stopping, .suspended, .done, .failed, .cancelled].map orderStateCode
        = [0, 1, 2, 3, 4, 5, 6, 7, 8, 9]
      ∧ [Reason.target, .destFull, .cancel, .hull, .preempted, .noGauge, .stall, .lineupFail, .startFail, .trip, .held].map reasonCode
        = [1, 2, 3, 4, 5, 6, 7, 8, 9, 10, 11]
      ∧ [Action.fill, .discharge, .transfer].map actionCode = [0, 1, 2] ∧ [Direction.relieving, .loading].map directionCode = [0, 1]
      ∧ [StepState.planned, .evaluating, .waiting, .blocked, .pouring, .halted, .settling, .reporting, .done, .skipped].map stepCode
        = [0, 1, 2, 3, 4, 5, 6, 7, 8, 9]
      ∧ [WaitReason.report, .ballast, .hull].map waitCode = [1, 2, 3] ∧ [HaltCause.hull, .overshoot, .link].map haltCode = [3, 7, 8]
      ∧ [HoldSource.tally, .estimate, .corrected].map holdSourceCode = [0, 1, 2]
      ∧ [PumpState.stopped, .priming, .running, .stopping, .withdrawn].map pumpCode = [0, 1, 2, 3, 4]
      ∧ [MainMode.idle, .filling, .discharging, .transferring].map mainModeCode = [0, 1, 2, 3]
      ∧ [ValveState.closed, .opening, .opened, .closing, .fault].map valveCode = [0, 1, 2, 3, 4]
      ∧ [CrossMode.straight, .crossed, .changing, .fault].map crossCode = [0, 1, 2, 3] ∧ [CrossTarget.straight, .crossed].map targetCode = [0, 1]
      ∧ [LinkState.detached, .up, .quiet, .lost].map linkCode = [0, 1, 2, 3])

/-! ### The hull -/

/-- The four roundings: half up and half away from zero give the nearest integer, midway the greater and the one of greater magnitude; truncated drops the fraction; rounded up gives the smallest integer not below (R48). -/
def Obligations.RoundingsAreExact : Prop :=
  ∀ n d : Int, 0 < d →
    (2 * (roundHalfUp n d * d - n) ≤ d ∧ 2 * (n - roundHalfUp n d * d) < d)
    ∧ (0 ≤ n → roundHalfAway n d = roundHalfUp n d) ∧ (n < 0 → roundHalfAway n d = -roundHalfUp (-n) d)
    ∧ (0 ≤ n → 0 ≤ roundTrunc n d ∧ roundTrunc n d * d ≤ n ∧ n < (roundTrunc n d + 1) * d) ∧ (n < 0 → roundTrunc n d = -roundTrunc (-n) d)
    ∧ (0 ≤ n → n ≤ roundUp n d * d ∧ (roundUp n d - 1) * d < n)

/-- An evaluation's displacement is W0 plus every mass, with the two totals, its LCG the moment over it (R54, R55); the hydrostatic values are those of a row, interpolated between two rows, or those of the first or last row with TABLE_LOW or TABLE_HIGH (R56, R57); trim and drafts follow from them (R58, R59); each declared frame has the shear force, bending moment, envelopes and utilisations of R60 to R63, an undeclared one is ABSENT (R67); draft and trim utilisations are those of R64, and SATURATED says that a limit replaced a figure. The peak is the greatest of the utilisations, all in 0 to 9,999, its source the first that equals the peak in the order of R65; the band is GREEN up to WT, AMBER up to 1,000, RED above (R66). -/
def Obligations.EvaluationsFindPeakAndBand : Prop :=
  (∀ (r : HydRow) (rest : List HydRow) (d : Int), d < (r.displacement : Int) →
    hydroAt (r :: rest) d = { meanDraft := r.meanDraft, lcb := r.lcb, mctc := r.mctc, low := true, high := false })
  ∧ (∀ (before after : List HydRow) (r : HydRow), (before ++ r :: after).Pairwise (fun a b => a.displacement < b.displacement) →
      hydroAt (before ++ r :: after) r.displacement = { meanDraft := r.meanDraft, lcb := r.lcb, mctc := r.mctc, low := false, high := false })
  ∧ (∀ (before after : List HydRow) (a b : HydRow) (d : Int), (before ++ a :: b :: after).Pairwise (fun x y => x.displacement < y.displacement) →
      (a.displacement : Int) < d → d < b.displacement →
      let at_ := fun (lo hi : Int) => lo + roundHalfAway ((hi - lo) * (d - a.displacement)) ((b.displacement : Int) - a.displacement)
      hydroAt (before ++ a :: b :: after) d
        = { meanDraft := at_ a.meanDraft b.meanDraft, lcb := at_ a.lcb b.lcb, mctc := at_ a.mctc b.mctc, low := false, high := false })
  ∧ (∀ (before : List HydRow) (r : HydRow) (d : Int), (before ++ [r]).Pairwise (fun a b => a.displacement < b.displacement) → r.displacement < d →
      hydroAt (before ++ [r]) d = { meanDraft := r.meanDraft, lcb := r.lcb, mctc := r.mctc, low := false, high := true })
  ∧ ∀ (isLive : Bool) (i : Inputs) (wt : Int), i.profile.tanks.length ≤ 24 →
    let sum := fun (ks : List Int) (ms : List Nat) => (List.zipWith (fun (k : Int) (m : Nat) => k * m) ks ms).sum
    let sumAbs := fun (ks : List Int) (ms : List Nat) => (List.zipWith (fun (k : Int) (m : Nat) => (k.natAbs * m : Int)) ks ms).sum
    let shearRaw := fun (f : FrameData) => (f.sf0 : Int) + roundHalfAway (sum f.kS i.mass) 1000
    let shear := fun (f : FrameData) => saturate (-99999999) 99999999 (shearRaw f)
    let shearEnvRaw := fun (f : FrameData) => ((shear f).natAbs : Int) + roundUp (sumAbs f.kS i.allowance) 1000
    let momentRaw := fun (f : FrameData) => (f.bm0 : Int) + sum f.kB i.mass
    let moment := fun (f : FrameData) => saturate (-999999999) 999999999 (momentRaw f)
    let momentEnvRaw := fun (f : FrameData) => ((moment f).natAbs : Int) + sumAbs f.kB i.allowance
    let sfRaw := fun (f : FrameData) => roundTrunc (saturate 0 99999999 (shearEnvRaw f) * 1000) (if 0 ≤ shear f then f.sfPos else f.sfNeg)
    let bmRaw := fun (f : FrameData) => roundTrunc (saturate 0 999999999 (momentEnvRaw f) * 1000) (if 0 ≤ moment f then f.hog else f.sag)
    let r := evaluate isLive i wt
    let h := hydroAt i.profile.rows r.displacement
    let trimRaw := roundHalfAway (r.displacement * (h.lcb - r.lcg)) (10 * h.mctc)
    let draftRaw := roundTrunc (max r.tAft r.tFwd * 1000) i.dl
    let trimUtilRaw := roundTrunc ((2 * r.trim - (i.tn + i.tx)).natAbs * 1000) (i.tx - i.tn)
    let out := fun (lo hi x : Int) => x < lo ∨ hi < x
    r.lcg = roundHalfAway ((i.profile.w0 * i.profile.x0 : Nat) + sum (i.profile.tanks.map fun t => (t.lcg : Int)) (i.mass.take 24)
        + sum (i.profile.holds.map fun t => (t.lcg : Int)) (i.mass.drop 24)) r.displacement
    ∧ r.tMean = h.meanDraft ∧ r.trim = saturate (-9999) 9999 trimRaw ∧ r.tAft = max 0 (r.tMean + 5 * r.trim) ∧ r.tFwd = max 0 (r.tMean - 5 * r.trim)
    ∧ (∀ (n : Nat) (f : FrameData), i.profile.frames[n]? = some f → r.sf[n]? = some (some (shear f)) ∧ r.bm[n]? = some (some (moment f))
        ∧ r.sfUtil[n]? = some (some (saturate 0 9999 (sfRaw f))) ∧ r.bmUtil[n]? = some (some (saturate 0 9999 (bmRaw f))))
    ∧ (∀ n : Nat, i.profile.frames.length ≤ n → n < 12 →
        r.sf[n]? = some none ∧ r.bm[n]? = some none ∧ r.sfUtil[n]? = some none ∧ r.bmUtil[n]? = some none)
    ∧ r.draftUtil = saturate 0 9999 draftRaw ∧ r.trimUtil = saturate 0 9999 trimUtilRaw
    ∧ r.tableLow = h.low ∧ r.tableHigh = h.high
    ∧ (r.saturated = true ↔ i.saturated = true ∨ out (-9999) 9999 trimRaw ∨ out 0 9999 draftRaw ∨ out 0 9999 trimUtilRaw
        ∨ ∃ f ∈ i.profile.frames, out (-99999999) 99999999 (shearRaw f) ∨ out 0 99999999 (shearEnvRaw f) ∨ out (-999999999) 999999999 (momentRaw f)
            ∨ out 0 999999999 (momentEnvRaw f) ∨ out 0 9999 (sfRaw f) ∨ out 0 9999 (bmRaw f))
    ∧
    let r := evaluate isLive i wt
    let figs := i.profile.frames.map (frameFigures i)
    let checks : List (PeakSource × Int) :=
      figs.mapIdx (fun n f => (.sf (n + 1), f.sfUtil)) ++ figs.mapIdx (fun n f => (.bm (n + 1), f.bmUtil))
        ++ [(.draft, r.draftUtil), (.trim, r.trimUtil)]
    r.displacement = (i.profile.w0 : Int) + (i.mass.sum : Nat) ∧ r.ballast = ((i.mass.take 24).sum : Nat) ∧ r.cargo = ((i.mass.drop 24).sum : Nat)
    ∧ (∀ u ∈ checks, 0 ≤ u.2 ∧ u.2 ≤ 9999 ∧ u.2 ≤ r.peak)
    ∧ (∃ u, checks.find? (fun u => u.2 = r.peak) = some u ∧ r.peakSource = u.1)
    ∧ (r.band = .green ↔ r.peak ≤ wt) ∧ (r.band = .amber ↔ wt < r.peak ∧ r.peak ≤ 1000) ∧ (r.band = .red ↔ wt < r.peak ∧ 1000 < r.peak)

/-- At the start of an evaluation every table mass is latched, clamped to 0 to 2,000,000 t with the SATURATED mark; the overrides of a preview then replace the masses of their compartments in list order, clamped alike, and keep the allowances (R51, R53). The evaluation queue: a live request outside a call requests nothing and in a call joins the flag, its mark staying once set; the IDLE engine chooses by the table of R71, and a started live evaluation takes flag and mark with it (R21, R69, R71). -/
def Obligations.EngineLatchesAndChooses : Prop :=
  (
  (∀ (s : State) (p : Profile) (c : Nat), c < 33 →
    (latch s p).mass[c]? = some (saturate 0 2000000 (compartment s p c).1).toNat ∧ (latch s p).allowance[c]? = some (compartment s p c).2)
  ∧ (∀ (s : State) (p : Profile), (latch s p).saturated = true ↔ ∃ c, c < 33 ∧ 2000000 < (compartment s p c).1)
  ∧ (∀ i : Inputs, overrideAll i [] = i)
  ∧ ∀ (i : Inputs) (os : List (Nat × Int)) (c : Nat) (m : Int),
      let j := overrideAll i os
      (overrideAll i (os ++ [(c, m)])).mass = modAt j.mass c (fun _ => (saturate 0 2000000 m).toNat)
      ∧ (overrideAll i (os ++ [(c, m)])).allowance = i.allowance
      ∧ ((overrideAll i (os ++ [(c, m)])).saturated = true ↔ j.saturated = true ∨ m < 0 ∨ 2000000 < m))
  ∧
  (
  (∀ (s : State) (m : Bool), s.call ≠ .inCall → s.call ≠ .closing → markLive s m = s)
  ∧ (∀ (s : State) (m : Bool), s.call = .inCall ∨ s.call = .closing →
      markLive s m = { s with engine := { s.engine with pendingLive := true, reportMark := s.engine.reportMark || m } })
  ∧ (∀ s : State, s.engine.running ≠ none → choose s = s)
  ∧ ∀ (s : State) (p : Profile), s.engine.running = none → s.profile = .valid p →
      let live : State := { s with engine := { s.engine with
        running := some { kind := .live s.engine.reportMark, inputs := latch s p }, pendingLive := false, reportMark := false } }
      let preview := fun (e : PreviewEntry) (rest : List PreviewEntry) => { s with engine := { s.engine with
        running := some { kind := .preview e (s.hull.live.map EvalResult.peak), inputs := overrideAll (latch s p) e.overrides }, previews := rest } }
      (s.engine.pendingLive = false → s.engine.previews = [] → choose s = s)
      ∧ (∀ e rest, s.engine.pendingLive = false → s.engine.previews = e :: rest → choose s = preview e rest)
      ∧ (s.engine.pendingLive = true → s.engine.previews = [] → choose s = live)
      ∧ (∀ e rest, s.engine.pendingLive = true → s.engine.previews = e :: rest → s.engine.lastKind = .preview → choose s = live)
      ∧ (∀ e rest, s.engine.pendingLive = true → s.engine.previews = e :: rest → s.engine.lastKind ≠ .preview → choose s = preview e rest))

/-- A live completion replaces the hull condition record whole with the result classified by WT in force, and sets the stop state by the table of R78 (R66, R77, R78), also one left from CLOSING that completes in a new call (log 39); with no live evaluation running the command changes nothing (log 1). It reports the causes of HULL_AMBER, HULL_RED and TABLE_CLAMP (R80; log 27 for their order), triggers an EXCEPTION report in IN_CALL where the band turns RED (R80), sends hull stop or hull clear to the order engine and then to the pour gate (R79; log 15), and tells the gate of a report-marked evaluation last (R81): the REPORTING step's STEP report is triggered, its serial kept, the step DONE (R155). The engine then takes further work, and the arbiter's run follows at the end of the event (log 14). -/
def Obligations.LiveResultsSetTheStopState : Prop :=
  (∀ s : State, (∀ m i, s.engine.running ≠ some { kind := .live m, inputs := i }) → exec .liveEvaluationComplete s = .next s)
  ∧ (∀ (s : State) (m : Bool) (i : Inputs), s.powered = true → s.engine.running = some { kind := .live m, inputs := i } →
      let r := evaluate true i s.settings.wt
      ∃ t, exec .liveEvaluationComplete s = .next t ∧ ChangesOnly (touches .liveEvaluationComplete) s t
        ∧ t.hull.live = some r ∧ t.hull.completedAt = some s.clocks.uptime
        ∧ (s.hull.stop = .clear → r.band = .red → t.hull.stop = .stopped)
        ∧ (s.hull.stop = .clear → r.band ≠ .red → t.hull.stop = .clear)
        ∧ (s.hull.stop = .stopped → r.band = .red → t.hull.stop = .stopped)
        ∧ (s.hull.stop = .stopped → r.band ≠ .red → s.settings.rs < r.peak → t.hull.stop = .stopped)
        ∧ (s.hull.stop = .stopped → r.band ≠ .red → r.peak ≤ s.settings.rs → t.hull.stop = .clear)
        ∧
        let stop : StopState := if r.band = .red ∨ (s.hull.stop = .stopped ∧ s.settings.rs < r.peak) then .stopped else .clear
        let taken : State := { s with
          hull := { live := some r, stop := stop, completedAt := some s.clocks.uptime }
          attention := causeIn (causeIn (causeIn s.attention 0 (decide (r.band = .amber))) 1 (decide (r.band = .red))) 13 (r.tableLow || r.tableHigh) }
        let reported := if r.band = .red ∧ s.hull.live.map EvalResult.band ≠ some .red ∧ s.call = .inCall
          then trigger taken .exception (currentStep taken) else taken
        let signalled := if s.hull.stop = .clear ∧ stop = .stopped then recheck (halt (ordersHullStop reported) .hull)
          else if stop = .clear ∧ (s.hull.stop = .stopped ∨ s.hull.live = none) then recheck (tryResume (ordersHullClear reported)) else reported
        let marked := if m then reportMarked signalled else signalled
        t = settleArbiter (choose { marked with engine := { marked.engine with running := none, lastKind := .live } }))
  ∧ ∀ s : State,
      ((∀ y ∈ s.pour.plan, y.state ≠ .reporting) → reportMarked s = s)
      ∧ ∀ (before after : List Step) (y : Step), s.pour.plan = before ++ y :: after → (∀ z ∈ before, z.state ≠ .reporting) → y.state = .reporting →
        let serial := s.reports.counter.bind fun n => if n < 65534 then some (n + 1) else none
        let u := trigger s .step (some y)
        reportMarked s = { u with pour := { u.pour with
          outstanding := serial
          plan := u.pour.plan.map fun z => if z.number = y.number
            then { z with state := .done, reportSerial := serial, endTime := some s.clocks.uptime } else z } }

/-- A RED live result that finds the stop state CLEAR halts the pour: the step that is POURING becomes HALTED with cause HULL and its last tally as tally at halt (R78, R79, R152). At hull stop the order engine stops every LOADING order that runs with reason HULL, in slot order, and runs the arbiter; at hull clear every order SUSPENDED with HULL becomes QUEUED, or HELD where a tank of it is held and it is not MANUAL, and the arbiter runs (R79, R128, R129; log 14). -/
def Obligations.RedResultHaltsThePour : Prop :=
  (∀ (s : State) (m : Bool) (i : Inputs) (st : Step), s.powered = true → s.engine.running = some { kind := .live m, inputs := i } →
    PourOk s.pour → (evaluate true i s.settings.wt).band = .red → s.hull.stop = .clear → currentStep s = some st → st.state = .pouring →
    ∃ t st', exec .liveEvaluationComplete s = .next t ∧ t.hull.stop = .stopped ∧ stepByNumber t st.number = some st'
      ∧ st'.state = .halted ∧ st'.haltCause = some .hull ∧ st'.tallyAtHalt = st.lastTally)
  ∧ (∀ (s : State) (loading suspended : List Order),
      loading = ((s.orders.slots.filterMap fun x => x).filter fun o =>
        (o.state = .lineup || o.state = .starting || o.state = .active) && o.direction = some .loading) →
      suspended = ((s.orders.slots.filterMap fun x => x).filter fun o => o.state = .suspended && o.reason = some .hull) →
      let owed := fun (u : State) => { u with orders := { u.orders with runOwed := true } }
      ordersHullStop s = settleArbiter (owed (loading.foldl (fun u o => stopOrder u o.id .hull) s))
      ∧ ordersHullClear s = settleArbiter (owed (suspended.foldl (fun u o => returnHull u o.id) s)))
  ∧ ∀ (s : State) (o : Order), OrdersOk s.orders → some o ∈ s.orders.slots →
      let put := fun (x : Order) => { s with orders := { s.orders with slots := s.orders.slots.map fun z => if z = some o then some x else z } }
      let held := o.manual = false ∧ ∃ t, (t = o.tank ∨ o.dest = some t) ∧ heldBy s.orders.windows t = true
      (held → returnHull s o.id = put { o with reason := some .held })
      ∧ (¬held →
          let u := recheck (put { o with state := .queued })
          returnHull s o.id = { u with orders := { u.orders with runOwed := true } })

/-- A preview's completion reaches its requester: a PREV is answered OK with the record, the reference peak and the direction of R75; an ORDR in admission is refused with NO_GAUGE or LIMIT and leaves its slot, no other order changed, or it becomes QUEUED with the next rank, its direction against the reference peak and the uptime as admitted time, calls for an arbiter run and is answered OK or CLAMPED; the pour gate takes the band as R144 states (R74, R75, R115; log 18 for the replies). The engine then takes further work (R49, R71), and the arbiter's run follows at the end of the event (log 14). With no preview running the command changes nothing (log 1). -/
def Obligations.PreviewsReachTheirRequester : Prop :=
  (∀ s : State, (∀ e x i, s.engine.running ≠ some { kind := .preview e x, inputs := i }) → exec .previewComplete s = .next s)
  ∧ (∀ (s : State) (k : Nat) (os : List (Nat × Int)) (x : Option Int) (i : Inputs), s.powered = true →
      s.engine.running = some { kind := .preview { requester := .console k, overrides := os } x, inputs := i } →
      let r := evaluate false i s.settings.wt
      ∃ t, exec .previewComplete s = .next t ∧ ChangesOnly (.console :: ballastBlocks) s t
        ∧ Replied s t .console k .ok (resultFields r ++ [(.RV, valOr x), (.RV, .num (directionCode (directionOf x r.peak)))]))
  ∧ (∀ (s : State) (o : Order) (k : Nat) (os : List (Nat × Int)) (x : Option Int) (i : Inputs), s.powered = true →
      s.engine.running = some { kind := .preview { requester := .order o.id, overrides := os } x, inputs := i } →
      orderById s o.id = some o → o.state = .admitting → o.slot = some k →
      let r := evaluate false i s.settings.wt
      let idle := fun (u : State) => choose { u with engine := { u.engine with running := none, lastKind := .preview } }
      let refused := fun (oc : Oc) => ∃ t, exec .previewComplete s = .next (idle t) ∧ ChangesOnly [.orders, .console] s t
        ∧ t.orders = { s.orders with slots := s.orders.slots.map fun y => if y.any (fun z => z.id = o.id) then none else y }
        ∧ orderById t o.id = none ∧ Replied s t .console k oc []
      (s.orders.runOwed = false → o.gaugeLost = true → refused .noGauge)
      ∧ (s.orders.runOwed = false → o.gaugeLost = false → r.band = .red → refused .limit)
      ∧ (o.gaugeLost = false → r.band ≠ .red →
        ∃ t, exec .previewComplete s = .next (settleArbiter (idle t)) ∧ ChangesOnly [.orders, .pour, .engine, .console] s t
          ∧ t.orders.rank = s.orders.rank + 1 ∧ t.orders.runOwed = true
          ∧ orderById t o.id = some { o with
              state := .queued, rank := s.orders.rank + 1, direction := some (directionOf x r.peak), admitted := some s.clocks.uptime, slot := none }
          ∧ (∀ j, j ≠ o.id → orderById t j = orderById s j)
          ∧ Replied s t .console k (if o.clamped then .clamped else .ok)
              [(.RV, .num o.id), (.RV, .num o.targetLevel), (.RV, .num o.toMove), (.RV, .num (directionCode (directionOf x r.peak))),
                (.RV, .num r.peak), (.RV, .num (bandCode (some r.band))), (.RV, valOr x)]))
  ∧ (∀ (s : State) (n : Nat) (os : List (Nat × Int)) (x : Option Int) (i : Inputs), s.powered = true → s.orders.runOwed = false →
      s.engine.running = some { kind := .preview { requester := .gate n, overrides := os } x, inputs := i } →
      let u := gateResult s (evaluate false i s.settings.wt).band
      exec .previewComplete s = .next (choose { u with engine := { u.engine with running := none, lastKind := .preview } }))
  ∧ ∀ (p : Int) (q : Int), (directionOf (some p) q = .relieving ↔ q < p) ∧ (directionOf (some p) q = .loading ↔ p ≤ q) ∧ directionOf none q = .loading

/-- PREV makes the tests of R74 in order; accepted its reply waits and its overrides join the preview queue as the newest entry; the queue takes four entries that are not the pour gate's (R70, R74). -/
def Obligations.PrevQueuesAPreview : Prop :=
  ∀ (k : Nat) (s : State) (fs : List PrevField), Asked s .console k (.prev fs) → s.call ≠ .noProfile →
    ((∀ ps : List (Int × Int), fs ≠ ps.flatMap fun p => [.cm p.1, .ms p.2]) → exec (.prev k) s = .next (reply s .console k .format []))
    ∧ ∀ ps : List (Int × Int), fs = (ps.flatMap fun p => [.cm p.1, .ms p.2]) →
      (6 < ps.length → exec (.prev k) s = .next (reply s .console k .format []))
      ∧ (ps.length ≤ 6 →
        ((∃ p ∈ ps, compartmentNamed s p.1 = none) → exec (.prev k) s = .next (reply s .console k .range []))
        ∧ ((∀ p ∈ ps, compartmentNamed s p.1 ≠ none) →
          (4 ≤ (s.engine.previews.filter fun e => !fromGate e).length → exec (.prev k) s = .next (reply s .console k .busy []))
          ∧ ((s.engine.previews.filter fun e => !fromGate e).length < 4 →
            exec (.prev k) s = .next (choose { hold s .console k with engine := { s.engine with
              previews := s.engine.previews ++ [{ requester := .console k, overrides := ps.map fun p => (p.1.toNat, p.2) }] } }))))

/-! ### The plant -/

/-- Valves follow their limits and stroke timers (R88): the table of R88; a valve that no attempt uses changes alone; a change of a line to the level it has, and a stroke timer that is not due, change nothing (log 1, 2). -/
def Obligations.ValvesFollowTheirLimits : Prop :=
  (∀ (l : Limit) (x : Bool) (w : Valve),
    let own : Limit := if w.commandedOpen then .openLimit else .closedLimit
    (w.state = .opening ∨ w.state = .closing ∨ w.state = .fault → x = true → l = own →
      limitChanged l x w = { w with state := if w.commandedOpen then .opened else .closed, stroke := none })
    ∧ (w.state = .opening ∨ w.state = .closing ∨ w.state = .fault → ¬(x = true ∧ l = own) → limitChanged l x w = w)
    ∧ (w.state = .opened → limitChanged l x w = if x = false ∧ l = .openLimit then { w with state := .fault } else w)
    ∧ (w.state = .closed → limitChanged l x w = if x = false ∧ l = .closedLimit then { w with state := .fault } else w))
  ∧ (∀ (v : Nat) (l : Limit) (x : Bool) (s : State), s.powered = true → v < 28 → PlantOk s.plant →
      (lineOn s.plant (limitLine v l) = x → exec (.valveLimitChange v l x) s = .next s)
      ∧ (lineOn s.plant (limitLine v l) = !x → s.orders.runOwed = false → (∀ a ∈ s.plant.attempts, v ∉ a.valves) →
        exec (.valveLimitChange v l x) s = .next { s with plant := { s.plant with
          lines := modAt s.plant.lines (limitLine v l) fun _ => { pin := x, raw := x, debounced := x, hold := none }
          valves := modAt s.plant.valves v (limitChanged l x) } }))
  ∧ ∀ (v e : Nat) (s : State) (w : Valve), s.powered = true → v < 28 → s.plant.valves[v]? = some w → w.stroke = some e →
      (s.clocks.uptime < e → exec (.strokeTimerExpiry v) s = .next s)
      ∧ (e ≤ s.clocks.uptime → w.state = .opening ∨ w.state = .closing → s.orders.runOwed = false →
        (∀ a ∈ s.plant.attempts, v ∉ a.valves) →
        exec (.strokeTimerExpiry v) s = .next { s with plant := { s.plant with
          valves := modAt s.plant.valves v fun _ => { w with state := .fault, stroke := none } } })

/-- A change of a valve's state reaches the attempt that uses it and, for XV, the crossover mode: the last OPEN limit of a line-up passes the attempt to PRIMING (R94), a FAULT takes it down or releases it with LINEUP_FAIL for its order (R96), and XV sets the mode by the table of R104, a change into STRAIGHT or CROSSED calling for an arbiter run (R116); at the priming report an order in LINEUP becomes STARTING, and one in another state stays (R120); the arbiter's run that the event calls for follows at its end (log 14). -/
def Obligations.ValveChangesReachTheirUsers : Prop :=
  (∀ (v : Nat) (s : State) (w : Valve) (a : Attempt), s.powered = true → v < 28 → PlantOk s.plant → s.plant.valves[v]? = some w →
    w.commandedOpen = true → w.state = .opening ∨ w.state = .fault → lineOn s.plant (limitLine v .openLimit) = false →
    s.orders.runOwed = false → (s.plant.attempts.filter fun b => b.valves.contains v) = [a] → attemptOf s.plant a.order = some a →
    a.phase = .liningUp → (∀ u ∈ a.valves, u ≠ v → valveOpen s.plant u = true) →
    (∀ n ∈ a.pumps, 1 ≤ n ∧ n ≤ 4 ∧ ¬(runningOn s.plant n = true ∧ provenOn s.plant n = true)) →
    ∃ t, exec (.valveLimitChange v .openLimit true) s = .next t
      ∧ attemptOf t.plant a.order = some { a with phase := .priming, prove := some (s.clocks.uptime + s.settings.pv.toNat) }
      ∧ (∀ n ∈ a.pumps, ∀ p, s.plant.pumps[n - 1]? = some p → t.plant.pumps[n - 1]? = some { p with state := .priming, startLine := true })
      ∧ ∀ o, orderById s a.order = some o → orderById t a.order = some (if o.state = .lineup then { o with state := .starting } else o))
  ∧ (∀ (c : Instr) (v : Nat) (s : State) (w : Valve) (a : Attempt), s.powered = true → v < 28 → PlantOk s.plant →
      s.plant.valves[v]? = some w → w.state ≠ .fault →
      ((∃ l x, c = .valveLimitChange v l x ∧ lineOn s.plant (limitLine v l) = !x ∧ (limitChanged l x w).state = .fault)
        ∨ (c = .strokeTimerExpiry v ∧ (w.state = .opening ∨ w.state = .closing) ∧ due w.stroke s.clocks.uptime = true)) →
      (s.plant.attempts.filter fun b => b.valves.contains v) = [a] → attemptOf s.plant a.order = some a → a.phase ≠ .takingDown →
      ∃ u, exec c s = .next (settleArbiter u) ∧ (∀ b ∈ u.plant.attempts, b.order = a.order → b.phase = .takingDown)
        ∧ ∀ o, OrdersOk s.orders → orderById s a.order = some o → o.state = .lineup ∨ o.state = .starting ∨ o.state = .active →
            ∃ o', orderById u a.order = some o' ∧ o'.reason = some .lineupFail
              ∧ (o'.state = .stopping ∨ o'.state = .queued ∨ o'.state = .failed))
  ∧ ∀ (c : Instr) (s : State) (w w' : Valve), s.powered = true → PlantOk s.plant → s.plant.valves[28]? = some w → w'.state ≠ w.state →
      ((∃ l x, c = .valveLimitChange 28 l x ∧ lineOn s.plant (limitLine 28 l) = !x ∧ w' = limitChanged l x w)
        ∨ (c = .strokeTimerExpiry 28 ∧ (w.state = .opening ∨ w.state = .closing) ∧ due w.stroke s.clocks.uptime = true
            ∧ w' = { w with state := .fault, stroke := none })) →
      ∃ u, exec c s = .next (settleArbiter u) ∧ u.plant.valves[28]? = some w'
        ∧ u.plant.crossMode = (if w'.state = .fault then .fault
            else if s.plant.crossMode = .changing ∨ s.plant.crossMode = .fault then targetMode s.plant.crossTarget else s.plant.crossMode)
        ∧ (w'.state ≠ .fault → s.plant.crossMode = .changing ∨ s.plant.crossMode = .fault → u.orders = { s.orders with runOwed := true })
        ∧ (w'.state = .fault ∨ (s.plant.crossMode ≠ .changing ∧ s.plant.crossMode ≠ .fault) → u.orders = s.orders)
        ∧ (w'.state = .fault → s.plant.crossMode = .straight ∨ s.plant.crossMode = .crossed → targetMode u.plant.crossTarget = s.plant.crossMode)
        ∧ (w'.state ≠ .fault ∨ s.plant.crossMode = .changing ∨ s.plant.crossMode = .fault → u.plant.crossTarget = s.plant.crossTarget)

/-- Pumps follow their feedbacks: both present prove a PRIMING pump, the last pump starts the attempt and its order becomes ACTIVE (R94, R120); a lost running feedback trips a RUNNING pump and ends the stop of a STOPPING one (R97, R99); the trip fails its attempt with TRIP, also one still PRIMING (R97). An attempt that fails, unless it is taken down already, keeps the cause, makes its running order STOPPING with that reason and its stall window stopped, leaves an order in another state alone, and is released from LINING_UP or else taken down (R95, R96, R97, R125); every other change is recorded alone, a lost feedback of a STOPPED pump that an order holds among them. The arbiter's run that an event calls for follows at its end, and no run is owed before it (log 14). An attempt that is taken down is released once each of its pumps is STOPPED or WITHDRAWN: its pumps lose their holder, each of its valves loses a user and is commanded closed where none is left and it is not closed already (R87, R89), the order leaves its main (R91), the attempt record goes, released is reported, and a pump-available notice calls for a run of the arbiter where a pump of it is available (R99, R116). -/
def Obligations.PumpsFollowTheirFeedbacks : Prop :=
  (∀ (c : Instr) (n i : Nat) (x : Bool) (s : State) (p : Pump), s.powered = true → 1 ≤ n → n ≤ 4 → PlantOk s.plant →
    s.plant.pumps[n - 1]? = some p → s.orders.runOwed = false → lineOn s.plant i = !x →
    ((c = .pressureProvenChange n x ∧ i = n + 3 ∧ (p.state ≠ .priming ∨ x = false ∨ runningOn s.plant n = false))
      ∨ (c = .pumpRunningFeedbackChange n x ∧ i = n - 1
        ∧ ((x = true ∧ (p.state ≠ .priming ∨ provenOn s.plant n = false)) ∨ (x = false ∧ (p.state = .priming ∨ p.state = .withdrawn ∨ (p.state = .stopped ∧ p.holder ≠ none)))))) →
    exec c s = .next { s with plant := { s.plant with
      lines := modAt s.plant.lines i fun _ => { pin := x, raw := x, debounced := x, hold := none } } })
  ∧ (∀ (c : Instr) (n i : Nat) (s : State) (p : Pump) (a : Attempt), s.powered = true → 1 ≤ n → n ≤ 4 → PlantOk s.plant →
      s.plant.pumps[n - 1]? = some p → p.state = .priming → s.orders.runOwed = false → lineOn s.plant i = false →
      ((c = .pressureProvenChange n true ∧ i = n + 3 ∧ runningOn s.plant n = true)
        ∨ (c = .pumpRunningFeedbackChange n true ∧ i = n - 1 ∧ provenOn s.plant n = true)) →
      (s.plant.attempts.find? fun b => b.pumps.contains n) = some a → a.phase = .priming →
      (∀ m ∈ a.pumps, 1 ≤ m ∧ m ≤ 4) →
      ((∃ m ∈ a.pumps, m ≠ n ∧ pumpState s m ≠ .running) →
        exec c s = .next { s with plant := { s.plant with
          lines := modAt s.plant.lines i fun _ => { pin := true, raw := true, debounced := true, hold := none }
          pumps := modAt s.plant.pumps (n - 1) fun _ => { p with state := .running, failures := 0 } } })
      ∧ ((∀ m ∈ a.pumps, m ≠ n → pumpState s m = .running) → attemptOf s.plant a.order = some a →
        ∀ o, orderById s a.order = some o → o.state = .starting → stopCondition s o = none →
        ∃ t, exec c s = .next t ∧ t.plant.pumps = modAt s.plant.pumps (n - 1) (fun _ => { p with state := .running, failures := 0 })
          ∧ attemptOf t.plant a.order = some { a with phase := .running, prove := none }
          ∧ orderById t o.id = some { o with
              state := .active
              started := some s.clocks.uptime
              stall := some { expiry := s.clocks.uptime + s.settings.sw.toNat, baseline := levelOf s o.tank } }))
  ∧ (∀ (n : Nat) (s : State) (p : Pump), s.powered = true → 1 ≤ n → n ≤ 4 → PlantOk s.plant → s.plant.pumps[n - 1]? = some p →
      runningOn s.plant n = true →
      (p.state = .stopped → p.holder = none →
        exec (.pumpRunningFeedbackChange n false) s = .next (settleArbiter { s with
          plant := { s.plant with lines := modAt s.plant.lines (n - 1) fun _ => { pin := false, raw := false, debounced := false, hold := none } }
          orders := { s.orders with runOwed := true } }))
      ∧ (p.state = .running ∨ p.state = .stopping →
        ∃ u p', exec (.pumpRunningFeedbackChange n false) s = .next (settleArbiter u) ∧ u.plant.pumps[n - 1]? = some p'
          ∧ p'.state = (if p.failures = 3 then .withdrawn else .stopped) ∧ p'.startLine = false ∧ p'.failures = p.failures
          ∧ p'.stopTimer = none
          ∧ ∀ id a, p.state = .running → p.holder = some id → attemptOf s.plant id = some a → a.phase = .running →
              ∀ b ∈ u.plant.attempts, b.order = id → b.phase = .takingDown))
  ∧ (∀ (n : Nat) (s : State) (p : Pump) (a : Attempt), s.powered = true → 1 ≤ n → n ≤ 4 → PlantOk s.plant → s.plant.pumps[n - 1]? = some p →
      runningOn s.plant n = true → p.state = .stopping → p.failures ≠ 3 → p.holder = some a.order → attemptOf s.plant a.order = some a →
      let u : State := { s with plant := { s.plant with
        lines := modAt s.plant.lines (n - 1) fun _ => { pin := false, raw := false, debounced := false, hold := none }
        pumps := modAt s.plant.pumps (n - 1) fun _ => { p with state := .stopped, startLine := false, stopTimer := none } } }
      let atRest := a.phase = .takingDown ∧ ∀ m ∈ a.pumps, m ≠ n → pumpState s m = .stopped ∨ pumpState s m = .withdrawn
      (atRest → exec (.pumpRunningFeedbackChange n false) s = .next (settleArbiter (releaseAttempt u a)))
      ∧ (¬atRest → exec (.pumpRunningFeedbackChange n false) s = .next (settleArbiter u)))
  ∧ (∀ (n : Nat) (s : State) (p : Pump) (a : Attempt), s.powered = true → 1 ≤ n → n ≤ 4 → PlantOk s.plant → s.plant.pumps[n - 1]? = some p →
      runningOn s.plant n = true → p.state = .running → p.failures ≠ 3 → p.holder = some a.order → attemptOf s.plant a.order = some a →
      exec (.pumpRunningFeedbackChange n false) s = .next (settleArbiter (failAttempt { s with plant := { s.plant with
        lines := modAt s.plant.lines (n - 1) fun _ => { pin := false, raw := false, debounced := false, hold := none }
        pumps := modAt s.plant.pumps (n - 1) fun _ => { p with state := .stopped, startLine := false, stopTimer := none } } } a.order .trip)))
  ∧ (∀ (s : State) (a : Attempt) (c : FailCause) (r : Reason), OrdersOk s.orders → attemptOf s.plant a.order = some a →
      (c = .lineupFail ∧ r = .lineupFail) ∨ (c = .startFail ∧ r = .startFail) ∨ (c = .trip ∧ r = .trip) →
      (a.phase = .takingDown → failAttempt s a.order c = s)
      ∧
      let caused : State := { s with plant := { s.plant with
        attempts := s.plant.attempts.map fun b => if b.order = a.order then { b with cause := some c } else b } }
      let ends := fun (told : State) =>
        (a.phase = .liningUp → failAttempt s a.order c = releaseAttempt told { a with cause := some c })
        ∧ (a.phase = .priming ∨ a.phase = .running → failAttempt s a.order c = takeDown told { a with cause := some c })
      (∀ o, some o ∈ s.orders.slots → o.id = a.order → o.state = .lineup ∨ o.state = .starting ∨ o.state = .active →
          let stopping : Order := { o with state := .stopping, reason := some r, stall := none }
          ends (recheck { caused with orders := { s.orders with slots := s.orders.slots.map fun z => if z = some o then some stopping else z } }))
      ∧ ((∀ o, some o ∈ s.orders.slots → o.id = a.order → o.state ≠ .lineup ∧ o.state ≠ .starting ∧ o.state ≠ .active) → ends caused))
  ∧ ∀ (s : State) (a : Attempt), PlantOk s.plant → (∀ n ∈ a.pumps, 1 ≤ n ∧ n ≤ 4) → a.valves.Nodup →
      ∃ p : Plant,
        let r := orderReleased { s with plant := p } a.order a.withdrawn
        let rest := (mainRec s.plant a.main).orders.filter fun id => id != a.order
        p = { s.plant with
            pumps := p.pumps, valves := p.valves, portMain := p.portMain, stbdMain := p.stbdMain
            attempts := s.plant.attempts.filter fun b => b.order != a.order }
        ∧ (∀ (i : Nat) (x : Pump), s.plant.pumps[i]? = some x → p.pumps[i]? = some (if i + 1 ∈ a.pumps then { x with holder := none } else x))
        ∧ (∀ (v : Nat) (w : Valve), s.plant.valves[v]? = some w →
            (v ∉ a.valves → p.valves[v]? = some w)
            ∧ (v ∈ a.valves → 1 < w.users ∨ w.state = .closed ∨ w.state = .closing → p.valves[v]? = some { w with users := w.users - 1 })
            ∧ (v ∈ a.valves → w.users ≤ 1 → w.state ≠ .closed → w.state ≠ .closing → p.valves[v]? = some { w with
                users := 0
                commandedOpen := false
                state := if lineOn s.plant (limitLine v .closedLimit) then .closed else .closing
                stroke := if lineOn s.plant (limitLine v .closedLimit) then none else some (s.clocks.uptime + s.settings.vt.toNat) }))
        ∧ mainRec p a.main = { mode := if rest = [] then .idle else (mainRec s.plant a.main).mode, orders := rest }
        ∧ (∀ m, m ≠ a.main → mainRec p m = mainRec s.plant m)
        ∧ ((∃ n ∈ a.pumps, pumpState s n = .stopped ∧ runningOn s.plant n = false) →
            releaseAttempt s a = { r with orders := { r.orders with runOwed := true } })
        ∧ ((∀ n ∈ a.pumps, ¬(pumpState s n = .stopped ∧ runningOn s.plant n = false)) → releaseAttempt s a = r)

/-- At a due prove timer the attempt fails and is taken down, each pump still PRIMING with one failure more, and failed with START_FAIL is reported (R95, R98, R125); at a due stop timer a STOPPING pump is WITHDRAWN and PUMP_WITHDRAWN raised (R99); timers that are not due change nothing (log 2), and the arbiter's run that a due one calls for follows at its end (log 14). A take-down stops the prove timer and releases the start line of every pump that is PRIMING or RUNNING, which becomes STOPPING with its stop timer, or at rest at once without running feedback, WITHDRAWN at a failure count of 3; with every pump at rest the attempt is released (R98, R99; log 45 for the order in which pumps are withdrawn). -/
def Obligations.PumpTimersEndStartsAndStops : Prop :=
  (∀ (id e : Nat) (s : State) (a : Attempt), s.powered = true → PlantOk s.plant → attemptOf s.plant id = some a → a.prove = some e →
    (s.clocks.uptime < e → exec (.proveTimerExpiry id) s = .next s)
    ∧ (e ≤ s.clocks.uptime → a.pumps.Nodup →
      ∃ ps : List Pump, exec (.proveTimerExpiry id) s
          = .next (settleArbiter (failAttempt { s with plant := { s.plant with pumps := ps } } id .startFail))
        ∧ ps.length = s.plant.pumps.length
        ∧ ∀ (i : Nat) (p : Pump), s.plant.pumps[i]? = some p →
            ps[i]? = some (if i + 1 ∈ a.pumps ∧ p.state = .priming then { p with failures := p.failures + 1 } else p))
    ∧ (e ≤ s.clocks.uptime → a.phase = .priming → a.pumps.Nodup →
      ∃ u, exec (.proveTimerExpiry id) s = .next (settleArbiter u) ∧ (∀ b ∈ u.plant.attempts, b.order = id → b.phase = .takingDown)
        ∧ ∀ n ∈ a.pumps, 1 ≤ n → ∀ p, s.plant.pumps[n - 1]? = some p → p.state = .priming ∨ p.state = .running →
            ∃ p', u.plant.pumps[n - 1]? = some p' ∧ p'.startLine = false
              ∧ p'.failures = (if p.state = .priming then p.failures + 1 else p.failures)
              ∧ p'.state = (if runningOn s.plant n then .stopping else if p'.failures = 3 then .withdrawn else .stopped)
              ∧ (p'.state = .stopping → p'.stopTimer = some (s.clocks.uptime + s.settings.ps.toNat))))
  ∧ (∀ (n e : Nat) (s : State) (p : Pump), s.powered = true → 1 ≤ n → PlantOk s.plant → s.plant.pumps[n - 1]? = some p → p.stopTimer = some e →
      (s.clocks.uptime < e → exec (.pumpStopTimerExpiry n) s = .next s)
      ∧ (e ≤ s.clocks.uptime → p.state = .stopping → AttentionOk s.attention →
        ∃ u p', exec (.pumpStopTimerExpiry n) s = .next (settleArbiter u) ∧ u.plant.pumps[n - 1]? = some p' ∧ p'.state = .withdrawn
          ∧ p'.startLine = false ∧ p'.stopTimer = none ∧ p'.failures = p.failures ∧ isPending u.attention 4 = true)
      ∧ ∀ a, e ≤ s.clocks.uptime → p.state = .stopping → p.holder = some a.order → attemptOf s.plant a.order = some a → n ∈ a.pumps →
        let u : State := { s with
          plant := { s.plant with
            pumps := modAt s.plant.pumps (n - 1) fun _ => { p with state := .withdrawn, startLine := false, stopTimer := none }
            attempts := s.plant.attempts.map fun b => if n ∈ b.pumps then { b with withdrawn := b.withdrawn ++ [n] } else b }
          attention := raiseIn s.attention 4 (some n) }
        let atRest := a.phase = .takingDown ∧ ∀ m ∈ a.pumps, m ≠ n → pumpState s m = .stopped ∨ pumpState s m = .withdrawn
        (atRest → exec (.pumpStopTimerExpiry n) s = .next (settleArbiter (releaseAttempt u { a with withdrawn := a.withdrawn ++ [n] })))
        ∧ (¬atRest → exec (.pumpStopTimerExpiry n) s = .next (settleArbiter u)))
  ∧ ∀ (s : State) (a : Attempt), PlantOk s.plant → attemptOf s.plant a.order = some a → a.pumps.Nodup → (∀ n ∈ a.pumps, 1 ≤ n ∧ n ≤ 4) →
      let stops := fun (n : Nat) => pumpState s n = .priming ∨ pumpState s n = .running
      let gone := a.pumps.filter fun n =>
        decide (stops n) && !runningOn s.plant n && decide ((s.plant.pumps[n - 1]?).map Pump.failures = some 3)
      let a' : Attempt := { a with phase := .takingDown, prove := none, withdrawn := a.withdrawn ++ gone }
      ∃ u : State, ChangesOnly [.plant, .attention] s u ∧ u.plant = { s.plant with pumps := u.plant.pumps, attempts := u.plant.attempts }
        ∧ attemptOf u.plant a.order = some a' ∧ u.attention = gone.foldl (fun x n => raiseIn x 4 (some n)) s.attention
        ∧ (∀ (i : Nat) (p : Pump), s.plant.pumps[i]? = some p →
            (i + 1 ∉ a.pumps ∨ ¬stops (i + 1) → u.plant.pumps[i]? = some p)
            ∧ (i + 1 ∈ a.pumps → stops (i + 1) → runningOn s.plant (i + 1) = true → u.plant.pumps[i]? = some { p with
                state := .stopping, startLine := false, stopTimer := some (s.clocks.uptime + s.settings.ps.toNat) })
            ∧ (i + 1 ∈ a.pumps → stops (i + 1) → runningOn s.plant (i + 1) = false → u.plant.pumps[i]? = some { p with
                state := if p.failures = 3 then .withdrawn else .stopped, startLine := false, stopTimer := none }))
        ∧ ((∀ n ∈ a.pumps, pumpState u n = .stopped ∨ pumpState u n = .withdrawn) → takeDown s a = releaseAttempt u a')
        ∧ ((∃ n ∈ a.pumps, pumpState u n ≠ .stopped ∧ pumpState u n ≠ .withdrawn) → takeDown s a = u)

/-- PRST, XOVR with XM, and GANG make their tests in order and are answered with the plant view: PRST returns a WITHDRAWN pump at rest to STOPPED with failure count 0, XOVR commands XV towards the target, GANG sets a group's gang mode (R100, R103, R105). The arbiter's run that an accepted request calls for is made before the plant view is composed (log 14, 40), and the view is laid out as log 18 says. Refusals carry the view too (R106). -/
def Obligations.PlantRequestsChangeThePlant : Prop :=
  (∀ (k : Nat) (s : State) (pu : Int), Asked s .console k (.prst pu) → s.call ≠ .noProfile → PlantOk s.plant →
    (pu < 1 ∨ 4 < pu → exec (.prst k) s = .next (reply s .console k .range (plantView s)))
    ∧ ∀ (n : Nat) (p : Pump), pu = n → 1 ≤ n → n ≤ 4 → s.plant.pumps[n - 1]? = some p →
      (p.state ≠ .withdrawn ∨ runningOn s.plant n = true → exec (.prst k) s = .next (reply s .console k .state (plantView s)))
      ∧ (p.state = .withdrawn → runningOn s.plant n = false →
        let t := settleArbiter { s with
          plant := { s.plant with pumps := modAt s.plant.pumps (n - 1) fun _ => { p with state := .stopped, failures := 0 } }
          orders := { s.orders with runOwed := true } }
        exec (.prst k) s = .next (reply t .console k .ok (plantView t))))
  ∧ (∀ (k : Nat) (s : State) (xm : Int), Asked s .console k (.xovr (some xm)) → s.call ≠ .noProfile → PlantOk s.plant →
      (xm ≠ 0 ∧ xm ≠ 1 → exec (.xovr k) s = .next (reply s .console k .range (plantView s)))
      ∧ ∀ target : CrossTarget, xm = (match target with | .straight => 0 | .crossed => 1) →
        (s.plant.crossMode = .changing ∨ (∃ p ∈ s.plant.pumps, ¬((p.state = .stopped ∧ p.holder = none) ∨ p.state = .withdrawn)) →
          exec (.xovr k) s = .next (reply s .console k .busy (plantView s)))
        ∧ (s.plant.crossMode ≠ .changing → (∀ p ∈ s.plant.pumps, (p.state = .stopped ∧ p.holder = none) ∨ p.state = .withdrawn) →
          (s.plant.crossMode = targetMode target → exec (.xovr k) s = .next (reply s .console k .ok (plantView s)))
          ∧ (s.plant.crossMode ≠ targetMode target →
            ∃ u w, exec (.xovr k) s = .next (reply (settleArbiter u) .console k .ok (plantView (settleArbiter u)))
              ∧ u.plant.crossTarget = target ∧ u.plant.valves[28]? = some w ∧ w.commandedOpen = decide (target = .crossed)
              ∧ w.state ≠ .fault ∧ u.plant.crossMode = (if w.state = .opening ∨ w.state = .closing then .changing else targetMode target))))
  ∧ ∀ (k : Nat) (s : State) (ga gm : Int), Asked s .console k (.gang ga gm) → s.call ≠ .noProfile → PlantOk s.plant →
      ((ga ≠ 0 ∧ ga ≠ 1) ∨ (gm ≠ 0 ∧ gm ≠ 1) → exec (.gang k) s = .next (reply s .console k .range (plantView s)))
      ∧ ∀ (g : Group) (x : Bool), ga = (match g with | .a => 0 | .b => 1) → gm = (if x then 1 else 0) →
        ((∃ n ∈ groupPumps g, ∃ p, s.plant.pumps[n - 1]? = some p ∧ ¬((p.state = .stopped ∧ p.holder = none) ∨ p.state = .withdrawn)) →
          exec (.gang k) s = .next (reply s .console k .busy (plantView s)))
        ∧ ((∀ n ∈ groupPumps g, ∀ p, s.plant.pumps[n - 1]? = some p → (p.state = .stopped ∧ p.holder = none) ∨ p.state = .withdrawn) →
          (ganged s.plant g = x → exec (.gang k) s = .next (reply s .console k .ok (plantView s)))
          ∧ (ganged s.plant g ≠ x →
            let t := settleArbiter { s with
              plant := (match g with | .a => { s.plant with gangedA := x } | .b => { s.plant with gangedB := x })
              orders := { s.orders with runOwed := true } }
            exec (.gang k) s = .next (reply t .console k .ok (plantView t))))

/-! ### Ballast orders -/

/-- ORDR makes the tests of R111 and R112 in their order; a request that passes them and the derivation of R113 and R114 is refused with BUSY where the preview queue has no room, and else enters admission: its record, ADMITTING, stands in an empty slot or in that of the terminal order that ended first, its reply waits, and its preview joins the queue, with the source tank and then for a TRANSFER the destination at their end masses (R73, R115). An MF that is neither 0 nor 1 gives a MANUAL flag that nothing fixes (log 11); which empty slot is taken is left to log 10. -/
def Obligations.OrdrTestsAndEntersAdmission : Prop :=
  (∀ o : Order,
    (o.dest = none → endOverrides o = [(o.tank, (o.endSource : Int))])
    ∧ ∀ d m, o.dest = some d → o.endDest = some m → endOverrides o = [(o.tank, (o.endSource : Int)), (d, (m : Int))])
  ∧ ∀ (k : Nat) (s : State) (f : OrdrFields), Asked s .console k (.ordr f) → s.call = .inCall → OrdersOk s.orders →
    (f.tl.isSome = f.tm.isSome ∨ f.dt.isSome ≠ decide (f.ac = 2) → exec (.ordr k) s = .next (reply s .console k .format []))
    ∧ (f.tl.isSome ≠ f.tm.isSome → f.dt.isSome = decide (f.ac = 2) →
      ∃ manual : Bool, (f.mf = some 1 → manual = true) ∧ (f.mf = some 0 ∨ f.mf = none → manual = false) ∧
      (¬(1 ≤ f.oi ∧ f.oi ≤ 255) ∨ ¬(0 ≤ f.ac ∧ f.ac ≤ 2) ∨ ¬(0 ≤ f.pr ∧ f.pr ≤ 3) ∨ ¬(0 ≤ f.rt ∧ f.rt ≤ 7) ∨ ¬(0 ≤ f.tk ∧ f.tk ≤ 23)
          ∨ (∃ d, f.dt = some d ∧ ¬(0 ≤ d ∧ d ≤ 23)) →
        exec (.ordr k) s = .next (reply s .console k .range []))
      ∧ ∀ (id tk pr rt : Nat) (act : Action) (dt : Option Nat) (g : Target), f.oi = id → 1 ≤ id → id ≤ 255 → f.tk = tk → tk ≤ 23 →
        f.pr = pr → pr ≤ 3 → f.rt = rt → rt ≤ 7 → f.ac = actionCode act → f.dt = dt.map Int.ofNat → (∀ d, dt = some d → d ≤ 23) →
        (g = match f.tl, f.tm with | some l, _ => .level l | none, some m => .mass m | none, none => .level 0) →
        let needed := fun t => t = tk ∨ dt = some t
        ((∃ o, some o ∈ s.orders.slots ∧ o.id = id) → exec (.ordr k) s = .next (reply s .console k .conflict []))
        ∧ ((∀ o, some o ∈ s.orders.slots → o.id ≠ id) →
          ((∀ x ∈ s.orders.slots, ∃ o, x = some o ∧ terminalState o.state = false) →
            exec (.ordr k) s = .next (reply s .console k .full []))
          ∧ ((∃ x ∈ s.orders.slots, ∀ o, x = some o → terminalState o.state = true) →
            ((∃ t, needed t ∧ tankData s t = none) ∨ dt = some tk → exec (.ordr k) s = .next (reply s .console k .range []))
            ∧ ((∀ t, needed t → tankData s t ≠ none) → dt ≠ some tk →
              ((∃ d, dt = some d ∧ mainOf s d ≠ mainOf s tk) → exec (.ordr k) s = .next (reply s .console k .route []))
              ∧ ((∀ d, dt = some d → mainOf s d = mainOf s tk) →
                ((∃ t, needed t ∧ ∀ r, s.tanks[t]? = some r → r.gauge = .withdrawn ∨ r.gauge = .unmapped) →
                  exec (.ordr k) s = .next (reply s .console k .noGauge []))
                ∧ ((∀ t, needed t → ∃ r, s.tanks[t]? = some r ∧ (r.gauge = .normal ∨ r.gauge = .suspect)) →
                  ((∃ t o, needed t ∧ some o ∈ s.orders.slots ∧ terminalState o.state = false ∧ (o.tank = t ∨ o.dest = some t)) →
                    exec (.ordr k) s = .next (reply s .console k .conflict []))
                  ∧ ((∀ t o, needed t → some o ∈ s.orders.slots → terminalState o.state = false → o.tank ≠ t ∧ o.dest ≠ some t) →
                    (manual = false → (∃ t, needed t ∧ heldBy s.orders.windows t = true) →
                      exec (.ordr k) s = .next (reply s .console k .held []))
                    ∧ ((manual = true ∨ ∀ t, needed t → heldBy s.orders.windows t = false) →
                      ∀ (d : TankData) (r : Tank), tankData s tk = some d → s.tanks[tk]? = some r →
                        (derive act d r (dt.bind (tankBoth s)) g = none → exec (.ordr k) s = .next (reply s .console k .range []))
                        ∧ ∀ x, derive act d r (dt.bind (tankBoth s)) g = some x →
                          (4 ≤ (s.engine.previews.filter fun e => !fromGate e).length →
                            exec (.ordr k) s = .next (reply s .console k .busy []))
                          ∧ ((s.engine.previews.filter fun e => !fromGate e).length < 4 →
                            let o := newOrder { id := id, tank := tk, dest := dt, action := act, priority := pr, retries := rt, manual := manual } g x k
                            ∃ i, (s.orders.slots[i]? = some none
                                ∨ ((∀ y ∈ s.orders.slots, y ≠ none) ∧ ∃ y, s.orders.slots[i]? = some (some y) ∧ terminalState y.state = true
                                  ∧ ∀ z, some z ∈ s.orders.slots → terminalState z.state = true →
                                      y.ended.getD 0 < z.ended.getD 0 ∨ (y.ended.getD 0 = z.ended.getD 0 ∧ y.rank ≤ z.rank)))
                              ∧ exec (.ordr k) s = .next (choose { hold s .console k with
                                  orders := { s.orders with slots := modAt s.orders.slots i fun _ => some o }
                                  engine := { s.engine with previews := s.engine.previews ++ [{ requester := .order id, overrides := endOverrides o }] } }))))))))))

/-- The derivation of an order: the target clamped into min and max level, which must lie ahead of the current level; start mass, mass to move and end masses from the tank table and the sounding table (R113); and for a TRANSFER that does not fit the destination's room the source target raised, or RANGE (R114). -/
def Obligations.OrderTargetsAreDerived : Prop :=
  ∀ (act : Action) (d : TankData) (r : Tank) (g : Target),
    let given : Int := match g with | .level l => l | .mass m => levelFor d r.density m
    let level := (saturate d.minLevel d.maxLevel given).toNat
    let target := massAt d.points level r.density
    (∀ dest, (act = .fill ∧ level ≤ r.level) ∨ (act ≠ .fill ∧ r.level ≤ level) → derive act d r dest g = none)
    ∧ (act = .fill → r.level < level →
        derive act d r none g = some
          { level := level, clamped := decide ((level : Int) ≠ given), startMass := r.mass, toMove := target - r.mass, endSource := target, endDest := none })
    ∧ (act = .discharge → level < r.level →
        derive act d r none g = some
          { level := level, clamped := decide ((level : Int) ≠ given), startMass := r.mass, toMove := r.mass - target, endSource := target, endDest := none })
    ∧ ∀ (dd : TankData) (dr : Tank), act = .transfer → level < r.level →
        let room := massAt dd.points dd.maxLevel dr.density - dr.mass
        (r.mass - target ≤ room →
          derive act d r (some (dd, dr)) g = some
            { level := level, clamped := decide ((level : Int) ≠ given), startMass := r.mass, toMove := r.mass - target, endSource := target,
              endDest := some (dr.mass + (r.mass - target)) })
        ∧ (room < r.mass - target →
          let level' := (saturate d.minLevel d.maxLevel (levelFor d r.density ((r.mass : Int) - room))).toNat
          let target' := massAt d.points level' r.density
          (r.level ≤ level' → derive act d r (some (dd, dr)) g = none)
          ∧ (level' < r.level →
            derive act d r (some (dd, dr)) g = some
              { level := level', clamped := true, startMass := r.mass, toMove := r.mass - target', endSource := target',
                endDest := some (dr.mass + (r.mass - target')) }))

/-- OCAN cancels a QUEUED or SUSPENDED order at once and sends a running one to STOPPING with CANCEL; either way its reason is CANCEL; OREL frees the slot of a terminal order; a stall window that expires with too little movement stops its order with STALL and marks the tank's gauge, and with enough movement starts anew (R110, R123, R125, R130, R131). A window that is not due changes nothing (log 2), and the arbiter's run that a stop calls for follows at the end of the event (log 14). A stop of a running order makes it STOPPING with its reason, its stall window stopped, and releases or takes down its attempt by its phase (R98, R125). At the released report the order's pumps are cleared and it becomes DONE, CANCELLED, SUSPENDED, QUEUED or FAILED by its stop reason, with ORDER_DONE or ORDER_FAILED where the table has them and one attempt more for a counted reason (R126, R128, R129; log 26). -/
def Obligations.OrdersStopAndLeave : Prop :=
  (∀ (k : Nat) (s : State) (oi : Int), Asked s .console k (.ocan oi) → s.call = .inCall → OrdersOk s.orders →
    ((∀ o, some o ∈ s.orders.slots → oi ≠ o.id) → exec (.ocan k) s = .next (reply s .console k .range []))
    ∧ ∀ o, some o ∈ s.orders.slots → oi = o.id →
      (o.state = .admitting ∨ o.state = .stopping ∨ terminalState o.state = true → exec (.ocan k) s = .next (reply s .console k .state []))
      ∧ (o.state = .queued ∨ o.state = .suspended →
        ∃ t, exec (.ocan k) s = .next t ∧ ChangesOnly [.orders, .pour, .engine, .console] s t
          ∧ t.orders = { s.orders with
              slots := s.orders.slots.map fun x => if x = some o then some { o with state := .cancelled, reason := some .cancel, ended := some s.clocks.uptime } else x }
          ∧ Replied s t .console k .ok [(.RV, .num 9)])
      ∧ (o.state = .lineup ∨ o.state = .starting ∨ o.state = .active →
        ∃ u o', exec (.ocan k) s = .next (reply (settleArbiter u) .console k .ok (orderStateField (settleArbiter u) o.id))
          ∧ orderById u o.id = some o' ∧ o'.reason = some .cancel ∧ o'.stall = none
          ∧ (o'.state = .stopping ∨ (o'.state = .cancelled ∧ o'.pumps = [] ∧ o'.ended = some s.clocks.uptime))))
  ∧ (∀ (k : Nat) (s : State) (oi : Int), Asked s .console k (.orel oi) → s.call = .inCall → OrdersOk s.orders →
      ((∀ o, some o ∈ s.orders.slots → oi ≠ o.id) → exec (.orel k) s = .next (reply s .console k .range []))
      ∧ ∀ o, some o ∈ s.orders.slots → oi = o.id →
        (terminalState o.state = false → exec (.orel k) s = .next (reply s .console k .state []))
        ∧ (terminalState o.state = true → exec (.orel k) s = .next (reply { s with
            orders := { s.orders with slots := s.orders.slots.map fun x => if x = some o then none else x } } .console k .ok [])))
  ∧ (∀ (s : State) (o : Order) (w : Stall), s.powered = true → OrdersOk s.orders → some o ∈ s.orders.slots → o.stall = some w →
      let level : Int := levelOf s o.tank
      let moved := if o.action = .fill then level - w.baseline else w.baseline - level
      (o.state ≠ .active ∨ s.clocks.uptime < w.expiry → exec (.stallWindowExpiry o.id) s = .next s)
      ∧ (o.state = .active → w.expiry ≤ s.clocks.uptime → s.settings.sm ≤ moved →
        let fresh : Stall := { expiry := s.clocks.uptime + s.settings.sw.toNat, baseline := levelOf s o.tank }
        exec (.stallWindowExpiry o.id) s = .next { s with
          orders := { s.orders with slots := s.orders.slots.map fun x => if x = some o then some { o with stall := some fresh } else x } })
      ∧ (o.state = .active → w.expiry ≤ s.clocks.uptime → moved < s.settings.sm →
        ∃ u o', exec (.stallWindowExpiry o.id) s = .next (settleArbiter u) ∧ orderById u o.id = some o' ∧ o'.stall = none
          ∧ ((o'.reason = some .stall ∧ (o'.state = .stopping ∨ o'.state = .queued ∨ o'.state = .failed))
            ∨ (o'.reason = some .noGauge ∧ o'.state = .failed))
          ∧ ∀ x, s.tanks[o.tank]? = some x → u.tanks = if gaugeInUse x.gauge then modAt s.tanks o.tank badReading else s.tanks))
  ∧ (∀ (s : State) (o : Order) (r : Reason), OrdersOk s.orders → some o ∈ s.orders.slots →
      (o.state ≠ .lineup → o.state ≠ .starting → o.state ≠ .active → stopOrder s o.id r = s)
      ∧ (o.state = .lineup ∨ o.state = .starting ∨ o.state = .active →
        let stopping := { o with state := .stopping, reason := some r, stall := none }
        let u := recheck { s with orders := { s.orders with slots := s.orders.slots.map fun x => if x = some o then some stopping else x } }
        (attemptOf s.plant o.id = none → stopOrder s o.id r = u)
        ∧ ∀ a, attemptOf s.plant o.id = some a →
          (a.phase = .liningUp → stopOrder s o.id r = releaseAttempt u a)
          ∧ (a.phase = .priming ∨ a.phase = .running → stopOrder s o.id r = takeDown u a)
          ∧ (a.phase = .takingDown → stopOrder s o.id r = u)))
  ∧ ∀ (s : State) (o : Order) (withdrawn : List Nat), OrdersOk s.orders → some o ∈ s.orders.slots → o.state = .stopping →
      let moved := fun (x : Order) => recheck { s with orders := { s.orders with slots := s.orders.slots.map fun z => if z = some o then some x else z } }
      let owed := fun (u : State) => { u with orders := { u.orders with runOwed := true } }
      let free : Order := { o with pumps := [] }
      let ended : Order := { free with ended := some s.clocks.uptime }
      let held := o.manual = false ∧ ∃ t, (t = o.tank ∨ o.dest = some t) ∧ heldBy s.orders.windows t = true
      let released := orderReleased s o.id withdrawn
      (o.reason = some .target ∨ o.reason = some .destFull → released = raise (moved { ended with state := .done }) 5 (some o.id))
      ∧ (o.reason = some .cancel → released = moved { ended with state := .cancelled })
      ∧ (o.reason = some .hull → s.hull.stop = .stopped → released = moved { free with state := .suspended })
      ∧ (o.reason = some .hull → s.hull.stop = .clear → held → released = moved { free with state := .suspended, reason := some .held })
      ∧ (o.reason = some .hull → s.hull.stop = .clear → ¬held → released = owed (moved { free with state := .queued }))
      ∧ (o.reason = some .preempted → withdrawn = [] → released = moved { free with state := .suspended })
      ∧ (o.reason = some .preempted → withdrawn ≠ [] → released = owed (moved { free with state := .suspended }))
      ∧ (o.reason = some .noGauge → released = raise (moved { ended with state := .failed }) 6 (some o.id))
      ∧ (o.reason = some .stall ∨ o.reason = some .lineupFail ∨ o.reason = some .startFail ∨ o.reason = some .trip →
        (o.attempts + 1 ≤ o.retries → released = owed (moved { free with state := .queued, attempts := o.attempts + 1 }))
        ∧ (o.retries < o.attempts + 1 →
          released = raise (moved { ended with state := .failed, attempts := o.attempts + 1 }) 6 (some o.id)))

/-- HWIN refuses numbers out of range and windows that would hold more than 18 declared tanks; accepted it sets the given parts of the window, gives every tank the held flag of R132, lets suspended orders change or return, and answers with the windows and the number of tanks held (R129, R132, R133; log 18). An order that returns to QUEUED keeps its reason (log 17), and the arbiter's run follows at the end of the event (log 14). A WV that is neither 0 nor 1 sets a flag that nothing fixes (log 11), and a refusal has no field (log 49). -/
def Obligations.HwinHoldsTanks : Prop :=
  ∀ (k : Nat) (s : State) (wn : Int) (wv wb wm : Option Int), Asked s .console k (.hwin wn wv wb wm) → s.call = .inCall → OrdersOk s.orders →
    (¬(0 ≤ wn ∧ wn ≤ 3) ∨ (∃ b, wb = some b ∧ ¬(0 ≤ b ∧ b ≤ 23)) ∨ (∃ m, wm = some m ∧ ¬(0 ≤ m ∧ m ≤ 31)) →
      exec (.hwin k) s = .next (reply s .console k .range []))
    ∧ ∀ (n : Nat) (b m : Option Nat) (w : Window), wn = n → n ≤ 3 →
      wb = b.map Int.ofNat → (∀ x, b = some x → x ≤ 23) → wm = m.map Int.ofNat → (∀ x, m = some x → x ≤ 31) → s.orders.windows[n]? = some w →
      ∃ v : Option Bool, v.isSome = wv.isSome ∧ (wv = some 0 → v = some false) ∧ (wv = some 1 → v = some true) ∧
      let ws := modAt s.orders.windows n fun _ => { valid := v.getD w.valid, base := b.getD w.base, mask := m.getD w.mask }
      let held := fun t => ws.any fun x => x.valid && (t &&& x.mask) == (x.base &&& x.mask)
      let count := ((upTo s.tanks.length).filter held).length
      (18 < count → exec (.hwin k) s = .next (reply s .console k .limit []))
      ∧ (count ≤ 18 → ∃ u, exec (.hwin k) s = .next (reply (settleArbiter u) .console k .ok
            ((ws.flatMap fun x => [(.RV, .num (if x.valid then 1 else 0)), (.RV, .num x.base), (.RV, .num x.mask)]) ++ [(.RV, .num count)]))
          ∧ u.orders.windows = ws ∧ (settleArbiter u).orders.windows = ws
          ∧ (∀ (i : Nat) (x : Tank), s.tanks[i]? = some x → u.tanks[i]? = some { x with held := held i })
          ∧ ((∃ i, i < s.tanks.length ∧ heldBy s.orders.windows i ≠ held i) → u.orders.runOwed = true)
          ∧ ∀ o, some o ∈ s.orders.slots → o.state = .suspended →
              let needed := o.tank :: o.dest.toList
              (o.reason = some .hull ∨ o.reason = some .preempted →
                orderById u o.id = some (if o.manual = false ∧ ∃ t ∈ needed, held t = true ∧ heldBy s.orders.windows t = false
                  then { o with reason := some .held } else o))
              ∧ (o.reason = some .held →
                orderById u o.id = some (if ∃ t ∈ needed, held t = true then o else { o with state := .queued })))

/-- At the end of an event the owed runs of the arbiter are made one after the other until none is owed; without one nothing changes (R116; log 14, 25). A run considers the QUEUED orders by priority, highest first, then by rank, lowest first, passes an order over by the cases of R117 in their order, and grants it what its serving group offers; a taken start request makes the order LINEUP with its attempt, holds its pumps, joins its main and its line-up valves (R93, R117, R118). At its end each priority-3 order passed over by case 3, 4 or 5 whose group lets it preempts one victim, the ACTIVE order of priority 0 or 1 in its group of lowest priority and among those of highest rank that the run has not taken (R119; log 16), and each order that was SUSPENDED with PREEMPTED before the run returns to QUEUED, or to HELD where it is held (R119, R129). -/
def Obligations.ArbiterJudgesByCases : Prop :=
  ((∀ s : State, (settleArbiter s).orders.runOwed = false ∧ (s.orders.runOwed = false → settleArbiter s = s))
  ∧ (∀ (runs : Nat → State) (n : Nat), n ≤ 64 →
      (∀ j, j < n → (runs j).orders.runOwed = true
        ∧ runs (j + 1) = arbiterRun { runs j with orders := { (runs j).orders with runOwed := false } }) →
      (runs n).orders.runOwed = false → settleArbiter (runs 0) = runs n)
  ∧ (∀ (s : State) (queued back : List Order), OrdersOk s.orders →
      (∀ o, o ∈ queued ↔ some o ∈ s.orders.slots ∧ o.state = .queued) →
      queued.Pairwise (fun a b => b.priority < a.priority ∨ (a.priority = b.priority ∧ a.rank < b.rank)) →
      back = (s.orders.slots.filterMap fun x => x).filter (fun o => o.state = .suspended && o.reason = some .preempted) →
      let considered := queued.foldl (fun (acc : State × List Order) o =>
        match judge acc.1 o with
        | .pass => acc
        | .passUrgent => (acc.1, if o.priority = 3 then acc.2 ++ [o] else acc.2)
        | .grant pumps => (startRequest acc.1 o pumps, acc.2)) (s, [])
      let preempted := (considered.2.filter (mayPreempt considered.1)).foldl preemptFor (considered.1, [])
      arbiterRun s = (back.map Order.id).foldl returnPreempted preempted.1)
  ∧ (∀ (s : State) (o : Order) (g : Group), servingGroup s.plant.crossMode (mainOf s o.tank) = some g →
      let inGroup := fun (x : Order) => ∃ n ∈ x.pumps, n ∈ groupPumps g
      (mayPreempt s o = true ↔ (∀ n ∈ groupPumps g, pumpState s n ≠ .withdrawn)
        ∧ ∀ x, some x ∈ s.orders.slots → inGroup x → ¬(x.state = .stopping ∧ x.reason = some .preempted))
      ∧ ∀ taken : List Nat, OrdersOk s.orders →
        let victim := fun (x : Order) => some x ∈ s.orders.slots ∧ x.state = .active ∧ x.priority ≤ 1 ∧ inGroup x ∧ x.id ∉ taken
        ((∀ x, ¬victim x) → preemptFor (s, taken) o = (s, taken))
        ∧ ∀ v, victim v → (∀ x, victim x → x ≠ v → v.priority < x.priority ∨ (v.priority = x.priority ∧ x.rank < v.rank)) →
            preemptFor (s, taken) o = (stopOrder s v.id .preempted, taken ++ [v.id]))
  ∧ (∀ (s : State) (o : Order), OrdersOk s.orders → some o ∈ s.orders.slots →
      let held := o.manual = false ∧ ∃ t, (t = o.tank ∨ o.dest = some t) ∧ heldBy s.orders.windows t = true
      let put := fun (x : Order) => { s with orders := { s.orders with slots := s.orders.slots.map fun z => if z = some o then some x else z } }
      (¬(o.state = .suspended ∧ o.reason = some .preempted) → returnPreempted s o.id = s)
      ∧ (o.state = .suspended → o.reason = some .preempted → held → returnPreempted s o.id = put { o with reason := some .held })
      ∧ (o.state = .suspended → o.reason = some .preempted → ¬held →
          let u := recheck (put { o with state := .queued })
          returnPreempted s o.id = { u with orders := { u.orders with runOwed := true } })))
  ∧
  (∀ (s : State) (o : Order),
    (s.plant.crossMode = .changing ∨ s.plant.crossMode = .fault → judge s o = .pass)
    ∧ ∀ g, servingGroup s.plant.crossMode (mainOf s o.tank) = some g →
      let main := mainRec s.plant (mainOf s o.tank)
      let limit := if o.action = .transfer ∨ ganged s.plant g = true then 1 else 2
      let held := o.manual = false ∧ ∃ t, (t = o.tank ∨ o.dest = some t) ∧ heldBy s.orders.windows t = true
      let unsafeLoad := o.direction ≠ some .relieving ∧ (s.hull.stop = .stopped ∨ s.hull.live = none)
      (held ∨ unsafeLoad → judge s o = .pass)
      ∧ (¬held → ¬unsafeLoad →
        (main.mode ≠ .idle ∧ (main.mode ≠ actionMode o.action ∨ limit ≤ main.orders.length) → judge s o = .passUrgent)
        ∧ (main.mode = .idle ∨ (main.mode = actionMode o.action ∧ main.orders.length < limit) →
          (offered s g = [] → judge s o = .passUrgent) ∧ (offered s g ≠ [] → judge s o = .grant (offered s g)))))
  ∧ (∀ (s : State) (g : Group), ∃ low high, groupPumps g = [low, high] ∧ low < high
      ∧ (ganged s.plant g = true → offered s g = if available s low = true ∧ available s high = true then [low, high] else [])
      ∧ (ganged s.plant g = false →
          offered s g = if available s low = true then [low] else if available s high = true then [high] else []))
  ∧ ∀ (s : State) (o : Order) (pumps : List Nat), OrdersOk s.orders → PlantOk s.plant → some o ∈ s.orders.slots →
      (startTaken s o pumps = false → startRequest s o pumps = s)
      ∧ (startTaken s o pumps = true →
        let m := mainOf s o.tank
        let valves := lineup o.action m o.tank o.dest
        ∃ o', orderById (startRequest s o pumps) o.id = some o' ∧ o'.pumps = pumps ∧ o'.state ≠ .queued
          ∧ mainRec (startRequest s o pumps).plant m = { mode := actionMode o.action, orders := (mainRec s.plant m).orders ++ [o.id] }
          ∧ (∀ n ∈ pumps, ∀ p, s.plant.pumps[n - 1]? = some p → ∃ p', (startRequest s o pumps).plant.pumps[n - 1]? = some p' ∧ p'.holder = some o.id)
          ∧ (valves.all (fun v => !valveOpen s.plant v && !limitOn s.plant v .openLimit) = true → valves.Nodup →
              o'.state = .lineup
              ∧ (startRequest s o pumps).plant.attempts = s.plant.attempts ++ [Attempt.mk o.id o.action m pumps valves .liningUp none none []]
              ∧ ∀ v ∈ valves, ∀ w, s.plant.valves[v]? = some w →
                  (startRequest s o pumps).plant.valves[v]? = some { w with
                    users := w.users + 1
                    commandedOpen := true
                    state := .opening
                    stroke := if w.state = .opening then w.stroke else some (s.clocks.uptime + s.settings.vt.toNat) }))

/-! ### The pour plan -/

/-- PLAN makes the tests of R135 in order and appends a new PLANNED step or replaces a PLANNED one whole; PCLR removes PLANNED steps from the end alone (R135, R136; log 18 for the replies, log 49 for the refusals, which have no field). -/
def Obligations.PlanWritesAndClearsSteps : Prop :=
  (∀ (k : Nat) (s : State) (st hd pt : Int) (cp : List Companion) (hc : Option Int), Asked s .console k (.plan st hd pt cp hc) →
    s.call = .inCall → PourOk s.pour →
    (4 < cp.length → exec (.plan k) s = .next (reply s .console k .format []))
    ∧ (cp.length ≤ 4 →
      (¬(1 ≤ st ∧ st ≤ 48) ∨ (∀ h : Nat, hd = h → h ≤ 9 → holdData s h = none) ∨ ¬(1 ≤ pt ∧ pt ≤ 60000)
          ∨ (∃ c, hc = some c ∧ ¬(1 ≤ c ∧ c ≤ 3)) ∨ (∃ c ∈ cp, c.order = 0 ∨ 100 < c.required) →
        exec (.plan k) s = .next (reply s .console k .range []))
      ∧ ∀ (n h p : Nat) (c : Option Nat) (d : HoldData), st = n → 1 ≤ n → n ≤ 48 → hd = h → h ≤ 9 → holdData s h = some d →
        pt = p → 1 ≤ p → p ≤ 60000 → hc = c.map Int.ofNat → (∀ x, c = some x → 1 ≤ x ∧ x ≤ 3) →
        (∀ c ∈ cp, c.order ≠ 0 ∧ c.required ≤ 100) →
        (¬(cp.map Companion.order).Nodup → exec (.plan k) s = .next (reply s .console k .conflict []))
        ∧ ((cp.map Companion.order).Nodup →
          (d.capacity < p → exec (.plan k) s = .next (reply s .console k .limit []))
          ∧ (p ≤ d.capacity →
            (s.pour.plan.length + 1 < n → exec (.plan k) s = .next (reply s .console k .sequence []))
            ∧ (n = s.pour.plan.length + 1 →
              exec (.plan k) s = .next (reply { s with pour := { s.pour with plan := s.pour.plan ++ [Step.planned_ n h p cp c] } }
                .console k .ok (stepFields (Step.planned_ n h p cp c))))
            ∧ ∀ y ∈ s.pour.plan, y.number = n →
              (y.state ≠ .planned → exec (.plan k) s = .next (reply s .console k .state []))
              ∧ (y.state = .planned →
                let plan := s.pour.plan.map fun z => if z = y then Step.planned_ n h p cp c else z
                exec (.plan k) s = .next (reply { s with pour := { s.pour with plan := plan } }
                  .console k .ok (stepFields (Step.planned_ n h p cp c))))))))
  ∧ (∀ (k : Nat) (s : State) (left tail : List Step), Asked s .console k (.pclr none) → s.call = .inCall → s.pour.plan = left ++ tail →
      (∀ x ∈ tail, x.state = .planned) → (∀ y, left.getLast? = some y → y.state ≠ .planned) →
      exec (.pclr k) s = .next (reply { s with pour := { s.pour with plan := left } } .console k .ok [(.RV, .num left.length)]))
  ∧ ∀ (k : Nat) (s : State) (st : Int), Asked s .console k (.pclr (some st)) → s.call = .inCall →
      (¬(1 ≤ st ∧ st ≤ s.pour.plan.length) → exec (.pclr k) s = .next (reply s .console k .range []))
      ∧ ∀ left y tail, s.pour.plan = left ++ y :: tail → st = left.length + 1 →
        ((∃ x ∈ y :: tail, x.state ≠ .planned) → exec (.pclr k) s = .next (reply s .console k .state []))
        ∧ ((∀ x ∈ y :: tail, x.state = .planned) →
          exec (.pclr k) s = .next (reply { s with pour := { s.pour with plan := left } } .console k .ok [(.RV, .num left.length)]))

/-- SSKP skips a PLANNED, WAITING or BLOCKED step and sends BLKD for the latter two, SCAN returns the WAITING or BLOCKED current step to PLANNED, LSTP records the loader's stop on a HALTED one, HCOR corrects the mass of a hold that no pour is using and answers with the hold's record, laid out as log 18 says (R139, R148, R156); a refusal has no field (log 49). -/
def Obligations.StepsAndHoldsAreCorrected : Prop :=
  (∀ (k : Nat) (s : State) (st : Int), Asked s .console k (.sskp st) → s.call = .inCall → PourOk s.pour →
    (¬(1 ≤ st ∧ st ≤ s.pour.plan.length) → exec (.sskp k) s = .next (reply s .console k .range []))
    ∧ ∀ y ∈ s.pour.plan, st = y.number →
      let t := modStep s y.number fun x => { x with state := .skipped, holdTimer := none }
      (y.state = .planned → exec (.sskp k) s = .next (reply t .console k .ok []))
      ∧ (y.state = .waiting ∨ y.state = .blocked → exec (.sskp k) s = .next (reply (handTerminal t (.blkd y.number 6)) .console k .ok []))
      ∧ (y.state ≠ .planned → y.state ≠ .waiting → y.state ≠ .blocked → exec (.sskp k) s = .next (reply s .console k .state [])))
  ∧ (∀ (k : Nat) (s : State) (st : Int) (c : Instr), s.call = .inCall → PourOk s.pour →
      (Asked s .terminal k (.scan st) ∧ c = .scan k ∨ Asked s .terminal k (.lstp st) ∧ c = .lstp k) →
      ((∀ y, currentStep s = some y → st ≠ y.number) → exec c s = .next (reply s .terminal k .sequence []))
      ∧ ∀ y, currentStep s = some y → st = y.number →
        (c = .scan k → y.state = .waiting ∨ y.state = .blocked →
          exec c s = .next (reply (modStep s y.number fun x => { x with state := .planned, holdTimer := none })
            .terminal k .ok [(.ST, .num y.number), (.SS, .num 0)]))
        ∧ (c = .scan k → y.state ≠ .waiting → y.state ≠ .blocked → exec c s = .next (reply s .terminal k .state []))
        ∧ (c = .lstp k → y.state = .halted →
          exec c s = .next (reply (modStep s y.number fun x => { x with loaderStopped := true }) .terminal k .ok [(.ST, .num y.number), (.SS, .num 5)]))
        ∧ (c = .lstp k → y.state ≠ .halted → exec c s = .next (reply s .terminal k .state [])))
  ∧ ∀ (k : Nat) (s : State) (hd ms : Int), Asked s .console k (.hcor hd ms) → s.call = .inCall →
      ((∀ h : Nat, hd = h → h ≤ 9 → holdData s h = none) ∨ ¬(0 ≤ ms ∧ ms ≤ 2000000) →
        exec (.hcor k) s = .next (reply s .console k .range []))
      ∧ ∀ (h m : Nat) (d : HoldData), hd = h → h ≤ 9 → holdData s h = some d → ms = m → m ≤ 2000000 →
        ((∃ y, currentStep s = some y ∧ y.hold = h ∧ (y.state = .pouring ∨ y.state = .halted ∨ y.state = .settling)) →
          exec (.hcor k) s = .next (reply s .console k .state []))
        ∧ ((∀ y, currentStep s = some y → y.hold = h → y.state ≠ .pouring ∧ y.state ≠ .halted ∧ y.state ≠ .settling) →
          let u := liveRequest { s with pour := { s.pour with
            holds := modAt s.pour.holds (h - 1) fun x => { x with mass := m, source := .corrected, estimate := none } } } false
          exec (.hcor k) s = .next (reply u .console k .ok (holdFields u h)))

/-- The three checks are read in order (R141). SREQ for the current step, PLANNED or BLOCKED, waits on the first unmet check with a fresh hold timer, or with every check met asks for the gate's preview from NONE alone (R140, R142, R143). The preview sets the hold to its mass plus the planned tonnes, then the tanks of each companion not DONE to their end masses (R73, R143). A recheck gives a WAITING step the first unmet check as its reason, or with every check met makes it EVALUATING with no reply pending, its hold timer running on, and the gate asks from NONE alone; without a WAITING step it changes nothing (R143, R145). At a hold timer's expiry a WAITING or EVALUATING step is BLOCKED with TIMEOUT (R146; log 2). -/
def Obligations.SreqAsksLeaveToPour : Prop :=
  (∀ (s : State) (st : Step),
    let ballast := ∀ c ∈ st.companions, ∃ o, orderById s c.order = some o ∧ (o.state = .done ∨ (o.state = .active ∧ c.required ≤ o.progress))
    let hull := s.hull.stop = .clear ∧ s.hull.live ≠ none ∧ s.term.state = .up
    (s.pour.outstanding ≠ none → firstUnmet s st = some .report)
    ∧ (s.pour.outstanding = none → ¬ballast → firstUnmet s st = some .ballast)
    ∧ (s.pour.outstanding = none → ballast → ¬hull → firstUnmet s st = some .hull)
    ∧ (s.pour.outstanding = none → ballast → hull → firstUnmet s st = none))
  ∧ (∀ (k : Nat) (s : State) (x : Int), Asked s .terminal k (.sreq x) → s.call = .inCall →
      ((∀ y, currentStep s = some y → x ≠ y.number) → exec (.sreq k) s = .next (reply s .terminal k .sequence []))
      ∧ ∀ y, currentStep s = some y → x = y.number →
        (y.state ≠ .planned → y.state ≠ .blocked → exec (.sreq k) s = .next (reply s .terminal k .state []))
        ∧ (y.state = .planned ∨ y.state = .blocked →
          (∀ r, firstUnmet s y = some r →
            let code : Int := (y.holdPeriod.map Int.ofNat).getD s.settings.hp
            let period := if code = 1 then 60 else if code = 2 then 240 else 960
            exec (.sreq k) s = .next (reply (modStep s y.number fun z => { z with
                state := .waiting, waitReason := some r, replyPending := none, holdTimer := some (s.clocks.uptime + period) })
              .terminal k .wait [(.ST, .num y.number), (.RN, .num (waitCode r))]))
          ∧ (firstUnmet s y = none →
            let t := modStep (hold s .terminal k) y.number fun z => { z with state := .evaluating, replyPending := some k }
            (s.pour.preview ≠ .none → exec (.sreq k) s = .next t)
            ∧ (s.pour.preview = .none →
              exec (.sreq k) s = .next (choose { t with
                pour := { t.pour with preview := .forStep y.number }
                engine := { s.engine with previews := s.engine.previews ++ [{ requester := .gate y.number, overrides := gateOverrides t y }] } })))))
  ∧ (∀ (s : State) (y : Step) (h : Hold) (ends : Companion → List (Nat × Int)), holdRec s y.hold = some h →
      (∀ c ∈ y.companions, ∃ o, orderById s c.order = some o ∧ ends c = if o.state = .done then [] else endOverrides o) →
      gateOverrides s y = (23 + y.hold, (h.mass : Int) + y.planned) :: y.companions.flatMap ends)
  ∧ (∀ s : State,
      ((∀ y ∈ s.pour.plan, y.state ≠ .waiting) → recheck s = s)
      ∧ ∀ (before after : List Step) (y : Step), s.pour.plan = before ++ y :: after → (∀ z ∈ before, z.state ≠ .waiting) → y.state = .waiting →
        let put := fun (x : Step → Step) => { s with pour := { s.pour with plan := s.pour.plan.map fun z => if z.number = y.number then x z else z } }
        (∀ r, firstUnmet s y = some r → recheck s = put fun z => { z with waitReason := some r })
        ∧ (firstUnmet s y = none →
          let t := put fun z => { z with state := .evaluating, replyPending := none }
          (s.pour.preview ≠ .none → recheck s = t)
          ∧ (s.pour.preview = .none → recheck s = choose { t with
              pour := { t.pour with preview := .forStep y.number }
              engine := { s.engine with previews := s.engine.previews ++ [{ requester := .gate y.number, overrides := gateOverrides s y }] } })))
  ∧ ∀ (n : Nat) (s : State) (y : Step), s.powered = true → stepByNumber s n = some y →
      let u := raise (handTerminal (modStep s n fun z => { z with state := .blocked, holdTimer := none }) (.blkd n 5)) 7 (some n)
      (due y.holdTimer s.clocks.uptime = false → exec (.holdTimerExpiry n) s = .next s)
      ∧ (due y.holdTimer s.clocks.uptime = true → y.state = .waiting ∨ y.state = .evaluating →
        exec (.holdTimerExpiry n) s
          = .next (if s.pour.preview = .forStep n then { u with pour := { u.pour with preview := .discard } } else u))

/-- At the gate's preview result for an EVALUATING step the checks are read again: an unmet one makes it WAITING, a RED band refuses or blocks it, GREEN and AMBER grant it; a discarded result makes the gate ask for the EVALUATING step (R144). A grant sets step and hold, starts the quiet timer and is told to the terminal (R149, R161). -/
def Obligations.GateResultsGrantOrRefuse : Prop :=
  (∀ (s : State) (band : Band) (n : Nat) (y : Step), s.pour.preview = .forStep n → stepByNumber s n = some y → y.number = n →
    let s0 := { s with pour := { s.pour with preview := .none } }
    (y.state ≠ .evaluating → gateResult s band = s0)
    ∧ (y.state = .evaluating →
      (∀ r k, firstUnmet s0 y = some r → y.replyPending = some k →
        gateResult s band = reply (modStep s0 n fun z => { z with
            state := .waiting, waitReason := some r, replyPending := none, holdTimer := some (holdExpiry s y) })
          .terminal k .wait [(.ST, .num n), (.RN, .num (waitCode r))])
      ∧ (∀ r, firstUnmet s0 y = some r → y.replyPending = none →
        gateResult s band = modStep s0 n fun z => { z with state := .waiting, waitReason := some r })
      ∧ (∀ k, firstUnmet s0 y = none → band = .red → y.replyPending = some k →
        gateResult s band = reply (modStep s0 n fun z => { z with state := .planned, replyPending := none })
          .terminal k .refuse [(.ST, .num n), (.RN, .num 4)])
      ∧ (firstUnmet s0 y = none → band = .red → y.replyPending = none →
        gateResult s band = raise (handTerminal (modStep s0 n fun z => { z with state := .blocked, holdTimer := none }) (.blkd n 4)) 7 (some n))
      ∧ (firstUnmet s0 y = none → band ≠ .red → gateResult s band = grant s0 y)))
  ∧ (∀ (s : State) (band : Band), s.pour.preview = .discard →
      let s0 := { s with pour := { s.pour with preview := .none } }
      ((∀ y ∈ s.pour.plan, y.state ≠ .evaluating) → gateResult s band = s0)
      ∧ ∀ y, (s.pour.plan.find? fun z => z.state = .evaluating) = some y → gateResult s band = askGate s0 y)
  ∧ ∀ (s : State) (y : Step) (h : Hold), holdRec s y.hold = some h →
      let t : State := { s with
        pour := { s.pour with
          plan := s.pour.plan.map fun z => if z.number = y.number
            then { z with
              state := .pouring, base := some h.mass, lastTally := some 0, grantTime := some s.clocks.uptime
              holdTimer := none, waitReason := none, replyPending := none }
            else z
          holds := modAt s.pour.holds (y.hold - 1) fun _ => { h with source := .tally, latest := none, previous := none, estimate := none } }
        term := { s.term with quietTimer := some (s.clocks.uptime + s.settings.qt.toNat), count := 0 } }
      (∀ k, y.replyPending = some k → grant s y = reply t .terminal k .grant [(.ST, .num y.number), (.HD, .num y.hold), (.PT, .num y.planned)])
      ∧ (y.replyPending = none → grant s y = handTerminal t (.grnt y.number y.hold y.planned))

/-- SFRC grants a PLANNED, WAITING, BLOCKED or EVALUATING current step whose report and hull checks are met and resumes a HALTED one, its overshoot accepted (R147; log 18 for its reply). A halt cause halts the POURING step alone; a HALTED step resumes when the hull check is met and its overshoot mark clear (R152, R153). -/
def Obligations.StepsAreForcedHaltedAndResumed : Prop :=
  (∀ (k : Nat) (s : State) (st : Int), Asked s .console k (.sfrc st) → s.call = .inCall → PourOk s.pour →
    ((∀ y, currentStep s = some y → st ≠ y.number) → exec (.sfrc k) s = .next (reply s .console k .sequence []))
    ∧ ∀ y, currentStep s = some y → st = y.number →
      let hull := s.hull.stop = .clear ∧ s.hull.live ≠ none ∧ s.term.state = .up
      (y.state = .planned ∨ y.state = .waiting ∨ y.state = .blocked ∨ y.state = .evaluating →
        (s.pour.outstanding ≠ none → exec (.sfrc k) s = .next (reply s .console k .busy []))
        ∧ (s.pour.outstanding = none → ¬hull → exec (.sfrc k) s = .next (reply s .console k .limit []))
        ∧ (s.pour.outstanding = none → hull →
          let s0 := if s.pour.preview = .forStep y.number then { s with pour := { s.pour with preview := .discard } } else s
          exec (.sfrc k) s = .next (reply (grant s0 y) .console k .ok [(.RV, .num 4)])))
      ∧ (y.state = .halted →
        (¬hull → exec (.sfrc k) s = .next (reply s .console k .limit []))
        ∧ (hull → exec (.sfrc k) s = .next (reply (handTerminal (modStep s y.number fun z => { z with
              overshootMark := false, overshootAccepted := true, state := .pouring, haltCause := none, loaderStopped := false })
            (.grnt y.number y.hold y.planned)) .console k .ok [(.RV, .num 4)])))
      ∧ (y.state = .pouring ∨ y.state = .settling ∨ y.state = .reporting → exec (.sfrc k) s = .next (reply s .console k .state [])))
  ∧ (∀ (s : State) (cause : HaltCause),
      ((∀ y, currentStep s = some y → y.state ≠ .pouring) → halt s cause = s)
      ∧ ∀ y, currentStep s = some y → y.state = .pouring → PourOk s.pour →
        let y' : Step := { y with
          state := .halted, haltCause := some cause, tallyAtHalt := y.lastTally, runOnRaised := false, loaderStopped := false
          overshootMark := y.overshootMark || decide (cause = .overshoot) }
        halt s cause = trigger (raise (handTerminal (modStep s y.number fun _ => y') (.halt y.number (haltCode cause))) 8 (some y.number))
          .exception (some y'))
  ∧ ∀ s : State,
      let hull := s.hull.stop = .clear ∧ s.hull.live ≠ none ∧ s.term.state = .up
      ((∀ y, currentStep s = some y → y.state ≠ .halted ∨ y.overshootMark = true ∨ ¬hull) → tryResume s = s)
      ∧ ∀ y, currentStep s = some y → y.state = .halted → y.overshootMark = false → hull →
        tryResume s = handTerminal (modStep s y.number fun z => { z with state := .pouring, haltCause := none, loaderStopped := false })
          (.grnt y.number y.hold y.planned)

/-- TALY and SFIN make their tests in order; their acceptance in QUIET brings the link to UP. An accepted tally moves the step and its hold, requests a live evaluation, restarts the quiet timer and is tested against the overshoot and run-on limits (R150, R151, R161); an accepted SFIN ends the pour in SETTLING (R154); at the settle timer's expiry, and at once with SI 0, the step is REPORTING and a marked live evaluation is requested (R155). The GRNT of a step that a tally in QUIET resumes and the HALT that its tests call for are placed before its reply (log 34), tally and final tonnage leave the hold without an estimate (log 22), and a settle timer that is not due changes nothing (log 2); a refusal has no field (log 49). -/
def Obligations.TalliesMoveTheHold : Prop :=
  (∀ (k : Nat) (s : State) (hd ty : Int), Asked s .terminal k (.taly hd ty) → s.call = .inCall →
    (¬(0 ≤ ty ∧ ty ≤ 2000000) → exec (.taly k) s = .next (reply s .terminal k .range []))
    ∧ ∀ n : Nat, ty = n → n ≤ 2000000 →
      ((∀ y, currentStep s = some y → y.state ≠ .pouring ∧ y.state ≠ .halted) → exec (.taly k) s = .next (reply s .terminal k .state []))
      ∧ ∀ y, currentStep s = some y → y.state = .pouring ∨ y.state = .halted →
        (hd ≠ y.hold → exec (.taly k) s = .next (reply s .terminal k .sequence []))
        ∧ ∀ (b : Nat) (h : Hold), hd = y.hold → y.base = some b → holdRec s y.hold = some h → PourOk s.pour → SettingsOk s.settings →
          let h' : Hold := { mass := b + n, source := .tally, latest := some { tonnes := n, arrival := s.clocks.uptime }, previous := h.latest, estimate := none }
          let s1 : State := { s with pour := { s.pour with
            plan := s.pour.plan.map fun z => if z = y then { y with lastTally := some n } else z
            holds := modAt s.pour.holds (y.hold - 1) fun _ => h' } }
          let u : State := { liveRequest s1 false with term := { s.term with quietTimer := some (s.clocks.uptime + s.settings.qt.toNat), count := 0 } }
          let above := (y.planned : Int) * (100 + s.settings.oa) / 100 < n
          let answered := fun t => exec (.taly k) s = .next (reply t .terminal k .ok [(.HD, .num y.hold), (.MS, .num (b + n : Nat))])
          (s.term.state = .quiet → ∃ t, answered t ∧ t.term.state = .up ∧ t.term.count = 0 ∧ holdRec t y.hold = some h')
          ∧ (s.term.state ≠ .quiet →
            (y.state = .pouring → y.overshootAccepted = true ∨ ¬above → answered u)
            ∧ (y.state = .pouring → y.overshootAccepted = false → above →
              answered (raise (haltStep u { y with lastTally := some n } .overshoot) 9 (some y.number)))
            ∧ (y.state = .halted →
              let marked := if above ∧ y.overshootAccepted = false then modStep u y.number fun z => { z with overshootMark := true } else u
              let runOn := (y.tallyAtHalt.getD 0 : Int) + s.settings.ro < n ∧ y.runOnRaised = false
              (¬runOn → answered marked)
              ∧ (runOn →
                let noted := modStep marked y.number fun z => { z with runOnRaised := true }
                answered (trigger (raise noted 9 (some y.number)) .exception (stepByNumber noted y.number))))))
  ∧ (∀ (k : Nat) (s : State) (st fn : Int), Asked s .terminal k (.sfin st fn) → s.call = .inCall →
      ((∀ y, currentStep s = some y → st ≠ y.number) → exec (.sfin k) s = .next (reply s .terminal k .sequence []))
      ∧ ∀ y, currentStep s = some y → st = y.number →
        (y.state ≠ .pouring → y.state ≠ .halted → exec (.sfin k) s = .next (reply s .terminal k .state []))
        ∧ (y.state = .pouring ∨ y.state = .halted →
          (¬(0 ≤ fn ∧ fn ≤ 2000000) → exec (.sfin k) s = .next (reply s .terminal k .range []))
          ∧ ∀ (n b : Nat) (h : Hold), fn = n → n ≤ 2000000 → y.base = some b → holdRec s y.hold = some h → PourOk s.pour →
            let s1 : State := { s with pour := { s.pour with
              plan := s.pour.plan.map fun z => if z = y
                then { y with
                  final := some n, overshootMark := false, haltCause := none, state := .settling
                  settleTimer := some (s.clocks.uptime + s.settings.si.toNat) }
                else z
              holds := modAt s.pour.holds (y.hold - 1) fun _ => { h with mass := b + n, source := .tally, estimate := none } } }
            let u : State := { liveRequest s1 false with term := { s.term with quietTimer := none, count := 0 } }
            (s.term.state ≠ .quiet → s.settings.si ≠ 0 →
              exec (.sfin k) s = .next (reply u .terminal k .ok [(.ST, .num y.number), (.SS, .num 6)]))
            ∧ (s.term.state ≠ .quiet → s.settings.si = 0 →
              exec (.sfin k) s = .next (reply (liveRequest (modStep u y.number fun z => { z with state := .reporting, settleTimer := none }) true)
                .terminal k .ok [(.ST, .num y.number), (.SS, .num 7)]))
            ∧ (s.term.state = .quiet →
              ∃ t, exec (.sfin k) s = .next (reply t .terminal k .ok [(.ST, .num y.number), (.SS, .num (if s.settings.si = 0 then 7 else 6))])
                ∧ t.term.state = .up ∧ t.term.count = 0 ∧ t.term.quietTimer = none
                ∧ holdRec t y.hold = some { h with mass := b + n, source := .tally, estimate := none }
                ∧ stepByNumber t y.number = some { y with
                    final := some n, overshootMark := false, haltCause := none
                    state := if s.settings.si = 0 then .reporting else .settling
                    settleTimer := if s.settings.si = 0 then none else some (s.clocks.uptime + s.settings.si.toNat) })))
  ∧ ∀ (n : Nat) (s : State) (y : Step), s.powered = true → stepByNumber s n = some y → y.state = .settling →
      (due y.settleTimer s.clocks.uptime = false → exec (.settleTimerExpiry n) s = .next s)
      ∧ (due y.settleTimer s.clocks.uptime = true →
        exec (.settleTimerExpiry n) s = .next (liveRequest (modStep s n fun z => { z with state := .reporting, settleTimer := none }) true))

/-! ### The terminal link -/

/-- TATT attaches and re-attaches in the order of R159, TDET detaches with its effects of R160, an RPRT under way being abandoned as R178 states: a queued record is pending again with no gap, one discarded while it was sent raises the terminal's gap counter and REPORT_GAP, and one that CEND removed counts none (log 36); in CLOSING a DEPARTURE record whose console flag is clear is removed and the call ends (R20); refused with STATE in UP or QUIET it carries no LS (log 50), and none in LOST either (log 42). The quiet timer's expiries make the link QUIET and at the fourth LOST (R162; log 2), and the pour gate's frames go by the link state (R164). A re-attach restarts the quiet timer with a step POURING or HALTED (log 35). At the change to QUIET the hold of a step POURING or HALTED whose last tally is at or below the overshoot limit comes under ESTIMATE, its mass unmoved (R156; log 22). From DETACHED the reply to TATT is composed before the change is announced (log 46), and the reply to a TDET that ends the call after the test of R20, so its CS is IDLE (log 47). -/
def Obligations.LinkStatesChange : Prop :=
  let withLink := fun (s : State) (l : LinkState) => reportCause { s with term := { s.term with state := l } } 10 (decide (l = .quiet))
  (∀ (k : Nat) (s : State), Asked s .terminal k .tatt →
    let fields := fun (t : State) =>
      [(Field.LS, Val.num (linkCode t.term.state)), (.QC, .num t.term.count), (.ST, .num (((currentStep t).map Step.number).getD 0 : Nat)),
        (.SS, valOr ((currentStep t).map fun y => stepCode y.state))]
    (s.term.state = .up ∨ s.term.state = .quiet → exec (.tatt k) s = .next (reply s .terminal k .ok (fields s)))
    ∧ (s.term.state = .detached →
      let t := withLink s .up
      exec (.tatt k) s = .next (tryResume (recheck (reply t .terminal k .ok (fields t)))))
    ∧ (s.term.state = .lost →
      let sent : State := { s with
        terminal := { s.terminal with queue := s.terminal.queue ++ s.term.kept.map .unsolicited }
        term := { s.term with kept := [], count := 0 } }
      let t0 := withLink sent .up
      let t := if ∃ y, currentStep s = some y ∧ (y.state = .pouring ∨ y.state = .halted)
        then { t0 with term := { t0.term with quietTimer := some (s.clocks.uptime + s.settings.qt.toNat) } } else t0
      exec (.tatt k) s = .next (tryResume (recheck (reply t .terminal k .ok (fields t))))))
  ∧ (∀ (k : Nat) (s : State), Asked s .terminal k .tdet →
      (s.term.state = .detached → exec (.tdet k) s = .next (reply s .terminal k .ok [(.LS, .num 0)]))
      ∧ (s.term.state = .lost → exec (.tdet k) s = .next (reply s .terminal k .state []))
      ∧ (s.term.state = .up ∨ s.term.state = .quiet →
        ((∃ y, currentStep s = some y ∧ (y.state = .pouring ∨ y.state = .halted)) → exec (.tdet k) s = .next (reply s .terminal k .state []))
        ∧ ((∀ y, currentStep s = some y → y.state ≠ .pouring ∧ y.state ≠ .halted) →
          ∃ t, exec (.tdet k) s = .next (reply t .terminal k .ok [(.LS, .num 0)]) ∧ t.term = { s.term with state := .detached, kept := [] }
            ∧ t.terminal.queue = s.terminal.queue.filter staysAtDetach ∧ t.terminal.slots = s.terminal.slots
            ∧ (∀ r c w, s.terminal.tx = some { frame := .rprt r c, wire := w } → t.terminal.tx = none)
            ∧ ((∀ r c w, s.terminal.tx ≠ some { frame := .rprt r c, wire := w }) → t.terminal.tx = s.terminal.tx
                ∧ (s.call ≠ .closing → t.reports = s.reports))
            ∧ (∀ r c w, s.call ≠ .closing → s.terminal.tx = some { frame := .rprt r c, wire := w } →
              ((∃ q ∈ s.reports.queue, q.terminalFlag = .sending) → t.reports = { s.reports with
                  queue := s.reports.queue.map fun q => if q.terminalFlag = .sending then { q with terminalFlag := .pending } else q })
              ∧ ((∀ q ∈ s.reports.queue, q.terminalFlag ≠ .sending) →
                (r.terminalFlag = .clear → t.reports = s.reports)
                ∧ (r.terminalFlag ≠ .clear → t.reports = { s.reports with terminalGap := min 255 (s.reports.terminalGap + 1) }
                  ∧ (AttentionOk s.attention → isPending t.attention 12 = true))))
            ∧ (s.call ≠ .closing → t.call = s.call ∧ t.gauge = s.gauge)
            ∧ (∀ q, s.call = .closing → s.reports.queue = [q] → q.kind = .departure →
              (q.consoleFlag = .clear → t.call = .idle ∧ t.reports.queue = [] ∧ t.gauge = { s.gauge with timer := none, round := none })
              ∧ (q.consoleFlag ≠ .clear → t.call = .closing ∧ t.gauge = s.gauge
                ∧ (q.terminalFlag = .sending → (∃ r c w, s.terminal.tx = some { frame := .rprt r c, wire := w }) →
                    t.reports = { s.reports with queue := [{ q with terminalFlag := .pending }] }))))))
  ∧ (∀ s : State, s.powered = true →
      (due s.term.quietTimer s.clocks.uptime = false → exec .quietTimerExpiry s = .next s)
      ∧ (due s.term.quietTimer s.clocks.uptime = true →
        let t : State := { s with term := { s.term with count := s.term.count + 1, quietTimer := some (s.clocks.uptime + s.settings.qt.toNat) } }
        (s.term.count < 3 → s.term.state ≠ .up → exec .quietTimerExpiry s = .next t)
        ∧ (s.term.count < 3 → s.term.state = .up → exec .quietTimerExpiry s = .next (enterEstimate (recheck (withLink t .quiet))))
        ∧ (3 ≤ s.term.count →
          let u := halt (recheck (withLink { s with term := { s.term with quietTimer := none, count := 4 } } .lost)) .link
          exec .quietTimerExpiry s = .next (trigger (raise u 11 none) .exception (currentStep u)))))
  ∧ (∀ s : State, (∀ y, currentStep s = some y → y.state ≠ .pouring ∧ y.state ≠ .halted) → enterEstimate s = s)
  ∧ (∀ (s : State) (y : Step) (b n : Nat) (h : Hold), currentStep s = some y → y.state = .pouring ∨ y.state = .halted → y.base = some b →
      y.lastTally = some n → holdRec s y.hold = some h → SettingsOk s.settings →
      let limit : Int := (y.planned : Int) * (100 + s.settings.oa) / 100
      (limit < n → enterEstimate s = s)
      ∧ (n ≤ limit → enterEstimate s = { s with pour := { s.pour with
          holds := modAt s.pour.holds (y.hold - 1) fun _ => { h with source := .estimate, estimate := some (b + n) } } }))
  ∧ ∀ (s : State) (u : Unsolicited),
      (s.term.state = .up ∨ s.term.state = .quiet →
        handTerminal s u = { s with terminal := { s.terminal with queue := s.terminal.queue ++ [.unsolicited u] } })
      ∧ (s.term.state = .lost → s.term.kept.length < 4 → handTerminal s u = { s with term := { s.term with kept := s.term.kept ++ [u] } })
      ∧ (∀ x a b c, s.term.state = .lost → s.term.kept = [x, a, b, c] → handTerminal s u = { s with term := { s.term with kept := [a, b, c, u] } })
      ∧ (s.term.state = .detached → handTerminal s u = s)

/-! ### Reports and attention -/

/-- RCFG makes its tests in order, replaces the settings that it names and keeps the others, and answers with the settings laid out as log 18 says (R169); an LM that is neither 0 nor 1 sets a length mode that nothing fixes (log 11). RREQ generates a SURVEY report and answers with its serial and the records queued, or with LIMIT once serial 65,534 is taken (R173, R179). A trigger composes a record from the snapshot and queues it, from a full queue the oldest record being discarded first, with REPORT_GAP where its flag for a link is pending (R171, R172, R173, R174, R175; log 48): the items of the content list, each 0xFF code expanded, with their values as the records stand, in as many places as the length mode gives, and the header fields (R170, R171, R172). A content code is in range where its family is 1 to 13 and its index in the family's range or 0xFF (R169, R170). -/
def Obligations.ReportRequestsAreAnswered : Prop :=
  (∀ (k : Nat) (s : State) (f : RcfgFields), Asked s .console k (.rcfg f) →
    (¬(f.lm = some 1 ↔ f.ll.isSome = true) ∨ 40 < f.ic.length → exec (.rcfg k) s = .next (reply s .console k .format []))
    ∧ ((f.lm = some 1 ↔ f.ll.isSome = true) → f.ic.length ≤ 40 →
      (¬(0 ≤ f.rk ∧ f.rk ≤ 3) ∨ (∃ x, f.ru = some x ∧ ¬(0 ≤ x ∧ x ≤ 2)) ∨ (∃ x, f.ch = some x ∧ ¬(0 ≤ x ∧ x ≤ 15) ∧ x ≠ 255)
          ∨ (∃ x, f.ll = some x ∧ ¬(4 ≤ x ∧ x ≤ 64)) ∨ (f.ic ≠ [0] ∧ ∃ x ∈ f.ic, codeOk x = false) →
        exec (.rcfg k) s = .next (reply s .console k .range []))
      ∧ ∀ (rk : ReportKind) (ru : Option Route) (ch : Option (Option Nat)) (ll : Option Nat) (ic : List Nat),
        f.rk = reportCode rk → f.ru = ru.map routeCode → f.ch = ch.map overrideCode → (∀ n, ch = some (some n) → n ≤ 15) →
        f.ll = ll.map Int.ofNat → (∀ n, ll = some n → 4 ≤ n ∧ n ≤ 64) → f.ic = ic.map Int.ofNat →
        f.ic = [0] ∨ (∀ x ∈ f.ic, codeOk x = true) →
        let old := settingsOf s.reports rk
        ∃ mode : LengthMode, (f.lm = none → mode = old.lengthMode) ∧ (f.lm = some 0 → mode = .auto)
          ∧ (∀ n, f.lm = some 1 → ll = some n → mode = .fixed n) ∧ (∀ n, f.lm ≠ none → mode = .fixed n → 4 ≤ n ∧ n ≤ 64) ∧
        let x : ReportSettings :=
          { route := ru.getD old.route, channel := ch.getD old.channel,
            lengthMode := mode,
            content := if f.ic = [] then old.content else if f.ic = [0] then [] else ic }
        exec (.rcfg k) s = .next (reply { s with reports := withSettings s.reports rk x } .console k .ok (settingsFields x))
          ∧ settingsOf (withSettings s.reports rk x) rk = x ∧ ∀ other, other ≠ rk → settingsOf (withSettings s.reports rk x) other = settingsOf s.reports other))
  ∧ (∀ (k : Nat) (s : State), Asked s .console k .rreq → s.call = .inCall →
      (s.reports.counter = none ∨ (∃ n, s.reports.counter = some n ∧ 65534 ≤ n) → exec (.rreq k) s = .next (reply s .console k .limit []))
      ∧ ∀ n, s.reports.counter = some n → n < 65534 →
        let x := compose s .survey none (n + 1)
        (s.reports.queue.length < 8 →
          exec (.rreq k) s = .next (reply { s with reports := { s.reports with queue := s.reports.queue ++ [x], counter := some (n + 1) } }
            .console k .ok [(.SR, .num (n + 1 : Nat)), (.QN, .num (s.reports.queue.length + 1 : Nat))]))
        ∧ ∀ old rest, s.reports.queue = old :: rest → rest.length = 7 →
          ∃ t, exec (.rreq k) s = .next (reply t .console k .ok [(.SR, .num (n + 1 : Nat)), (.QN, .num 8)])
            ∧ t.reports.queue = rest ++ [x] ∧ t.reports.counter = some (n + 1)
            ∧ t.reports.consoleGap = (if old.consoleFlag = .pending then min 255 (s.reports.consoleGap + 1) else s.reports.consoleGap)
            ∧ t.reports.terminalGap = (if old.terminalFlag = .pending then min 255 (s.reports.terminalGap + 1) else s.reports.terminalGap)
            ∧ (AttentionOk s.attention → old.consoleFlag = .pending ∨ old.terminalFlag = .pending → isPending t.attention 12 = true)
            ∧ (s.pour.outstanding = some old.serial → t.pour.outstanding = none))
  ∧ (∀ (s : State) (k : ReportKind) (y : Option Step), k ≠ .departure →
      (s.reports.counter = none ∨ (∃ n, s.reports.counter = some n ∧ 65534 ≤ n) → trigger s k y = s)
      ∧ ∀ n, s.reports.counter = some n → n < 65534 →
        let x := compose s k y (n + 1)
        (s.reports.queue.length < 8 →
          trigger s k y = { s with reports := { s.reports with queue := s.reports.queue ++ [x], counter := some (n + 1) } })
        ∧ ∀ old rest, s.reports.queue = old :: rest → rest.length = 7 →
          let gaps := old.consoleFlag = .pending ∨ old.terminalFlag = .pending
          let u : State := { s with
            reports := { s.reports with
              queue := rest ++ [x]
              counter := some (n + 1)
              consoleGap := if old.consoleFlag = .pending then min 255 (s.reports.consoleGap + 1) else s.reports.consoleGap
              terminalGap := if old.terminalFlag = .pending then min 255 (s.reports.terminalGap + 1) else s.reports.terminalGap }
            attention := if gaps then raiseIn s.attention 12 (some old.serial) else s.attention
            pour := if s.pour.outstanding = some old.serial then { s.pour with outstanding := none } else s.pour }
          trigger s k y = recheck u)
  ∧ (∀ (s : State) (p : Profile) (k : ReportKind) (y : Option Step) (serial : Nat), s.profile = .valid p →
      let x := compose s k y serial
      let set := settingsOf s.reports k
      let from1 := fun (n : Nat) => (List.range n).map fun i => i + 1
      let whole := fun (family : Nat) =>
        if family = 1 ∨ family = 2 ∨ family = 3 then List.range p.tanks.length
        else if family = 4 ∨ family = 5 then from1 p.holds.length
        else if family = 6 ∨ family = 7 ∨ family = 8 ∨ family = 9 then from1 p.frames.length
        else if family = 10 then List.range 11
        else if family = 11 ∨ family = 12 then from1 4
        else if family = 13 then List.range 4 else []
      let codes := set.content.flatMap fun code => if code % 256 = 255 then (whole (code / 256)).map fun i => code / 256 * 256 + i else [code]
      let length := match set.lengthMode with | .auto => min 64 (max 4 (4 * ((codes.length + 3) / 4))) | .fixed l => l
      x.kind = k ∧ x.serial = serial
      ∧ x.channel = set.channel.getD (match k with | .step => 1 | .survey => 2 | .exception => 3 | .departure => 4)
      ∧ (x.truncated = true ↔ length < codes.length)
      ∧ x.items.length = length
      ∧ (∀ j c, j < length → codes[j]? = some c → x.items[j]? = some { code := c, value := itemValue s y c })
      ∧ (∀ j, j < length → codes.length ≤ j → x.items[j]? = some { code := 0, value := some 0 })
      ∧ (x.tableLow = true ↔ ∃ r, s.hull.live = some r ∧ r.tableLow = true) ∧ (x.tableHigh = true ↔ ∃ r, s.hull.live = some r ∧ r.tableHigh = true)
      ∧ x.callClock = s.clocks.call ∧ x.uptime = s.clocks.uptime
      ∧ x.step = (match y with | some z => z.number | none => 0)
      ∧ (x.consoleFlag = if set.route = .terminal then .clear else .pending) ∧ (x.terminalFlag = if set.route = .console then .clear else .pending))
  ∧ (∀ (s : State) (y : Option Step),
      let item := itemValue s y
      (∀ i, i < 24 → s.tanks[i]? = none → item (0x100 + i) = none ∧ item (0x200 + i) = none ∧ item (0x300 + i) = none)
      ∧ (∀ i t, i < 24 → s.tanks[i]? = some t →
          item (0x100 + i) = some t.level ∧ item (0x200 + i) = some t.mass ∧ item (0x300 + i) = some (gaugeCode t.gauge))
      ∧ (∀ h, 1 ≤ h → h ≤ 9 → holdData s h = none → item (0x400 + h) = none ∧ item (0x500 + h) = none)
      ∧ (∀ h d r, 1 ≤ h → h ≤ 9 → holdData s h = some d → s.pour.holds[h - 1]? = some r →
          item (0x400 + h) = some r.mass ∧ item (0x500 + h) = some (holdSourceCode r.source))
      ∧ (s.hull.live = none → item 0xA08 = some (bandCode none) ∧ (∀ i, i < 11 → i ≠ 8 → item (0xA00 + i) = none)
          ∧ ∀ f, 1 ≤ f → f ≤ 12 → item (0x600 + f) = none ∧ item (0x700 + f) = none ∧ item (0x800 + f) = none ∧ item (0x900 + f) = none)
      ∧ (∀ r, s.hull.live = some r →
          (List.range 11).map (fun i => item (0xA00 + i)) = [some r.displacement, some r.tMean, some r.tAft, some r.tFwd, some r.trim, some r.lcg,
            some r.peak, some (peakSourceCode r.peakSource), some (bandCode (some r.band)), some r.ballast, some r.cargo]
          ∧ ∀ f, 1 ≤ f → f ≤ 12 → item (0x600 + f) = (r.sf[f - 1]?).join ∧ item (0x700 + f) = (r.bm[f - 1]?).join
            ∧ item (0x800 + f) = (r.sfUtil[f - 1]?).join ∧ item (0x900 + f) = (r.bmUtil[f - 1]?).join)
      ∧ (∀ n q, 1 ≤ n → n ≤ 4 → s.plant.pumps[n - 1]? = some q →
          item (0xB00 + n) = some (pumpCode q.state) ∧ item (0xC00 + n) = some ((min 2147483647 q.runSeconds : Nat) : Int))
      ∧ (y = none → ∀ i, i < 4 → item (0xD00 + i) = none)
      ∧ ∀ z, y = some z → item 0xD00 = some z.number ∧ item 0xD01 = some z.planned ∧ item 0xD02 = z.final.map Int.ofNat ∧ item 0xD03 = some z.hold)
  ∧ ∀ x : Int, codeOk x = true ↔ ∃ family index : Nat, x = family * 256 + index
      ∧ ((1 ≤ family ∧ family ≤ 3 ∧ index ≤ 23)
        ∨ (4 ≤ family ∧ family ≤ 5 ∧ 1 ≤ index ∧ index ≤ 9)
        ∨ (6 ≤ family ∧ family ≤ 9 ∧ 1 ≤ index ∧ index ≤ 12)
        ∨ (family = 10 ∧ index ≤ 10)
        ∨ (11 ≤ family ∧ family ≤ 12 ∧ 1 ≤ index ∧ index ≤ 4)
        ∨ (family = 13 ∧ index ≤ 3)
        ∨ (1 ≤ family ∧ family ≤ 13 ∧ index = 255))

/-- AENB replaces the mask, withdraws the notices of conditions now disabled and owes one, in rising number, to each pending condition newly enabled (R185; log 18 for its reply); AACK acts on each named condition by its kind and state, and answers with the numbers of the pending conditions (R186; log 18 for the form of the set). -/
def Obligations.AttentionRequestsAct : Prop :=
  (∀ (k : Nat) (s : State) (em : Int), Asked s .console k (.aenb em) → AttentionOk s.attention →
    (¬(0 ≤ em ∧ em ≤ 0x3FFF) → exec (.aenb k) s = .next (reply s .console k .range []))
    ∧ ∀ n : Nat, em = n → n ≤ 0x3FFF →
      ∃ kept fresh, exec (.aenb k) s = .next (reply { s with attention := { s.attention with mask := BitVec.ofNat 14 n, owed := kept ++ fresh } }
          .console k .ok [(.RV, .num n)])
        ∧ kept = s.attention.owed.filter (fun c => n.testBit c) ∧ fresh.Pairwise (· < ·)
        ∧ ∀ c, c ∈ fresh ↔ c < 14 ∧ n.testBit c = true ∧ enabled s.attention c = false ∧ isPending s.attention c = true)
  ∧ ∀ (k : Nat) (s : State) (cn : List Int), Asked s .console k (.aack cn) → AttentionOk s.attention →
      ((∃ x ∈ cn, ¬(0 ≤ x ∧ x ≤ 13)) → exec (.aack k) s = .next (reply s .console k .range []))
      ∧ ∀ ns : List Nat, cn = ns.map Int.ofNat → (∀ n ∈ ns, n ≤ 13) →
        ∃ a, exec (.aack k) s = .next (reply { s with attention := a } .console k .ok
            (((upTo 14).filter fun n => isPending a n).map fun n : Nat => (.RV, .num n)))
          ∧ a.mask = s.attention.mask
          ∧ ∀ n c, s.attention.conditions[n]? = some c →
            (n ∉ ns → a.conditions[n]? = some c ∧ (n ∈ a.owed ↔ n ∈ s.attention.owed))
            ∧ (n ∈ ns → isLevel n = false → a.conditions[n]? = some Condition.initial ∧ n ∉ a.owed)
            ∧ (n ∈ ns → isLevel n = true → a.conditions[n]? = some { c with count := if c.cause then c.count else 0 }
                ∧ (n ∈ a.owed ↔ n ∈ s.attention.owed))

/-- A raised latched condition: one that is not pending becomes pending with count 1, the detail as first and latest, and a notice owed if it is enabled; a pending one counts up to 255 and takes the detail as latest, no notice becoming owed (R182). -/
def Obligations.LatchedConditionsAreRaised : Prop :=
  ∀ (a : Attention) (n : Nat) (c : Condition) (detail : Option Nat), a.conditions[n]? = some c →
    let b := raiseIn a n detail
    b.mask = a.mask ∧ (∀ m, m ≠ n → b.conditions[m]? = a.conditions[m]?)
    ∧ (c.pending = false → b.conditions[n]? = some { c with pending := true, count := 1, first := detail, latest := detail }
        ∧ (enabled a n = true → n ∉ a.owed → b.owed = a.owed ++ [n]) ∧ (enabled a n = true → n ∈ a.owed → b.owed = a.owed)
        ∧ (enabled a n = false → b.owed = a.owed))
    ∧ (c.pending = true → b.conditions[n]? = some { c with count := min 255 (c.count + 1), latest := detail } ∧ b.owed = a.owed)

/-- A level condition's cause: as it begins to hold the condition becomes pending, counts up to 255 and owes a notice if enabled; as it stops the condition is not pending, its count kept and its notice withdrawn; a report that repeats the recorded state changes nothing (R183). The owners report: the terminal port the cause of TERMINAL_QUIET as it sets the link state, the hull supervisor those of HULL_AMBER, HULL_RED and TABLE_CLAMP that its record gives, and after a reset of the record that none of the three holds. -/
def Obligations.LevelConditionsFollowTheirCause : Prop :=
  (∀ (s : State) (l : LinkState),
    setLinkState s l = { s with term := { s.term with state := l }, attention := causeIn s.attention 10 (decide (l = .quiet)) })
  ∧ (∀ (s : State) (n : Nat) (c : Condition), s.attention.conditions[n]? = some c →
      let t := reportHullCauses s
      let held := s.hull.live.map EvalResult.band
      t = { s with attention := t.attention } ∧ resetHull s = reportHullCauses { s with hull := Hull.initial }
        ∧ ∃ d, t.attention.conditions[n]? = some d
          ∧ d.cause = (if n = 0 then decide (held = some .amber) else if n = 1 then decide (held = some .red)
              else if n = 13 then s.hull.live.any fun r => r.tableLow || r.tableHigh else c.cause)
          ∧ (d.cause = c.cause → d = c)
          ∧ (s.hull = Hull.initial → n = 0 ∨ n = 1 ∨ n = 13 → d.cause = false))
  ∧ ∀ (a : Attention) (n : Nat) (c : Condition), a.conditions[n]? = some c →
    (∀ holds, c.cause = holds → causeIn a n holds = a)
    ∧ (c.cause = false →
      let b := causeIn a n true
      b.mask = a.mask ∧ (∀ m, m ≠ n → b.conditions[m]? = a.conditions[m]?)
        ∧ b.conditions[n]? = some { c with pending := true, cause := true, count := min 255 (c.count + 1) }
        ∧ (enabled a n = true → n ∉ a.owed → b.owed = a.owed ++ [n]) ∧ (enabled a n = false ∨ n ∈ a.owed → b.owed = a.owed))
    ∧ (c.cause = true →
      let b := causeIn a n false
      b.mask = a.mask ∧ (∀ m, m ≠ n → b.conditions[m]? = a.conditions[m]?)
        ∧ b.conditions[n]? = some { c with pending := false, cause := false } ∧ b.owed = a.owed.filter fun m => m != n)

/-! ### Laws that every step keeps -/

/-- Right after reset every block keeps its laws (R24, R25, R30, R45, R47, R83, R84, R107, R108, R134, R138, R157, R166, R180, R187). -/
def Obligations.LawsHoldAtReset : Prop :=
  let s := State.reset
  SettingsOk s.settings ∧ CallOk s ∧ GaugeOk s.gauge ∧ TanksOk s.tanks ∧ EngineOk s.engine ∧ HullOk s.hull ∧ PlantOk s.plant
    ∧ OrdersOk s.orders ∧ PourOk s.pour ∧ TermOk s.term ∧ ReportsOk s.reports ∧ AttentionOk s.attention ∧ PortOk s.console ∧ PortOk s.terminal
    ∧ s.orders.runOwed = false

/-- Every step keeps the laws of the call, the settings, the gauges and the hull: settings in range with TN below TX (R25, R26); NO_PROFILE exactly without a profile in force, one record for each declared tank (R17, R45); calibrations in range, scores, rings, sources and channels that agree with the gauge state (R30, R35, R40 to R42); at most 4 waiting previews that are not the gate's (R70); STOPPED while the live result is RED (R78). -/
def Obligations.StepsKeepTheInventoryAndHullLaws : Prop :=
  ∀ s t : State, step s = .next t →
    (SettingsOk s.settings → SettingsOk t.settings) ∧ (CallOk s → CallOk t) ∧ (GaugeOk s.gauge → GaugeOk t.gauge)
      ∧ (TanksOk s.tanks → TanksOk t.tanks) ∧ (EngineOk s.engine → EngineOk t.engine) ∧ (HullOk s.hull → HullOk t.hull)

/-- Every step keeps the laws of plant, orders, pour and links: start lines and stroke timers that agree with their states, mains IDLE exactly without orders and at most two on each (R87, R88, R90, R91); 16 order slots, no id twice, numbers in range (R108, R109, R111); a plan of at most 48 steps numbered from 1 without a gap (R134); count and kept list of at most 4 (R158); at most 8 reports, gap counters up to 255 (R174, R175); notices owed only for enabled pending conditions (R184); 8 slots with requests that arrived one after another and at most 8 port replies on each link (R12, R190; log 51). No step leaves a run of the arbiter owed (R116; log 14). -/
def Obligations.StepsKeepThePlantAndLinkLaws : Prop :=
  ∀ s t : State, step s = .next t →
    (PlantOk s.plant → PlantOk t.plant) ∧ (OrdersOk s.orders → OrdersOk t.orders) ∧ (PourOk s.pour → PourOk t.pour)
      ∧ (TermOk s.term → TermOk t.term) ∧ (ReportsOk s.reports → ReportsOk t.reports) ∧ (AttentionOk s.attention → AttentionOk t.attention)
      ∧ (PortOk s.console → PortOk t.console) ∧ (PortOk s.terminal → PortOk t.terminal)
      ∧ (s.orders.runOwed = false → t.orders.runOwed = false)

end
end

