-- ==== Sys2Proof/Laws/State.lean ====
section
/-! SUPPORT. One lemma for each field under each setter of the state, so that no proof unfolds a record update. -/

namespace Sys2Proof.Machine

@[simp] theorem setPowered_powered (s : State) (x : Bool) : (setPowered s x).powered = x := rfl
@[simp] theorem setPowered_clocks (s : State) (x : Bool) : (setPowered s x).clocks = s.clocks := rfl
@[simp] theorem setPowered_call (s : State) (x : Bool) : (setPowered s x).call = s.call := rfl
@[simp] theorem setPowered_settings (s : State) (x : Bool) : (setPowered s x).settings = s.settings := rfl
@[simp] theorem setPowered_rates (s : State) (x : Bool) : (setPowered s x).rates = s.rates := rfl
@[simp] theorem setPowered_profile (s : State) (x : Bool) : (setPowered s x).profile = s.profile := rfl
@[simp] theorem setPowered_stored (s : State) (x : Bool) : (setPowered s x).stored = s.stored := rfl
@[simp] theorem setPowered_gauge (s : State) (x : Bool) : (setPowered s x).gauge = s.gauge := rfl
@[simp] theorem setPowered_tanks (s : State) (x : Bool) : (setPowered s x).tanks = s.tanks := rfl
@[simp] theorem setPowered_engine (s : State) (x : Bool) : (setPowered s x).engine = s.engine := rfl
@[simp] theorem setPowered_hull (s : State) (x : Bool) : (setPowered s x).hull = s.hull := rfl
@[simp] theorem setPowered_plant (s : State) (x : Bool) : (setPowered s x).plant = s.plant := rfl
@[simp] theorem setPowered_orders (s : State) (x : Bool) : (setPowered s x).orders = s.orders := rfl
@[simp] theorem setPowered_pour (s : State) (x : Bool) : (setPowered s x).pour = s.pour := rfl
@[simp] theorem setPowered_term (s : State) (x : Bool) : (setPowered s x).term = s.term := rfl
@[simp] theorem setPowered_reports (s : State) (x : Bool) : (setPowered s x).reports = s.reports := rfl
@[simp] theorem setPowered_attention (s : State) (x : Bool) : (setPowered s x).attention = s.attention := rfl
@[simp] theorem setPowered_console (s : State) (x : Bool) : (setPowered s x).console = s.console := rfl
@[simp] theorem setPowered_terminal (s : State) (x : Bool) : (setPowered s x).terminal = s.terminal := rfl
@[simp] theorem setPowered_wrstPending (s : State) (x : Bool) : (setPowered s x).wrstPending = s.wrstPending := rfl
@[simp] theorem setPowered_pending (s : State) (x : Bool) : (setPowered s x).pending = s.pending := rfl

@[simp] theorem setClocks_powered (s : State) (x : Clocks) : (setClocks s x).powered = s.powered := rfl
@[simp] theorem setClocks_clocks (s : State) (x : Clocks) : (setClocks s x).clocks = x := rfl
@[simp] theorem setClocks_call (s : State) (x : Clocks) : (setClocks s x).call = s.call := rfl
@[simp] theorem setClocks_settings (s : State) (x : Clocks) : (setClocks s x).settings = s.settings := rfl
@[simp] theorem setClocks_rates (s : State) (x : Clocks) : (setClocks s x).rates = s.rates := rfl
@[simp] theorem setClocks_profile (s : State) (x : Clocks) : (setClocks s x).profile = s.profile := rfl
@[simp] theorem setClocks_stored (s : State) (x : Clocks) : (setClocks s x).stored = s.stored := rfl
@[simp] theorem setClocks_gauge (s : State) (x : Clocks) : (setClocks s x).gauge = s.gauge := rfl
@[simp] theorem setClocks_tanks (s : State) (x : Clocks) : (setClocks s x).tanks = s.tanks := rfl
@[simp] theorem setClocks_engine (s : State) (x : Clocks) : (setClocks s x).engine = s.engine := rfl
@[simp] theorem setClocks_hull (s : State) (x : Clocks) : (setClocks s x).hull = s.hull := rfl
@[simp] theorem setClocks_plant (s : State) (x : Clocks) : (setClocks s x).plant = s.plant := rfl
@[simp] theorem setClocks_orders (s : State) (x : Clocks) : (setClocks s x).orders = s.orders := rfl
@[simp] theorem setClocks_pour (s : State) (x : Clocks) : (setClocks s x).pour = s.pour := rfl
@[simp] theorem setClocks_term (s : State) (x : Clocks) : (setClocks s x).term = s.term := rfl
@[simp] theorem setClocks_reports (s : State) (x : Clocks) : (setClocks s x).reports = s.reports := rfl
@[simp] theorem setClocks_attention (s : State) (x : Clocks) : (setClocks s x).attention = s.attention := rfl
@[simp] theorem setClocks_console (s : State) (x : Clocks) : (setClocks s x).console = s.console := rfl
@[simp] theorem setClocks_terminal (s : State) (x : Clocks) : (setClocks s x).terminal = s.terminal := rfl
@[simp] theorem setClocks_wrstPending (s : State) (x : Clocks) : (setClocks s x).wrstPending = s.wrstPending := rfl
@[simp] theorem setClocks_pending (s : State) (x : Clocks) : (setClocks s x).pending = s.pending := rfl

@[simp] theorem setCall_powered (s : State) (x : CallState) : (setCall s x).powered = s.powered := rfl
@[simp] theorem setCall_clocks (s : State) (x : CallState) : (setCall s x).clocks = s.clocks := rfl
@[simp] theorem setCall_call (s : State) (x : CallState) : (setCall s x).call = x := rfl
@[simp] theorem setCall_settings (s : State) (x : CallState) : (setCall s x).settings = s.settings := rfl
@[simp] theorem setCall_rates (s : State) (x : CallState) : (setCall s x).rates = s.rates := rfl
@[simp] theorem setCall_profile (s : State) (x : CallState) : (setCall s x).profile = s.profile := rfl
@[simp] theorem setCall_stored (s : State) (x : CallState) : (setCall s x).stored = s.stored := rfl
@[simp] theorem setCall_gauge (s : State) (x : CallState) : (setCall s x).gauge = s.gauge := rfl
@[simp] theorem setCall_tanks (s : State) (x : CallState) : (setCall s x).tanks = s.tanks := rfl
@[simp] theorem setCall_engine (s : State) (x : CallState) : (setCall s x).engine = s.engine := rfl
@[simp] theorem setCall_hull (s : State) (x : CallState) : (setCall s x).hull = s.hull := rfl
@[simp] theorem setCall_plant (s : State) (x : CallState) : (setCall s x).plant = s.plant := rfl
@[simp] theorem setCall_orders (s : State) (x : CallState) : (setCall s x).orders = s.orders := rfl
@[simp] theorem setCall_pour (s : State) (x : CallState) : (setCall s x).pour = s.pour := rfl
@[simp] theorem setCall_term (s : State) (x : CallState) : (setCall s x).term = s.term := rfl
@[simp] theorem setCall_reports (s : State) (x : CallState) : (setCall s x).reports = s.reports := rfl
@[simp] theorem setCall_attention (s : State) (x : CallState) : (setCall s x).attention = s.attention := rfl
@[simp] theorem setCall_console (s : State) (x : CallState) : (setCall s x).console = s.console := rfl
@[simp] theorem setCall_terminal (s : State) (x : CallState) : (setCall s x).terminal = s.terminal := rfl
@[simp] theorem setCall_wrstPending (s : State) (x : CallState) : (setCall s x).wrstPending = s.wrstPending := rfl
@[simp] theorem setCall_pending (s : State) (x : CallState) : (setCall s x).pending = s.pending := rfl

@[simp] theorem setSettings_powered (s : State) (x : Settings) : (setSettings s x).powered = s.powered := rfl
@[simp] theorem setSettings_clocks (s : State) (x : Settings) : (setSettings s x).clocks = s.clocks := rfl
@[simp] theorem setSettings_call (s : State) (x : Settings) : (setSettings s x).call = s.call := rfl
@[simp] theorem setSettings_settings (s : State) (x : Settings) : (setSettings s x).settings = x := rfl
@[simp] theorem setSettings_rates (s : State) (x : Settings) : (setSettings s x).rates = s.rates := rfl
@[simp] theorem setSettings_profile (s : State) (x : Settings) : (setSettings s x).profile = s.profile := rfl
@[simp] theorem setSettings_stored (s : State) (x : Settings) : (setSettings s x).stored = s.stored := rfl
@[simp] theorem setSettings_gauge (s : State) (x : Settings) : (setSettings s x).gauge = s.gauge := rfl
@[simp] theorem setSettings_tanks (s : State) (x : Settings) : (setSettings s x).tanks = s.tanks := rfl
@[simp] theorem setSettings_engine (s : State) (x : Settings) : (setSettings s x).engine = s.engine := rfl
@[simp] theorem setSettings_hull (s : State) (x : Settings) : (setSettings s x).hull = s.hull := rfl
@[simp] theorem setSettings_plant (s : State) (x : Settings) : (setSettings s x).plant = s.plant := rfl
@[simp] theorem setSettings_orders (s : State) (x : Settings) : (setSettings s x).orders = s.orders := rfl
@[simp] theorem setSettings_pour (s : State) (x : Settings) : (setSettings s x).pour = s.pour := rfl
@[simp] theorem setSettings_term (s : State) (x : Settings) : (setSettings s x).term = s.term := rfl
@[simp] theorem setSettings_reports (s : State) (x : Settings) : (setSettings s x).reports = s.reports := rfl
@[simp] theorem setSettings_attention (s : State) (x : Settings) : (setSettings s x).attention = s.attention := rfl
@[simp] theorem setSettings_console (s : State) (x : Settings) : (setSettings s x).console = s.console := rfl
@[simp] theorem setSettings_terminal (s : State) (x : Settings) : (setSettings s x).terminal = s.terminal := rfl
@[simp] theorem setSettings_wrstPending (s : State) (x : Settings) : (setSettings s x).wrstPending = s.wrstPending := rfl
@[simp] theorem setSettings_pending (s : State) (x : Settings) : (setSettings s x).pending = s.pending := rfl

@[simp] theorem setRates_powered (s : State) (x : Rates) : (setRates s x).powered = s.powered := rfl
@[simp] theorem setRates_clocks (s : State) (x : Rates) : (setRates s x).clocks = s.clocks := rfl
@[simp] theorem setRates_call (s : State) (x : Rates) : (setRates s x).call = s.call := rfl
@[simp] theorem setRates_settings (s : State) (x : Rates) : (setRates s x).settings = s.settings := rfl
@[simp] theorem setRates_rates (s : State) (x : Rates) : (setRates s x).rates = x := rfl
@[simp] theorem setRates_profile (s : State) (x : Rates) : (setRates s x).profile = s.profile := rfl
@[simp] theorem setRates_stored (s : State) (x : Rates) : (setRates s x).stored = s.stored := rfl
@[simp] theorem setRates_gauge (s : State) (x : Rates) : (setRates s x).gauge = s.gauge := rfl
@[simp] theorem setRates_tanks (s : State) (x : Rates) : (setRates s x).tanks = s.tanks := rfl
@[simp] theorem setRates_engine (s : State) (x : Rates) : (setRates s x).engine = s.engine := rfl
@[simp] theorem setRates_hull (s : State) (x : Rates) : (setRates s x).hull = s.hull := rfl
@[simp] theorem setRates_plant (s : State) (x : Rates) : (setRates s x).plant = s.plant := rfl
@[simp] theorem setRates_orders (s : State) (x : Rates) : (setRates s x).orders = s.orders := rfl
@[simp] theorem setRates_pour (s : State) (x : Rates) : (setRates s x).pour = s.pour := rfl
@[simp] theorem setRates_term (s : State) (x : Rates) : (setRates s x).term = s.term := rfl
@[simp] theorem setRates_reports (s : State) (x : Rates) : (setRates s x).reports = s.reports := rfl
@[simp] theorem setRates_attention (s : State) (x : Rates) : (setRates s x).attention = s.attention := rfl
@[simp] theorem setRates_console (s : State) (x : Rates) : (setRates s x).console = s.console := rfl
@[simp] theorem setRates_terminal (s : State) (x : Rates) : (setRates s x).terminal = s.terminal := rfl
@[simp] theorem setRates_wrstPending (s : State) (x : Rates) : (setRates s x).wrstPending = s.wrstPending := rfl
@[simp] theorem setRates_pending (s : State) (x : Rates) : (setRates s x).pending = s.pending := rfl

@[simp] theorem setProfile_powered (s : State) (x : ProfileState) : (setProfile s x).powered = s.powered := rfl
@[simp] theorem setProfile_clocks (s : State) (x : ProfileState) : (setProfile s x).clocks = s.clocks := rfl
@[simp] theorem setProfile_call (s : State) (x : ProfileState) : (setProfile s x).call = s.call := rfl
@[simp] theorem setProfile_settings (s : State) (x : ProfileState) : (setProfile s x).settings = s.settings := rfl
@[simp] theorem setProfile_rates (s : State) (x : ProfileState) : (setProfile s x).rates = s.rates := rfl
@[simp] theorem setProfile_profile (s : State) (x : ProfileState) : (setProfile s x).profile = x := rfl
@[simp] theorem setProfile_stored (s : State) (x : ProfileState) : (setProfile s x).stored = s.stored := rfl
@[simp] theorem setProfile_gauge (s : State) (x : ProfileState) : (setProfile s x).gauge = s.gauge := rfl
@[simp] theorem setProfile_tanks (s : State) (x : ProfileState) : (setProfile s x).tanks = s.tanks := rfl
@[simp] theorem setProfile_engine (s : State) (x : ProfileState) : (setProfile s x).engine = s.engine := rfl
@[simp] theorem setProfile_hull (s : State) (x : ProfileState) : (setProfile s x).hull = s.hull := rfl
@[simp] theorem setProfile_plant (s : State) (x : ProfileState) : (setProfile s x).plant = s.plant := rfl
@[simp] theorem setProfile_orders (s : State) (x : ProfileState) : (setProfile s x).orders = s.orders := rfl
@[simp] theorem setProfile_pour (s : State) (x : ProfileState) : (setProfile s x).pour = s.pour := rfl
@[simp] theorem setProfile_term (s : State) (x : ProfileState) : (setProfile s x).term = s.term := rfl
@[simp] theorem setProfile_reports (s : State) (x : ProfileState) : (setProfile s x).reports = s.reports := rfl
@[simp] theorem setProfile_attention (s : State) (x : ProfileState) : (setProfile s x).attention = s.attention := rfl
@[simp] theorem setProfile_console (s : State) (x : ProfileState) : (setProfile s x).console = s.console := rfl
@[simp] theorem setProfile_terminal (s : State) (x : ProfileState) : (setProfile s x).terminal = s.terminal := rfl
@[simp] theorem setProfile_wrstPending (s : State) (x : ProfileState) : (setProfile s x).wrstPending = s.wrstPending := rfl
@[simp] theorem setProfile_pending (s : State) (x : ProfileState) : (setProfile s x).pending = s.pending := rfl

@[simp] theorem setStored_powered (s : State) (x : StoredCopy) : (setStored s x).powered = s.powered := rfl
@[simp] theorem setStored_clocks (s : State) (x : StoredCopy) : (setStored s x).clocks = s.clocks := rfl
@[simp] theorem setStored_call (s : State) (x : StoredCopy) : (setStored s x).call = s.call := rfl
@[simp] theorem setStored_settings (s : State) (x : StoredCopy) : (setStored s x).settings = s.settings := rfl
@[simp] theorem setStored_rates (s : State) (x : StoredCopy) : (setStored s x).rates = s.rates := rfl
@[simp] theorem setStored_profile (s : State) (x : StoredCopy) : (setStored s x).profile = s.profile := rfl
@[simp] theorem setStored_stored (s : State) (x : StoredCopy) : (setStored s x).stored = x := rfl
@[simp] theorem setStored_gauge (s : State) (x : StoredCopy) : (setStored s x).gauge = s.gauge := rfl
@[simp] theorem setStored_tanks (s : State) (x : StoredCopy) : (setStored s x).tanks = s.tanks := rfl
@[simp] theorem setStored_engine (s : State) (x : StoredCopy) : (setStored s x).engine = s.engine := rfl
@[simp] theorem setStored_hull (s : State) (x : StoredCopy) : (setStored s x).hull = s.hull := rfl
@[simp] theorem setStored_plant (s : State) (x : StoredCopy) : (setStored s x).plant = s.plant := rfl
@[simp] theorem setStored_orders (s : State) (x : StoredCopy) : (setStored s x).orders = s.orders := rfl
@[simp] theorem setStored_pour (s : State) (x : StoredCopy) : (setStored s x).pour = s.pour := rfl
@[simp] theorem setStored_term (s : State) (x : StoredCopy) : (setStored s x).term = s.term := rfl
@[simp] theorem setStored_reports (s : State) (x : StoredCopy) : (setStored s x).reports = s.reports := rfl
@[simp] theorem setStored_attention (s : State) (x : StoredCopy) : (setStored s x).attention = s.attention := rfl
@[simp] theorem setStored_console (s : State) (x : StoredCopy) : (setStored s x).console = s.console := rfl
@[simp] theorem setStored_terminal (s : State) (x : StoredCopy) : (setStored s x).terminal = s.terminal := rfl
@[simp] theorem setStored_wrstPending (s : State) (x : StoredCopy) : (setStored s x).wrstPending = s.wrstPending := rfl
@[simp] theorem setStored_pending (s : State) (x : StoredCopy) : (setStored s x).pending = s.pending := rfl

@[simp] theorem setGauge_powered (s : State) (x : Gauge) : (setGauge s x).powered = s.powered := rfl
@[simp] theorem setGauge_clocks (s : State) (x : Gauge) : (setGauge s x).clocks = s.clocks := rfl
@[simp] theorem setGauge_call (s : State) (x : Gauge) : (setGauge s x).call = s.call := rfl
@[simp] theorem setGauge_settings (s : State) (x : Gauge) : (setGauge s x).settings = s.settings := rfl
@[simp] theorem setGauge_rates (s : State) (x : Gauge) : (setGauge s x).rates = s.rates := rfl
@[simp] theorem setGauge_profile (s : State) (x : Gauge) : (setGauge s x).profile = s.profile := rfl
@[simp] theorem setGauge_stored (s : State) (x : Gauge) : (setGauge s x).stored = s.stored := rfl
@[simp] theorem setGauge_gauge (s : State) (x : Gauge) : (setGauge s x).gauge = x := rfl
@[simp] theorem setGauge_tanks (s : State) (x : Gauge) : (setGauge s x).tanks = s.tanks := rfl
@[simp] theorem setGauge_engine (s : State) (x : Gauge) : (setGauge s x).engine = s.engine := rfl
@[simp] theorem setGauge_hull (s : State) (x : Gauge) : (setGauge s x).hull = s.hull := rfl
@[simp] theorem setGauge_plant (s : State) (x : Gauge) : (setGauge s x).plant = s.plant := rfl
@[simp] theorem setGauge_orders (s : State) (x : Gauge) : (setGauge s x).orders = s.orders := rfl
@[simp] theorem setGauge_pour (s : State) (x : Gauge) : (setGauge s x).pour = s.pour := rfl
@[simp] theorem setGauge_term (s : State) (x : Gauge) : (setGauge s x).term = s.term := rfl
@[simp] theorem setGauge_reports (s : State) (x : Gauge) : (setGauge s x).reports = s.reports := rfl
@[simp] theorem setGauge_attention (s : State) (x : Gauge) : (setGauge s x).attention = s.attention := rfl
@[simp] theorem setGauge_console (s : State) (x : Gauge) : (setGauge s x).console = s.console := rfl
@[simp] theorem setGauge_terminal (s : State) (x : Gauge) : (setGauge s x).terminal = s.terminal := rfl
@[simp] theorem setGauge_wrstPending (s : State) (x : Gauge) : (setGauge s x).wrstPending = s.wrstPending := rfl
@[simp] theorem setGauge_pending (s : State) (x : Gauge) : (setGauge s x).pending = s.pending := rfl

@[simp] theorem setTanks_powered (s : State) (x : List Tank) : (setTanks s x).powered = s.powered := rfl
@[simp] theorem setTanks_clocks (s : State) (x : List Tank) : (setTanks s x).clocks = s.clocks := rfl
@[simp] theorem setTanks_call (s : State) (x : List Tank) : (setTanks s x).call = s.call := rfl
@[simp] theorem setTanks_settings (s : State) (x : List Tank) : (setTanks s x).settings = s.settings := rfl
@[simp] theorem setTanks_rates (s : State) (x : List Tank) : (setTanks s x).rates = s.rates := rfl
@[simp] theorem setTanks_profile (s : State) (x : List Tank) : (setTanks s x).profile = s.profile := rfl
@[simp] theorem setTanks_stored (s : State) (x : List Tank) : (setTanks s x).stored = s.stored := rfl
@[simp] theorem setTanks_gauge (s : State) (x : List Tank) : (setTanks s x).gauge = s.gauge := rfl
@[simp] theorem setTanks_tanks (s : State) (x : List Tank) : (setTanks s x).tanks = x := rfl
@[simp] theorem setTanks_engine (s : State) (x : List Tank) : (setTanks s x).engine = s.engine := rfl
@[simp] theorem setTanks_hull (s : State) (x : List Tank) : (setTanks s x).hull = s.hull := rfl
@[simp] theorem setTanks_plant (s : State) (x : List Tank) : (setTanks s x).plant = s.plant := rfl
@[simp] theorem setTanks_orders (s : State) (x : List Tank) : (setTanks s x).orders = s.orders := rfl
@[simp] theorem setTanks_pour (s : State) (x : List Tank) : (setTanks s x).pour = s.pour := rfl
@[simp] theorem setTanks_term (s : State) (x : List Tank) : (setTanks s x).term = s.term := rfl
@[simp] theorem setTanks_reports (s : State) (x : List Tank) : (setTanks s x).reports = s.reports := rfl
@[simp] theorem setTanks_attention (s : State) (x : List Tank) : (setTanks s x).attention = s.attention := rfl
@[simp] theorem setTanks_console (s : State) (x : List Tank) : (setTanks s x).console = s.console := rfl
@[simp] theorem setTanks_terminal (s : State) (x : List Tank) : (setTanks s x).terminal = s.terminal := rfl
@[simp] theorem setTanks_wrstPending (s : State) (x : List Tank) : (setTanks s x).wrstPending = s.wrstPending := rfl
@[simp] theorem setTanks_pending (s : State) (x : List Tank) : (setTanks s x).pending = s.pending := rfl

@[simp] theorem setEngine_powered (s : State) (x : Engine) : (setEngine s x).powered = s.powered := rfl
@[simp] theorem setEngine_clocks (s : State) (x : Engine) : (setEngine s x).clocks = s.clocks := rfl
@[simp] theorem setEngine_call (s : State) (x : Engine) : (setEngine s x).call = s.call := rfl
@[simp] theorem setEngine_settings (s : State) (x : Engine) : (setEngine s x).settings = s.settings := rfl
@[simp] theorem setEngine_rates (s : State) (x : Engine) : (setEngine s x).rates = s.rates := rfl
@[simp] theorem setEngine_profile (s : State) (x : Engine) : (setEngine s x).profile = s.profile := rfl
@[simp] theorem setEngine_stored (s : State) (x : Engine) : (setEngine s x).stored = s.stored := rfl
@[simp] theorem setEngine_gauge (s : State) (x : Engine) : (setEngine s x).gauge = s.gauge := rfl
@[simp] theorem setEngine_tanks (s : State) (x : Engine) : (setEngine s x).tanks = s.tanks := rfl
@[simp] theorem setEngine_engine (s : State) (x : Engine) : (setEngine s x).engine = x := rfl
@[simp] theorem setEngine_hull (s : State) (x : Engine) : (setEngine s x).hull = s.hull := rfl
@[simp] theorem setEngine_plant (s : State) (x : Engine) : (setEngine s x).plant = s.plant := rfl
@[simp] theorem setEngine_orders (s : State) (x : Engine) : (setEngine s x).orders = s.orders := rfl
@[simp] theorem setEngine_pour (s : State) (x : Engine) : (setEngine s x).pour = s.pour := rfl
@[simp] theorem setEngine_term (s : State) (x : Engine) : (setEngine s x).term = s.term := rfl
@[simp] theorem setEngine_reports (s : State) (x : Engine) : (setEngine s x).reports = s.reports := rfl
@[simp] theorem setEngine_attention (s : State) (x : Engine) : (setEngine s x).attention = s.attention := rfl
@[simp] theorem setEngine_console (s : State) (x : Engine) : (setEngine s x).console = s.console := rfl
@[simp] theorem setEngine_terminal (s : State) (x : Engine) : (setEngine s x).terminal = s.terminal := rfl
@[simp] theorem setEngine_wrstPending (s : State) (x : Engine) : (setEngine s x).wrstPending = s.wrstPending := rfl
@[simp] theorem setEngine_pending (s : State) (x : Engine) : (setEngine s x).pending = s.pending := rfl

@[simp] theorem setHull_powered (s : State) (x : Hull) : (setHull s x).powered = s.powered := rfl
@[simp] theorem setHull_clocks (s : State) (x : Hull) : (setHull s x).clocks = s.clocks := rfl
@[simp] theorem setHull_call (s : State) (x : Hull) : (setHull s x).call = s.call := rfl
@[simp] theorem setHull_settings (s : State) (x : Hull) : (setHull s x).settings = s.settings := rfl
@[simp] theorem setHull_rates (s : State) (x : Hull) : (setHull s x).rates = s.rates := rfl
@[simp] theorem setHull_profile (s : State) (x : Hull) : (setHull s x).profile = s.profile := rfl
@[simp] theorem setHull_stored (s : State) (x : Hull) : (setHull s x).stored = s.stored := rfl
@[simp] theorem setHull_gauge (s : State) (x : Hull) : (setHull s x).gauge = s.gauge := rfl
@[simp] theorem setHull_tanks (s : State) (x : Hull) : (setHull s x).tanks = s.tanks := rfl
@[simp] theorem setHull_engine (s : State) (x : Hull) : (setHull s x).engine = s.engine := rfl
@[simp] theorem setHull_hull (s : State) (x : Hull) : (setHull s x).hull = x := rfl
@[simp] theorem setHull_plant (s : State) (x : Hull) : (setHull s x).plant = s.plant := rfl
@[simp] theorem setHull_orders (s : State) (x : Hull) : (setHull s x).orders = s.orders := rfl
@[simp] theorem setHull_pour (s : State) (x : Hull) : (setHull s x).pour = s.pour := rfl
@[simp] theorem setHull_term (s : State) (x : Hull) : (setHull s x).term = s.term := rfl
@[simp] theorem setHull_reports (s : State) (x : Hull) : (setHull s x).reports = s.reports := rfl
@[simp] theorem setHull_attention (s : State) (x : Hull) : (setHull s x).attention = s.attention := rfl
@[simp] theorem setHull_console (s : State) (x : Hull) : (setHull s x).console = s.console := rfl
@[simp] theorem setHull_terminal (s : State) (x : Hull) : (setHull s x).terminal = s.terminal := rfl
@[simp] theorem setHull_wrstPending (s : State) (x : Hull) : (setHull s x).wrstPending = s.wrstPending := rfl
@[simp] theorem setHull_pending (s : State) (x : Hull) : (setHull s x).pending = s.pending := rfl

@[simp] theorem setPlant_powered (s : State) (x : Plant) : (setPlant s x).powered = s.powered := rfl
@[simp] theorem setPlant_clocks (s : State) (x : Plant) : (setPlant s x).clocks = s.clocks := rfl
@[simp] theorem setPlant_call (s : State) (x : Plant) : (setPlant s x).call = s.call := rfl
@[simp] theorem setPlant_settings (s : State) (x : Plant) : (setPlant s x).settings = s.settings := rfl
@[simp] theorem setPlant_rates (s : State) (x : Plant) : (setPlant s x).rates = s.rates := rfl
@[simp] theorem setPlant_profile (s : State) (x : Plant) : (setPlant s x).profile = s.profile := rfl
@[simp] theorem setPlant_stored (s : State) (x : Plant) : (setPlant s x).stored = s.stored := rfl
@[simp] theorem setPlant_gauge (s : State) (x : Plant) : (setPlant s x).gauge = s.gauge := rfl
@[simp] theorem setPlant_tanks (s : State) (x : Plant) : (setPlant s x).tanks = s.tanks := rfl
@[simp] theorem setPlant_engine (s : State) (x : Plant) : (setPlant s x).engine = s.engine := rfl
@[simp] theorem setPlant_hull (s : State) (x : Plant) : (setPlant s x).hull = s.hull := rfl
@[simp] theorem setPlant_plant (s : State) (x : Plant) : (setPlant s x).plant = x := rfl
@[simp] theorem setPlant_orders (s : State) (x : Plant) : (setPlant s x).orders = s.orders := rfl
@[simp] theorem setPlant_pour (s : State) (x : Plant) : (setPlant s x).pour = s.pour := rfl
@[simp] theorem setPlant_term (s : State) (x : Plant) : (setPlant s x).term = s.term := rfl
@[simp] theorem setPlant_reports (s : State) (x : Plant) : (setPlant s x).reports = s.reports := rfl
@[simp] theorem setPlant_attention (s : State) (x : Plant) : (setPlant s x).attention = s.attention := rfl
@[simp] theorem setPlant_console (s : State) (x : Plant) : (setPlant s x).console = s.console := rfl
@[simp] theorem setPlant_terminal (s : State) (x : Plant) : (setPlant s x).terminal = s.terminal := rfl
@[simp] theorem setPlant_wrstPending (s : State) (x : Plant) : (setPlant s x).wrstPending = s.wrstPending := rfl
@[simp] theorem setPlant_pending (s : State) (x : Plant) : (setPlant s x).pending = s.pending := rfl

@[simp] theorem setOrders_powered (s : State) (x : Orders) : (setOrders s x).powered = s.powered := rfl
@[simp] theorem setOrders_clocks (s : State) (x : Orders) : (setOrders s x).clocks = s.clocks := rfl
@[simp] theorem setOrders_call (s : State) (x : Orders) : (setOrders s x).call = s.call := rfl
@[simp] theorem setOrders_settings (s : State) (x : Orders) : (setOrders s x).settings = s.settings := rfl
@[simp] theorem setOrders_rates (s : State) (x : Orders) : (setOrders s x).rates = s.rates := rfl
@[simp] theorem setOrders_profile (s : State) (x : Orders) : (setOrders s x).profile = s.profile := rfl
@[simp] theorem setOrders_stored (s : State) (x : Orders) : (setOrders s x).stored = s.stored := rfl
@[simp] theorem setOrders_gauge (s : State) (x : Orders) : (setOrders s x).gauge = s.gauge := rfl
@[simp] theorem setOrders_tanks (s : State) (x : Orders) : (setOrders s x).tanks = s.tanks := rfl
@[simp] theorem setOrders_engine (s : State) (x : Orders) : (setOrders s x).engine = s.engine := rfl
@[simp] theorem setOrders_hull (s : State) (x : Orders) : (setOrders s x).hull = s.hull := rfl
@[simp] theorem setOrders_plant (s : State) (x : Orders) : (setOrders s x).plant = s.plant := rfl
@[simp] theorem setOrders_orders (s : State) (x : Orders) : (setOrders s x).orders = x := rfl
@[simp] theorem setOrders_pour (s : State) (x : Orders) : (setOrders s x).pour = s.pour := rfl
@[simp] theorem setOrders_term (s : State) (x : Orders) : (setOrders s x).term = s.term := rfl
@[simp] theorem setOrders_reports (s : State) (x : Orders) : (setOrders s x).reports = s.reports := rfl
@[simp] theorem setOrders_attention (s : State) (x : Orders) : (setOrders s x).attention = s.attention := rfl
@[simp] theorem setOrders_console (s : State) (x : Orders) : (setOrders s x).console = s.console := rfl
@[simp] theorem setOrders_terminal (s : State) (x : Orders) : (setOrders s x).terminal = s.terminal := rfl
@[simp] theorem setOrders_wrstPending (s : State) (x : Orders) : (setOrders s x).wrstPending = s.wrstPending := rfl
@[simp] theorem setOrders_pending (s : State) (x : Orders) : (setOrders s x).pending = s.pending := rfl

@[simp] theorem setPour_powered (s : State) (x : Pour) : (setPour s x).powered = s.powered := rfl
@[simp] theorem setPour_clocks (s : State) (x : Pour) : (setPour s x).clocks = s.clocks := rfl
@[simp] theorem setPour_call (s : State) (x : Pour) : (setPour s x).call = s.call := rfl
@[simp] theorem setPour_settings (s : State) (x : Pour) : (setPour s x).settings = s.settings := rfl
@[simp] theorem setPour_rates (s : State) (x : Pour) : (setPour s x).rates = s.rates := rfl
@[simp] theorem setPour_profile (s : State) (x : Pour) : (setPour s x).profile = s.profile := rfl
@[simp] theorem setPour_stored (s : State) (x : Pour) : (setPour s x).stored = s.stored := rfl
@[simp] theorem setPour_gauge (s : State) (x : Pour) : (setPour s x).gauge = s.gauge := rfl
@[simp] theorem setPour_tanks (s : State) (x : Pour) : (setPour s x).tanks = s.tanks := rfl
@[simp] theorem setPour_engine (s : State) (x : Pour) : (setPour s x).engine = s.engine := rfl
@[simp] theorem setPour_hull (s : State) (x : Pour) : (setPour s x).hull = s.hull := rfl
@[simp] theorem setPour_plant (s : State) (x : Pour) : (setPour s x).plant = s.plant := rfl
@[simp] theorem setPour_orders (s : State) (x : Pour) : (setPour s x).orders = s.orders := rfl
@[simp] theorem setPour_pour (s : State) (x : Pour) : (setPour s x).pour = x := rfl
@[simp] theorem setPour_term (s : State) (x : Pour) : (setPour s x).term = s.term := rfl
@[simp] theorem setPour_reports (s : State) (x : Pour) : (setPour s x).reports = s.reports := rfl
@[simp] theorem setPour_attention (s : State) (x : Pour) : (setPour s x).attention = s.attention := rfl
@[simp] theorem setPour_console (s : State) (x : Pour) : (setPour s x).console = s.console := rfl
@[simp] theorem setPour_terminal (s : State) (x : Pour) : (setPour s x).terminal = s.terminal := rfl
@[simp] theorem setPour_wrstPending (s : State) (x : Pour) : (setPour s x).wrstPending = s.wrstPending := rfl
@[simp] theorem setPour_pending (s : State) (x : Pour) : (setPour s x).pending = s.pending := rfl

@[simp] theorem setTerm_powered (s : State) (x : TermLink) : (setTerm s x).powered = s.powered := rfl
@[simp] theorem setTerm_clocks (s : State) (x : TermLink) : (setTerm s x).clocks = s.clocks := rfl
@[simp] theorem setTerm_call (s : State) (x : TermLink) : (setTerm s x).call = s.call := rfl
@[simp] theorem setTerm_settings (s : State) (x : TermLink) : (setTerm s x).settings = s.settings := rfl
@[simp] theorem setTerm_rates (s : State) (x : TermLink) : (setTerm s x).rates = s.rates := rfl
@[simp] theorem setTerm_profile (s : State) (x : TermLink) : (setTerm s x).profile = s.profile := rfl
@[simp] theorem setTerm_stored (s : State) (x : TermLink) : (setTerm s x).stored = s.stored := rfl
@[simp] theorem setTerm_gauge (s : State) (x : TermLink) : (setTerm s x).gauge = s.gauge := rfl
@[simp] theorem setTerm_tanks (s : State) (x : TermLink) : (setTerm s x).tanks = s.tanks := rfl
@[simp] theorem setTerm_engine (s : State) (x : TermLink) : (setTerm s x).engine = s.engine := rfl
@[simp] theorem setTerm_hull (s : State) (x : TermLink) : (setTerm s x).hull = s.hull := rfl
@[simp] theorem setTerm_plant (s : State) (x : TermLink) : (setTerm s x).plant = s.plant := rfl
@[simp] theorem setTerm_orders (s : State) (x : TermLink) : (setTerm s x).orders = s.orders := rfl
@[simp] theorem setTerm_pour (s : State) (x : TermLink) : (setTerm s x).pour = s.pour := rfl
@[simp] theorem setTerm_term (s : State) (x : TermLink) : (setTerm s x).term = x := rfl
@[simp] theorem setTerm_reports (s : State) (x : TermLink) : (setTerm s x).reports = s.reports := rfl
@[simp] theorem setTerm_attention (s : State) (x : TermLink) : (setTerm s x).attention = s.attention := rfl
@[simp] theorem setTerm_console (s : State) (x : TermLink) : (setTerm s x).console = s.console := rfl
@[simp] theorem setTerm_terminal (s : State) (x : TermLink) : (setTerm s x).terminal = s.terminal := rfl
@[simp] theorem setTerm_wrstPending (s : State) (x : TermLink) : (setTerm s x).wrstPending = s.wrstPending := rfl
@[simp] theorem setTerm_pending (s : State) (x : TermLink) : (setTerm s x).pending = s.pending := rfl

@[simp] theorem setReports_powered (s : State) (x : Reports) : (setReports s x).powered = s.powered := rfl
@[simp] theorem setReports_clocks (s : State) (x : Reports) : (setReports s x).clocks = s.clocks := rfl
@[simp] theorem setReports_call (s : State) (x : Reports) : (setReports s x).call = s.call := rfl
@[simp] theorem setReports_settings (s : State) (x : Reports) : (setReports s x).settings = s.settings := rfl
@[simp] theorem setReports_rates (s : State) (x : Reports) : (setReports s x).rates = s.rates := rfl
@[simp] theorem setReports_profile (s : State) (x : Reports) : (setReports s x).profile = s.profile := rfl
@[simp] theorem setReports_stored (s : State) (x : Reports) : (setReports s x).stored = s.stored := rfl
@[simp] theorem setReports_gauge (s : State) (x : Reports) : (setReports s x).gauge = s.gauge := rfl
@[simp] theorem setReports_tanks (s : State) (x : Reports) : (setReports s x).tanks = s.tanks := rfl
@[simp] theorem setReports_engine (s : State) (x : Reports) : (setReports s x).engine = s.engine := rfl
@[simp] theorem setReports_hull (s : State) (x : Reports) : (setReports s x).hull = s.hull := rfl
@[simp] theorem setReports_plant (s : State) (x : Reports) : (setReports s x).plant = s.plant := rfl
@[simp] theorem setReports_orders (s : State) (x : Reports) : (setReports s x).orders = s.orders := rfl
@[simp] theorem setReports_pour (s : State) (x : Reports) : (setReports s x).pour = s.pour := rfl
@[simp] theorem setReports_term (s : State) (x : Reports) : (setReports s x).term = s.term := rfl
@[simp] theorem setReports_reports (s : State) (x : Reports) : (setReports s x).reports = x := rfl
@[simp] theorem setReports_attention (s : State) (x : Reports) : (setReports s x).attention = s.attention := rfl
@[simp] theorem setReports_console (s : State) (x : Reports) : (setReports s x).console = s.console := rfl
@[simp] theorem setReports_terminal (s : State) (x : Reports) : (setReports s x).terminal = s.terminal := rfl
@[simp] theorem setReports_wrstPending (s : State) (x : Reports) : (setReports s x).wrstPending = s.wrstPending := rfl
@[simp] theorem setReports_pending (s : State) (x : Reports) : (setReports s x).pending = s.pending := rfl

@[simp] theorem setAttention_powered (s : State) (x : Attention) : (setAttention s x).powered = s.powered := rfl
@[simp] theorem setAttention_clocks (s : State) (x : Attention) : (setAttention s x).clocks = s.clocks := rfl
@[simp] theorem setAttention_call (s : State) (x : Attention) : (setAttention s x).call = s.call := rfl
@[simp] theorem setAttention_settings (s : State) (x : Attention) : (setAttention s x).settings = s.settings := rfl
@[simp] theorem setAttention_rates (s : State) (x : Attention) : (setAttention s x).rates = s.rates := rfl
@[simp] theorem setAttention_profile (s : State) (x : Attention) : (setAttention s x).profile = s.profile := rfl
@[simp] theorem setAttention_stored (s : State) (x : Attention) : (setAttention s x).stored = s.stored := rfl
@[simp] theorem setAttention_gauge (s : State) (x : Attention) : (setAttention s x).gauge = s.gauge := rfl
@[simp] theorem setAttention_tanks (s : State) (x : Attention) : (setAttention s x).tanks = s.tanks := rfl
@[simp] theorem setAttention_engine (s : State) (x : Attention) : (setAttention s x).engine = s.engine := rfl
@[simp] theorem setAttention_hull (s : State) (x : Attention) : (setAttention s x).hull = s.hull := rfl
@[simp] theorem setAttention_plant (s : State) (x : Attention) : (setAttention s x).plant = s.plant := rfl
@[simp] theorem setAttention_orders (s : State) (x : Attention) : (setAttention s x).orders = s.orders := rfl
@[simp] theorem setAttention_pour (s : State) (x : Attention) : (setAttention s x).pour = s.pour := rfl
@[simp] theorem setAttention_term (s : State) (x : Attention) : (setAttention s x).term = s.term := rfl
@[simp] theorem setAttention_reports (s : State) (x : Attention) : (setAttention s x).reports = s.reports := rfl
@[simp] theorem setAttention_attention (s : State) (x : Attention) : (setAttention s x).attention = x := rfl
@[simp] theorem setAttention_console (s : State) (x : Attention) : (setAttention s x).console = s.console := rfl
@[simp] theorem setAttention_terminal (s : State) (x : Attention) : (setAttention s x).terminal = s.terminal := rfl
@[simp] theorem setAttention_wrstPending (s : State) (x : Attention) : (setAttention s x).wrstPending = s.wrstPending := rfl
@[simp] theorem setAttention_pending (s : State) (x : Attention) : (setAttention s x).pending = s.pending := rfl

@[simp] theorem setConsole_powered (s : State) (x : Port) : (setConsole s x).powered = s.powered := rfl
@[simp] theorem setConsole_clocks (s : State) (x : Port) : (setConsole s x).clocks = s.clocks := rfl
@[simp] theorem setConsole_call (s : State) (x : Port) : (setConsole s x).call = s.call := rfl
@[simp] theorem setConsole_settings (s : State) (x : Port) : (setConsole s x).settings = s.settings := rfl
@[simp] theorem setConsole_rates (s : State) (x : Port) : (setConsole s x).rates = s.rates := rfl
@[simp] theorem setConsole_profile (s : State) (x : Port) : (setConsole s x).profile = s.profile := rfl
@[simp] theorem setConsole_stored (s : State) (x : Port) : (setConsole s x).stored = s.stored := rfl
@[simp] theorem setConsole_gauge (s : State) (x : Port) : (setConsole s x).gauge = s.gauge := rfl
@[simp] theorem setConsole_tanks (s : State) (x : Port) : (setConsole s x).tanks = s.tanks := rfl
@[simp] theorem setConsole_engine (s : State) (x : Port) : (setConsole s x).engine = s.engine := rfl
@[simp] theorem setConsole_hull (s : State) (x : Port) : (setConsole s x).hull = s.hull := rfl
@[simp] theorem setConsole_plant (s : State) (x : Port) : (setConsole s x).plant = s.plant := rfl
@[simp] theorem setConsole_orders (s : State) (x : Port) : (setConsole s x).orders = s.orders := rfl
@[simp] theorem setConsole_pour (s : State) (x : Port) : (setConsole s x).pour = s.pour := rfl
@[simp] theorem setConsole_term (s : State) (x : Port) : (setConsole s x).term = s.term := rfl
@[simp] theorem setConsole_reports (s : State) (x : Port) : (setConsole s x).reports = s.reports := rfl
@[simp] theorem setConsole_attention (s : State) (x : Port) : (setConsole s x).attention = s.attention := rfl
@[simp] theorem setConsole_console (s : State) (x : Port) : (setConsole s x).console = x := rfl
@[simp] theorem setConsole_terminal (s : State) (x : Port) : (setConsole s x).terminal = s.terminal := rfl
@[simp] theorem setConsole_wrstPending (s : State) (x : Port) : (setConsole s x).wrstPending = s.wrstPending := rfl
@[simp] theorem setConsole_pending (s : State) (x : Port) : (setConsole s x).pending = s.pending := rfl

@[simp] theorem setTerminal_powered (s : State) (x : Port) : (setTerminal s x).powered = s.powered := rfl
@[simp] theorem setTerminal_clocks (s : State) (x : Port) : (setTerminal s x).clocks = s.clocks := rfl
@[simp] theorem setTerminal_call (s : State) (x : Port) : (setTerminal s x).call = s.call := rfl
@[simp] theorem setTerminal_settings (s : State) (x : Port) : (setTerminal s x).settings = s.settings := rfl
@[simp] theorem setTerminal_rates (s : State) (x : Port) : (setTerminal s x).rates = s.rates := rfl
@[simp] theorem setTerminal_profile (s : State) (x : Port) : (setTerminal s x).profile = s.profile := rfl
@[simp] theorem setTerminal_stored (s : State) (x : Port) : (setTerminal s x).stored = s.stored := rfl
@[simp] theorem setTerminal_gauge (s : State) (x : Port) : (setTerminal s x).gauge = s.gauge := rfl
@[simp] theorem setTerminal_tanks (s : State) (x : Port) : (setTerminal s x).tanks = s.tanks := rfl
@[simp] theorem setTerminal_engine (s : State) (x : Port) : (setTerminal s x).engine = s.engine := rfl
@[simp] theorem setTerminal_hull (s : State) (x : Port) : (setTerminal s x).hull = s.hull := rfl
@[simp] theorem setTerminal_plant (s : State) (x : Port) : (setTerminal s x).plant = s.plant := rfl
@[simp] theorem setTerminal_orders (s : State) (x : Port) : (setTerminal s x).orders = s.orders := rfl
@[simp] theorem setTerminal_pour (s : State) (x : Port) : (setTerminal s x).pour = s.pour := rfl
@[simp] theorem setTerminal_term (s : State) (x : Port) : (setTerminal s x).term = s.term := rfl
@[simp] theorem setTerminal_reports (s : State) (x : Port) : (setTerminal s x).reports = s.reports := rfl
@[simp] theorem setTerminal_attention (s : State) (x : Port) : (setTerminal s x).attention = s.attention := rfl
@[simp] theorem setTerminal_console (s : State) (x : Port) : (setTerminal s x).console = s.console := rfl
@[simp] theorem setTerminal_terminal (s : State) (x : Port) : (setTerminal s x).terminal = x := rfl
@[simp] theorem setTerminal_wrstPending (s : State) (x : Port) : (setTerminal s x).wrstPending = s.wrstPending := rfl
@[simp] theorem setTerminal_pending (s : State) (x : Port) : (setTerminal s x).pending = s.pending := rfl

@[simp] theorem setWrstPending_powered (s : State) (x : Bool) : (setWrstPending s x).powered = s.powered := rfl
@[simp] theorem setWrstPending_clocks (s : State) (x : Bool) : (setWrstPending s x).clocks = s.clocks := rfl
@[simp] theorem setWrstPending_call (s : State) (x : Bool) : (setWrstPending s x).call = s.call := rfl
@[simp] theorem setWrstPending_settings (s : State) (x : Bool) : (setWrstPending s x).settings = s.settings := rfl
@[simp] theorem setWrstPending_rates (s : State) (x : Bool) : (setWrstPending s x).rates = s.rates := rfl
@[simp] theorem setWrstPending_profile (s : State) (x : Bool) : (setWrstPending s x).profile = s.profile := rfl
@[simp] theorem setWrstPending_stored (s : State) (x : Bool) : (setWrstPending s x).stored = s.stored := rfl
@[simp] theorem setWrstPending_gauge (s : State) (x : Bool) : (setWrstPending s x).gauge = s.gauge := rfl
@[simp] theorem setWrstPending_tanks (s : State) (x : Bool) : (setWrstPending s x).tanks = s.tanks := rfl
@[simp] theorem setWrstPending_engine (s : State) (x : Bool) : (setWrstPending s x).engine = s.engine := rfl
@[simp] theorem setWrstPending_hull (s : State) (x : Bool) : (setWrstPending s x).hull = s.hull := rfl
@[simp] theorem setWrstPending_plant (s : State) (x : Bool) : (setWrstPending s x).plant = s.plant := rfl
@[simp] theorem setWrstPending_orders (s : State) (x : Bool) : (setWrstPending s x).orders = s.orders := rfl
@[simp] theorem setWrstPending_pour (s : State) (x : Bool) : (setWrstPending s x).pour = s.pour := rfl
@[simp] theorem setWrstPending_term (s : State) (x : Bool) : (setWrstPending s x).term = s.term := rfl
@[simp] theorem setWrstPending_reports (s : State) (x : Bool) : (setWrstPending s x).reports = s.reports := rfl
@[simp] theorem setWrstPending_attention (s : State) (x : Bool) : (setWrstPending s x).attention = s.attention := rfl
@[simp] theorem setWrstPending_console (s : State) (x : Bool) : (setWrstPending s x).console = s.console := rfl
@[simp] theorem setWrstPending_terminal (s : State) (x : Bool) : (setWrstPending s x).terminal = s.terminal := rfl
@[simp] theorem setWrstPending_wrstPending (s : State) (x : Bool) : (setWrstPending s x).wrstPending = x := rfl
@[simp] theorem setWrstPending_pending (s : State) (x : Bool) : (setWrstPending s x).pending = s.pending := rfl

@[simp] theorem setPending_powered (s : State) (x : List Instr) : (setPending s x).powered = s.powered := rfl
@[simp] theorem setPending_clocks (s : State) (x : List Instr) : (setPending s x).clocks = s.clocks := rfl
@[simp] theorem setPending_call (s : State) (x : List Instr) : (setPending s x).call = s.call := rfl
@[simp] theorem setPending_settings (s : State) (x : List Instr) : (setPending s x).settings = s.settings := rfl
@[simp] theorem setPending_rates (s : State) (x : List Instr) : (setPending s x).rates = s.rates := rfl
@[simp] theorem setPending_profile (s : State) (x : List Instr) : (setPending s x).profile = s.profile := rfl
@[simp] theorem setPending_stored (s : State) (x : List Instr) : (setPending s x).stored = s.stored := rfl
@[simp] theorem setPending_gauge (s : State) (x : List Instr) : (setPending s x).gauge = s.gauge := rfl
@[simp] theorem setPending_tanks (s : State) (x : List Instr) : (setPending s x).tanks = s.tanks := rfl
@[simp] theorem setPending_engine (s : State) (x : List Instr) : (setPending s x).engine = s.engine := rfl
@[simp] theorem setPending_hull (s : State) (x : List Instr) : (setPending s x).hull = s.hull := rfl
@[simp] theorem setPending_plant (s : State) (x : List Instr) : (setPending s x).plant = s.plant := rfl
@[simp] theorem setPending_orders (s : State) (x : List Instr) : (setPending s x).orders = s.orders := rfl
@[simp] theorem setPending_pour (s : State) (x : List Instr) : (setPending s x).pour = s.pour := rfl
@[simp] theorem setPending_term (s : State) (x : List Instr) : (setPending s x).term = s.term := rfl
@[simp] theorem setPending_reports (s : State) (x : List Instr) : (setPending s x).reports = s.reports := rfl
@[simp] theorem setPending_attention (s : State) (x : List Instr) : (setPending s x).attention = s.attention := rfl
@[simp] theorem setPending_console (s : State) (x : List Instr) : (setPending s x).console = s.console := rfl
@[simp] theorem setPending_terminal (s : State) (x : List Instr) : (setPending s x).terminal = s.terminal := rfl
@[simp] theorem setPending_wrstPending (s : State) (x : List Instr) : (setPending s x).wrstPending = s.wrstPending := rfl
@[simp] theorem setPending_pending (s : State) (x : List Instr) : (setPending s x).pending = x := rfl

end Sys2Proof.Machine
end

