-- ==== Sys2Proof/Laws/Tables.lean ====
section
/-! SUPPORT. What the table operations of Machine/Ops.lean do: changing one entry, numbering, finding a position, sorting. -/

namespace Sys2Proof.Machine

@[simp] theorem modAt_length {α : Type} (xs : List α) (i : Nat) (f : α → α) : (modAt xs i f).length = xs.length := by
  induction xs generalizing i with
  | nil => rfl
  | cons x xs ih => cases i <;> simp [modAt, ih]

theorem modAt_getElem? {α : Type} (xs : List α) (i j : Nat) (f : α → α) :
    (modAt xs i f)[j]? = if i = j then xs[j]?.map f else xs[j]? := by
  induction xs generalizing i j with
  | nil => simp [modAt]
  | cons x xs ih =>
    cases i <;> cases j <;> simp [modAt, ih]

theorem modAt_getElem?_self {α : Type} (xs : List α) (i : Nat) (f : α → α) : (modAt xs i f)[i]? = xs[i]?.map f := by
  simp [modAt_getElem?]

theorem modAt_getElem?_other {α : Type} (xs : List α) {i j : Nat} (f : α → α) (h : i ≠ j) : (modAt xs i f)[j]? = xs[j]? := by
  simp [modAt_getElem?, h]

/-- An entry of a changed table is an entry that was there, or the changed one. -/
theorem mem_modAt {α : Type} {xs : List α} {i : Nat} {f : α → α} {y : α} (h : y ∈ modAt xs i f) :
    y ∈ xs ∨ ∃ x, xs[i]? = some x ∧ y = f x := by
  obtain ⟨j, hj⟩ := List.mem_iff_getElem?.1 h
  rw [modAt_getElem?] at hj
  split at hj
  · next hij =>
    subst hij
    cases hx : xs[i]? with
    | none => simp [hx] at hj
    | some x => exact Or.inr ⟨x, rfl, by simpa [hx] using hj.symm⟩
  · exact Or.inl (List.mem_iff_getElem?.2 ⟨j, hj⟩)

/-- A property of every entry is kept by a change that keeps it. -/
theorem forall_modAt {α : Type} {xs : List α} {i : Nat} {f : α → α} {p : α → Prop} (h : ∀ x ∈ xs, p x)
    (hf : ∀ x, xs[i]? = some x → p x → p (f x)) : ∀ x ∈ modAt xs i f, p x := by
  intro y hy
  rcases mem_modAt hy with hx | ⟨x, hx, rfl⟩
  · exact h y hx
  · exact hf x hx (h x (List.mem_iff_getElem?.2 ⟨i, hx⟩))

@[simp] theorem upTo_eq_range (n : Nat) : upTo n = List.range n := by
  induction n with
  | zero => rfl
  | succ n ih => simp [upTo, ih, List.range_succ]

/-- The position found holds an entry that satisfies the test. -/
theorem indexOf?_some {α : Type} {p : α → Bool} {xs : List α} {i : Nat} (h : indexOf? p xs = some i) :
    ∃ x, xs[i]? = some x ∧ p x = true := by
  induction xs generalizing i with
  | nil => simp [indexOf?] at h
  | cons x xs ih =>
    unfold indexOf? at h
    split at h
    · next hp => cases h; exact ⟨x, rfl, hp⟩
    · cases hq : indexOf? p xs with
      | none => simp [hq] at h
      | some j =>
        simp [hq] at h
        subst h
        simpa using ih hq

theorem insertBy_perm {α : Type} (b : α → α → Bool) (x : α) (xs : List α) : (insertBy b x xs).Perm (x :: xs) := by
  induction xs with
  | nil => exact List.Perm.refl _
  | cons y ys ih =>
    unfold insertBy
    split
    · exact List.Perm.refl _
    · exact (ih.cons y).trans (List.Perm.swap x y ys)

/-- Sorting keeps the entries. -/
theorem sortBy_perm {α : Type} (b : α → α → Bool) (xs : List α) : (sortBy b xs).Perm xs := by
  induction xs with
  | nil => exact List.Perm.refl _
  | cons x xs ih => exact (insertBy_perm b x _).trans (ih.cons x)

end Sys2Proof.Machine
end

