-- ==== Sys2Proof/Laws/Path.lean ====
section
/-! SUPPORT. Paths: what the shared operations do, as a run of small changes. Each small change sets one piece of the state and keeps that piece's law; so a path keeps every law, and changes only the pieces it is listed with. -/

namespace Sys2Proof.Machine

/-- One small change of a piece, which keeps the piece's law. -/
inductive Prim : Block → State → State → Prop
  | call (s : State) (h : s.call = .closing) : Prim .call s (setCall s .idle)
  | gauge (s : State) (x : Gauge) (h : GaugeOk s.gauge → GaugeOk x) : Prim .gauge s (setGauge s x)
  | tanks (s : State) (x : List Tank) (h : TanksOk s.tanks → TanksOk x) (hl : x.length = s.tanks.length) : Prim .tanks s (setTanks s x)
  | engine (s : State) (x : Engine) (h : EngineOk s.engine → EngineOk x) : Prim .engine s (setEngine s x)
  | hull (s : State) (x : Hull) (h : HullOk s.hull → HullOk x) : Prim .hull s (setHull s x)
  | plant (s : State) (x : Plant) (h : PlantOk s.plant → PlantOk x) (hl : x.lines = s.plant.lines) : Prim .plant s (setPlant s x)
  | orders (s : State) (x : Orders) (h : OrdersOk s.orders → OrdersOk x) (hw : x.windows = s.orders.windows)
      (hr : x.rank = s.orders.rank) : Prim .orders s (setOrders s x)
  | pour (s : State) (x : Pour) (h : PourOk s.pour → PourOk x) : Prim .pour s (setPour s x)
  | term (s : State) (x : TermLink) (h : TermOk s.term → TermOk x) : Prim .term s (setTerm s x)
  | reports (s : State) (x : Reports) (h : ReportsOk s.reports → ReportsOk x) : Prim .reports s (setReports s x)
  | attention (s : State) (x : Attention) (h : AttentionOk s.attention → AttentionOk x) : Prim .attention s (setAttention s x)
  | console (s : State) (x : Port) (h : PortOk s.console → PortOk x) : Prim .console s (setConsole s x)
  | terminal (s : State) (x : Port) (h : PortOk s.terminal → PortOk x) : Prim .terminal s (setTerminal s x)

/-- A run of small changes of the listed pieces. -/
inductive Path (bs : List Block) : State → State → Prop
  | refl (s : State) : Path bs s s
  | tail {s t u : State} {b : Block} (p : Path bs s t) (h : b ∈ bs) (c : Prim b t u) : Path bs s u

theorem Path.trans {bs : List Block} {s t u : State} (p : Path bs s t) (q : Path bs t u) : Path bs s u := by
  induction q with
  | refl => exact p
  | tail _ h c ih => exact ih.tail h c

theorem Path.mono {bs cs : List Block} {s t : State} (p : Path bs s t) (h : bs ⊆ cs) : Path cs s t := by
  induction p with
  | refl => exact .refl _
  | tail _ hb c ih => exact ih.tail (h hb) c

theorem Path.one {bs : List Block} {b : Block} {s t : State} (h : b ∈ bs) (c : Prim b s t) : Path bs s t := (Path.refl s).tail h c

/-- Two paths one after the other. -/
theorem Path.andThen {bs cs ds : List Block} {s t u : State} (p : Path bs s t) (q : Path cs t u) (h : bs ⊆ ds := by decide)
    (h' : cs ⊆ ds := by decide) : Path ds s u := (p.mono h).trans (q.mono h')

theorem Path.ite {bs : List Block} {s t u : State} {c : Prop} [Decidable c] (p : Path bs s t) (q : Path bs s u) :
    Path bs s (if c then t else u) := by
  split <;> assumption

theorem foldl_path {α : Type} {bs : List Block} {f : State → α → State} (h : ∀ s x, Path bs s (f s x)) (xs : List α) (s : State) :
    Path bs s (xs.foldl f s) := by
  induction xs generalizing s with
  | nil => exact .refl s
  | cons x xs ih => exact (h s x).trans (ih _)

/-! ### What a path keeps -/

theorem ChangesOnly.refl (bs : List Block) (s : State) : ChangesOnly bs s s := by
  intro b _; cases b <;> exact rfl

theorem ChangesOnly.trans {bs : List Block} {s t u : State} (p : ChangesOnly bs s t) (q : ChangesOnly bs t u) : ChangesOnly bs s u := by
  intro b hb
  have h1 := p b hb
  have h2 := q b hb
  cases b <;> exact h2.trans h1

theorem ChangesOnly.mono {bs cs : List Block} {s t : State} (p : ChangesOnly bs s t) (h : bs ⊆ cs) : ChangesOnly cs s t :=
  fun b hb => p b fun h' => hb (h h')

theorem Prim.changesOnly {b : Block} {s t : State} (c : Prim b s t) {bs : List Block} (h : b ∈ bs) : ChangesOnly bs s t := by
  intro b' hb'
  cases c <;> cases b' <;> first | exact rfl | exact absurd h hb'

/-- A path changes only the pieces it is listed with. -/
theorem Path.changesOnly {bs : List Block} {s t : State} (p : Path bs s t) : ChangesOnly bs s t := by
  induction p with
  | refl => exact ChangesOnly.refl _ _
  | tail _ h c ih => exact ih.trans (c.changesOnly h)

/-- A path keeps what every small change keeps. -/
theorem Path.keeps {bs : List Block} {P : State → Prop} (hP : ∀ b s t, Prim b s t → P s → P t) {s t : State} (p : Path bs s t)
    (h : P s) : P t := by
  induction p with
  | refl => exact h
  | tail _ _ c ih => exact hP _ _ _ c ih

/-- Every law that concerns one piece, taken together. -/
structure Lawful (s : State) : Prop where
  gauge : GaugeOk s.gauge
  tanks : TanksOk s.tanks
  engine : EngineOk s.engine
  hull : HullOk s.hull
  plant : PlantOk s.plant
  orders : OrdersOk s.orders
  pour : PourOk s.pour
  term : TermOk s.term
  reports : ReportsOk s.reports
  attention : AttentionOk s.attention
  console : PortOk s.console
  terminal : PortOk s.terminal

theorem Path.gaugeOk {bs : List Block} {s t : State} (p : Path bs s t) : GaugeOk s.gauge → GaugeOk t.gauge :=
  p.keeps (P := fun s => GaugeOk s.gauge) fun _ _ _ c h => by cases c <;> first | exact h | (rename_i g; exact g h)
theorem Path.tanksOk {bs : List Block} {s t : State} (p : Path bs s t) : TanksOk s.tanks → TanksOk t.tanks :=
  p.keeps (P := fun s => TanksOk s.tanks) fun _ _ _ c h => by cases c <;> first | exact h | (rename_i g _; exact g h)
theorem Path.engineOk {bs : List Block} {s t : State} (p : Path bs s t) : EngineOk s.engine → EngineOk t.engine :=
  p.keeps (P := fun s => EngineOk s.engine) fun _ _ _ c h => by cases c <;> first | exact h | (rename_i g; exact g h)
theorem Path.hullOk {bs : List Block} {s t : State} (p : Path bs s t) : HullOk s.hull → HullOk t.hull :=
  p.keeps (P := fun s => HullOk s.hull) fun _ _ _ c h => by cases c <;> first | exact h | (rename_i g; exact g h)
theorem Path.plantOk {bs : List Block} {s t : State} (p : Path bs s t) : PlantOk s.plant → PlantOk t.plant :=
  p.keeps (P := fun s => PlantOk s.plant) fun _ _ _ c h => by cases c <;> first | exact h | (rename_i g _; exact g h)
theorem Path.ordersOk {bs : List Block} {s t : State} (p : Path bs s t) : OrdersOk s.orders → OrdersOk t.orders :=
  p.keeps (P := fun s => OrdersOk s.orders) fun _ _ _ c h => by cases c <;> first | exact h | (rename_i g _ _; exact g h)
theorem Path.pourOk {bs : List Block} {s t : State} (p : Path bs s t) : PourOk s.pour → PourOk t.pour :=
  p.keeps (P := fun s => PourOk s.pour) fun _ _ _ c h => by cases c <;> first | exact h | (rename_i g; exact g h)
theorem Path.termOk {bs : List Block} {s t : State} (p : Path bs s t) : TermOk s.term → TermOk t.term :=
  p.keeps (P := fun s => TermOk s.term) fun _ _ _ c h => by cases c <;> first | exact h | (rename_i g; exact g h)
theorem Path.reportsOk {bs : List Block} {s t : State} (p : Path bs s t) : ReportsOk s.reports → ReportsOk t.reports :=
  p.keeps (P := fun s => ReportsOk s.reports) fun _ _ _ c h => by cases c <;> first | exact h | (rename_i g; exact g h)
theorem Path.attentionOk {bs : List Block} {s t : State} (p : Path bs s t) : AttentionOk s.attention → AttentionOk t.attention :=
  p.keeps (P := fun s => AttentionOk s.attention) fun _ _ _ c h => by cases c <;> first | exact h | (rename_i g; exact g h)
theorem Path.consoleOk {bs : List Block} {s t : State} (p : Path bs s t) : PortOk s.console → PortOk t.console :=
  p.keeps (P := fun s => PortOk s.console) fun _ _ _ c h => by cases c <;> first | exact h | (rename_i g; exact g h)
theorem Path.terminalOk {bs : List Block} {s t : State} (p : Path bs s t) : PortOk s.terminal → PortOk t.terminal :=
  p.keeps (P := fun s => PortOk s.terminal) fun _ _ _ c h => by cases c <;> first | exact h | (rename_i g; exact g h)

/-- A path keeps every piece's law. -/
theorem Path.lawful {bs : List Block} {s t : State} (p : Path bs s t) (h : Lawful s) : Lawful t where
  gauge := p.gaugeOk h.gauge
  tanks := p.tanksOk h.tanks
  engine := p.engineOk h.engine
  hull := p.hullOk h.hull
  plant := p.plantOk h.plant
  orders := p.ordersOk h.orders
  pour := p.pourOk h.pour
  term := p.termOk h.term
  reports := p.reportsOk h.reports
  attention := p.attentionOk h.attention
  console := p.consoleOk h.console
  terminal := p.terminalOk h.terminal

/-- A path keeps the number of tank records, the windows, the rank counter, the profile, the input lines and the call-state law. -/
theorem Path.tanks_length {bs : List Block} {s t : State} (p : Path bs s t) : t.tanks.length = s.tanks.length :=
  p.keeps (P := fun u => u.tanks.length = s.tanks.length)
    (fun _ _ _ c h => by cases c <;> first | exact h | (rename_i hl; exact hl.trans h)) rfl

theorem Path.windows {bs : List Block} {s t : State} (p : Path bs s t) : t.orders.windows = s.orders.windows :=
  p.keeps (P := fun u => u.orders.windows = s.orders.windows)
    (fun _ _ _ c h => by cases c <;> first | exact h | (rename_i hl _; exact hl.trans h)) rfl

theorem Path.rank {bs : List Block} {s t : State} (p : Path bs s t) : t.orders.rank = s.orders.rank :=
  p.keeps (P := fun u => u.orders.rank = s.orders.rank)
    (fun _ _ _ c h => by cases c <;> first | exact h | (rename_i hl; exact hl.trans h)) rfl

theorem Path.lines {bs : List Block} {s t : State} (p : Path bs s t) : t.plant.lines = s.plant.lines :=
  p.keeps (P := fun u => u.plant.lines = s.plant.lines)
    (fun _ _ _ c h => by cases c <;> first | exact h | (rename_i hl; exact hl.trans h)) rfl

theorem Path.profile {bs : List Block} {s t : State} (p : Path bs s t) : t.profile = s.profile :=
  p.keeps (P := fun u => u.profile = s.profile) (fun _ _ _ c h => by cases c <;> exact h) rfl

theorem Path.settings {bs : List Block} {s t : State} (p : Path bs s t) : t.settings = s.settings :=
  p.keeps (P := fun u => u.settings = s.settings) (fun _ _ _ c h => by cases c <;> exact h) rfl

theorem Path.clocks {bs : List Block} {s t : State} (p : Path bs s t) : t.clocks = s.clocks :=
  p.keeps (P := fun u => u.clocks = s.clocks) (fun _ _ _ c h => by cases c <;> exact h) rfl

theorem Path.callOk {bs : List Block} {s t : State} (p : Path bs s t) (h : CallOk s) : CallOk t :=
  p.keeps (P := CallOk) (fun _ u _ c h => by
    cases c with
    | call _ hc =>
      refine ⟨?_, h.2⟩
      have h1 := h.1
      rw [hc] at h1
      show (CallState.idle = .noProfile) ↔ profileOf u = none
      constructor
      · intro h; cases h
      · intro h2; exact absurd (h1.2 h2) (by decide)
    | tanks _ _ _ hl => exact ⟨h.1, hl.trans h.2⟩
    | _ => exact h) h

end Sys2Proof.Machine
end

