-- ==== Sys2Proof/Laws/Ports.lean ====
section
/-! SUPPORT. What the operations of Machine/Ports.lean and Machine/Flags.lean do: paths, and the effect of a reply on its port. -/

namespace Sys2Proof.Machine

/-! ### Ports -/

@[simp] theorem portOf_setPort (s : State) (l : Link) (p : Port) : portOf (setPort s l p) l = p := by cases l <;> rfl

/-- A port is set to one that keeps the law. -/
theorem setPort_path (s : State) (l : Link) (p : Port) (h : PortOk (portOf s l) → PortOk p) : Path [portBlock l] s (setPort s l p) := by
  cases l
  · exact .one (List.mem_singleton.2 rfl) (.console s p h)
  · exact .one (List.mem_singleton.2 rfl) (.terminal s p h)

/-- A frame that is no port reply may always be placed. -/
theorem PortOk.place {p : Port} (h : PortOk p) {f : Class1} (hf : ∀ r, f = .reply r → r.slot.isNone = false) :
    PortOk { p with queue := p.queue ++ [f] } := by
  refine ⟨h.1, h.2.1, ?_, h.2.2.2⟩
  have h2 := h.2.2.1
  unfold portRepliesWaiting at h2 ⊢
  rw [List.filter_append, List.length_append]
  cases f with
  | reply r => simpa [hf r rfl] using h2
  | unsolicited u => simpa using h2

theorem place_path (s : State) (l : Link) (f : Class1) (hf : ∀ r, f = .reply r → r.slot.isNone = false) :
    Path [portBlock l] s (place s l f) :=
  setPort_path s l _ fun h => h.place hf

theorem arrivalAt_modAt (p : Port) (k j : Nat) (f : Option Slot → Option Slot) :
    arrivalAt { p with slots := modAt p.slots k f } j
      = if k = j then ((p.slots[j]?).map f).join.map Slot.arrival else arrivalAt p j := by
  unfold arrivalAt
  rw [modAt_getElem?]
  split <;> rfl

/-- A change of a port that keeps or empties the arrival number of every slot keeps the numbers different. -/
theorem ArrivalsDiffer.of_le {p q : Port} (h : ArrivalsDiffer p) (hq : ∀ j, arrivalAt q j = arrivalAt p j ∨ arrivalAt q j = none) :
    ArrivalsDiffer q := by
  intro i hi j hj e
  rcases hq i with a | a
  · rcases hq j with b | b
    · rw [a, b] at e
      rw [a]
      exact h i hi j hj e
    · rw [e, b]
  · exact a

theorem setPhase_path (s : State) (l : Link) (k : Nat) (ph : SlotPhase) : Path [portBlock l] s (setPhase s l k ph) :=
  setPort_path s l _ fun h => ⟨by simpa using h.1, h.2.1.of_le fun j => by
    left
    rw [arrivalAt_modAt]
    split
    · unfold arrivalAt
      rcases (portOf s l).slots[j]? with _ | _ | x <;> rfl
    · rfl, h.2.2⟩

/-- Every request held came before the next one accepted. -/
theorem arrival_lt_nextArrival {p : Port} {sl : Slot} (h : some sl ∈ p.slots) : sl.arrival < nextArrival p := by
  unfold nextArrival
  generalize p.slots = os at h
  induction os with
  | nil => cases h
  | cons o os ih =>
    simp only [List.foldr_cons]
    rcases List.mem_cons.1 h with e | e
    · subst e
      exact Nat.lt_of_lt_of_le (Nat.lt_succ_self _) (Nat.le_max_left _ _)
    · cases o with
      | none => exact ih e
      | some x => exact Nat.lt_of_lt_of_le (ih e) (Nat.le_max_right _ _)

theorem arrivalAt_lt_nextArrival {p : Port} {k n : Nat} (h : arrivalAt p k = some n) : n < nextArrival p := by
  unfold arrivalAt at h
  rcases e : p.slots[k]? with _ | _ | x <;> rw [e] at h
  · cases h
  · cases h
  · cases h
    exact arrival_lt_nextArrival (List.mem_of_getElem? e)

/-- An accepted request takes a slot with the next arrival number: the slots keep their law. -/
theorem ArrivalsDiffer.take {p : Port} (h : ArrivalsDiffer p) (k : Nat) {sl : Slot} (hsl : sl.arrival = nextArrival p) :
    ArrivalsDiffer { p with slots := modAt p.slots k fun _ => some sl } := by
  have taken : ∀ j, arrivalAt { p with slots := modAt p.slots k fun _ => some sl } j
      = if k = j ∧ j < p.slots.length then some (nextArrival p) else arrivalAt p j := by
    intro j
    rw [arrivalAt_modAt]
    by_cases e : k = j
    · by_cases hj : j < p.slots.length
      · simp [e, hj, hsl]
      · simp [e, hj, arrivalAt]
    · simp [e]
  intro i hi j hj
  rw [taken, taken]
  split
  · next a =>
    rw [if_neg fun b => absurd (a.1.symm.trans b.1) (Nat.ne_of_gt hj)]
    intro e
    exact absurd (arrivalAt_lt_nextArrival e.symm) (Nat.lt_irrefl _)
  · split
    · intro e
      exact absurd (arrivalAt_lt_nextArrival e) (Nat.lt_irrefl _)
    · exact h i hi j hj

/-- A slot is freed: the slots keep their law. -/
theorem ArrivalsDiffer.free {p : Port} (h : ArrivalsDiffer p) (k : Nat) :
    ArrivalsDiffer { p with slots := modAt p.slots k fun _ => none } := by
  refine h.of_le fun j => ?_
  rw [arrivalAt_modAt]
  split
  · right
    cases p.slots[j]? <;> rfl
  · exact .inl rfl

/-- A request that is accepted with the next arrival number takes a slot. -/
theorem takeSlot_path (s : State) (l : Link) (k : Nat) {sl : Slot} (h : sl.arrival = nextArrival (portOf s l)) :
    Path [portBlock l] s (takeSlot s l k sl) :=
  setPort_path s l _ fun p => ⟨by simpa using p.1, p.2.1.take k h, p.2.2⟩

theorem freeSlotAt_path (s : State) (l : Link) (k : Nat) : Path [portBlock l] s (freeSlotAt s l k) :=
  setPort_path s l _ fun p => ⟨by simpa using p.1, p.2.1.free k, p.2.2⟩

/-- What a slot hands to its owner: a request not dealt with yet, which of the profile store's requests is the first that arrived. -/
theorem handed_eq_some {s : State} {l : Link} {k : Nat} {r : Request} :
    handed s l k = some r ↔ ∃ x, slotAt s l k = some x ∧ x.request = r ∧ x.phase = .handed
      ∧ (toProfileStore r = true → ∀ j y, slotAt s l j = some y → y.phase = .handed → toProfileStore y.request = true → x.arrival ≤ y.arrival) := by
  have turn : ∀ x : Slot, inTurn (portOf s l) x = true ↔ (toProfileStore x.request = true →
      ∀ j y, slotAt s l j = some y → y.phase = .handed → toProfileStore y.request = true → x.arrival ≤ y.arrival) := by
    intro x
    unfold inTurn awaitsStore slotAt
    simp only [Bool.or_eq_true, Bool.not_eq_true', List.all_eq_true]
    constructor
    · intro h hx j y hy hp hr
      rcases h with h | h
      · rw [hx] at h
        cases h
      · have hm : some y ∈ (portOf s l).slots := List.mem_of_getElem? (Option.join_eq_some_iff.1 hy)
        simpa [hr, hp] using h _ hm
    · intro h
      cases hx : toProfileStore x.request with
      | false => exact .inl rfl
      | true =>
        refine .inr fun o ho => ?_
        cases o with
        | none => rfl
        | some y =>
          obtain ⟨j, hj⟩ := List.mem_iff_getElem?.1 ho
          cases hr : toProfileStore y.request with
          | false => simp [hr]
          | true =>
            by_cases hp : y.phase = .handed
            · simpa [hp, hr] using h hx j y (by rw [hj]; rfl) hp hr
            · simp [hp]
  unfold handed
  cases hk : slotAt s l k with
  | none => simp
  | some x =>
    by_cases hp : x.phase = .handed
    · by_cases ht : inTurn (portOf s l) x = true
      · simp only [hp, ht, decide_true, Bool.and_self, if_true, Option.some.injEq]
        constructor
        · rintro rfl
          exact ⟨x, rfl, rfl, hp, (turn x).1 ht⟩
        · rintro ⟨y, e, hr, _⟩
          cases e
          exact hr
      · simp only [hp, ht, decide_true, Bool.and_false, Bool.false_eq_true, if_false, false_iff, reduceCtorEq]
        rintro ⟨y, e, rfl, _, h⟩
        cases e
        exact ht ((turn x).2 h)
    · simp only [hp, decide_false, Bool.false_and, Bool.false_eq_true, if_false, false_iff, reduceCtorEq]
      rintro ⟨y, e, _, h, _⟩
      cases e
      exact hp h

theorem hold_path (s : State) (l : Link) (k : Nat) : Path [portBlock l] s (hold s l k) := setPhase_path s l k .taken

theorem reply_path (s : State) (l : Link) (k : Nat) (oc : Oc) (fs : List (Field × Val)) : Path [portBlock l] s (reply s l k oc fs) := by
  unfold reply
  split
  · exact .refl s
  · exact (setPhase_path s l k _).trans (place_path _ l _ fun r hr => by cases hr; rfl)

theorem refuse_path (s : State) (l : Link) (k : Nat) (oc : Oc) : Path [portBlock l] s (refuse s l k oc) := reply_path s l k oc []

/-! ### The attention unit -/

theorem modCond_mask (a : Attention) (n : Nat) (f : Condition → Condition) : (modCond a n f).mask = a.mask := rfl
theorem modCond_owed (a : Attention) (n : Nat) (f : Condition → Condition) : (modCond a n f).owed = a.owed := rfl

theorem isPending_modCond (a : Attention) (n m : Nat) (f : Condition → Condition) (hf : ∀ c, (f c).pending = c.pending) :
    isPending (modCond a n f) m = isPending a m := by
  unfold isPending modCond
  rw [modAt_getElem?]
  split
  · cases a.conditions[m]? <;> simp [hf]
  · rfl

theorem isPending_modCond_other (a : Attention) {n m : Nat} (f : Condition → Condition) (h : n ≠ m) :
    isPending (modCond a n f) m = isPending a m := by
  unfold isPending modCond
  rw [modAt_getElem?_other _ _ h]

/-- The record of a condition in a changed unit. -/
theorem modCond_getElem? (a : Attention) (n m : Nat) (f : Condition → Condition) :
    (modCond a n f).conditions[m]? = if n = m then a.conditions[m]?.map f else a.conditions[m]? := modAt_getElem? _ _ _ _

/-- Records changed within their law, with every owed condition still pending. -/
theorem AttentionOk.modCond {a : Attention} (h : AttentionOk a) {n : Nat} {f : Condition → Condition}
    (hf : ∀ c, a.conditions[n]? = some c → ConditionOk n (f c)) (hp : ∀ c, a.conditions[n]? = some c → n ∈ a.owed → (f c).pending = true) :
    AttentionOk (modCond a n f) := by
  refine ⟨by simpa [Machine.modCond] using h.1, h.2.1, ?_, ?_⟩
  · intro m hm
    refine ⟨(h.2.2.1 m hm).1, ?_⟩
    have hpm := (h.2.2.1 m hm).2
    unfold isPending at hpm ⊢
    rw [modCond_getElem?]
    split
    · next e =>
      subst e
      cases hc : a.conditions[n]? with
      | none => simp [hc] at hpm
      | some c => simpa using hp c hc hm
    · exact hpm
  · intro m c hc
    rw [modCond_getElem?] at hc
    split at hc
    · next e =>
      subst e
      cases hc' : a.conditions[n]? with
      | none => simp [hc'] at hc
      | some c' =>
        simp [hc'] at hc
        subst hc
        exact hf c' hc'
    · exact h.2.2.2 m c hc

theorem AttentionOk.owe {a : Attention} (h : AttentionOk a) {n : Nat} (hp : isPending a n = true) : AttentionOk (owe a n) := by
  unfold Machine.owe
  split
  · next he =>
    simp only [Bool.and_eq_true, Bool.not_eq_true', List.contains_eq_mem, decide_eq_false_iff_not] at he
    refine ⟨h.1, ?_, ?_, h.2.2.2⟩
    · exact List.nodup_append.2 ⟨h.2.1, List.nodup_singleton n, by
        intro x hx y hy e
        simp only [List.mem_singleton] at hy
        exact he.2 (by rw [← hy, ← e]; exact hx)⟩
    · intro m hm
      rcases List.mem_append.1 hm with hm | hm
      · exact h.2.2.1 m hm
      · simp only [List.mem_singleton] at hm
        subst hm
        exact ⟨he.1, hp⟩
  · exact h

/-- A condition's notice is withdrawn, and its record then changed within its law. -/
theorem AttentionOk.withdraw_modCond {a : Attention} (h : AttentionOk a) {n : Nat} {f : Condition → Condition}
    (hf : ∀ c, a.conditions[n]? = some c → ConditionOk n (f c)) : AttentionOk (withdrawNotice (Machine.modCond a n f) n) := by
  have h' : AttentionOk (withdrawNotice a n) :=
    ⟨h.1, h.2.1.filter _, fun m hm => h.2.2.1 m (List.mem_of_mem_filter hm), h.2.2.2⟩
  exact h'.modCond hf fun c _ hm => by simp [withdrawNotice] at hm

theorem countUp_le (n : Nat) : countUp n ≤ 255 := Nat.min_le_left _ _

theorem isPending_modCond_self {a : Attention} {n : Nat} {c : Condition} {f : Condition → Condition} (h : a.conditions[n]? = some c) :
    isPending (Machine.modCond a n f) n = (f c).pending := by
  simp [isPending, modCond_getElem?, h]

/-- Raising a latched condition keeps the law (R182). -/
theorem AttentionOk.raise {a : Attention} (h : AttentionOk a) {n : Nat} (hn : isLevel n = false) (d : Option Nat) :
    AttentionOk (raiseIn a n d) := by
  unfold raiseIn
  split
  · exact h
  · next c hc =>
    have hk := h.2.2.2 n c hc
    simp only [ConditionOk, hn, Bool.false_eq_true, if_false] at hk
    split
    · next hp =>
      refine h.modCond (fun c' hc' => ?_) (fun c' hc' _ => ?_)
      · rw [hc] at hc'
        cases hc'
        exact ⟨countUp_le _, by simp [hn, hk.2.1, hp]⟩
      · rw [hc] at hc'
        cases hc'
        exact hp
    · refine (h.modCond (fun c' hc' => ?_) (fun c' hc' _ => rfl)).owe (isPending_modCond_self hc)
      rw [hc] at hc'
      cases hc'
      exact ⟨by simp, by simp [hn, hk.2.1]⟩

/-- A reported cause of a level condition keeps the law (R183). -/
theorem AttentionOk.cause {a : Attention} (h : AttentionOk a) {n : Nat} (hn : isLevel n = true) (x : Bool) : AttentionOk (causeIn a n x) := by
  unfold causeIn
  split
  · exact h
  · next c hc =>
    have hk := h.2.2.2 n c hc
    simp only [ConditionOk, hn, if_true] at hk
    split
    · exact h
    · split
      · refine (h.modCond (fun c' hc' => ?_) (fun c' hc' _ => rfl)).owe (isPending_modCond_self hc)
        rw [hc] at hc'
        cases hc'
        exact ⟨countUp_le _, by simp [hn, hk.2]⟩
      · refine h.withdraw_modCond fun c' hc' => ?_
        rw [hc] at hc'
        cases hc'
        exact ⟨hk.1, by simp [hn, hk.2]⟩

/-- What a reported cause does to one condition: it holds the cause reported, if it is its own, and is as before where the cause is. -/
theorem causeIn_getElem? {a : Attention} {n m : Nat} {c : Condition} (holds : Bool) (h : a.conditions[m]? = some c) :
    ∃ d, (causeIn a n holds).conditions[m]? = some d ∧ d.cause = (if n = m then holds else c.cause) ∧ (d.cause = c.cause → d = c) := by
  have owed : ∀ (x : Attention) (k : Nat), (Machine.owe x k).conditions = x.conditions := by
    intro x k
    unfold Machine.owe
    split <;> rfl
  have same : ∀ b : Attention, b.conditions[m]? = some c → (n = m → c.cause = holds) →
      ∃ d, b.conditions[m]? = some d ∧ d.cause = (if n = m then holds else c.cause) ∧ (d.cause = c.cause → d = c) := by
    intro b hb e
    refine ⟨c, hb, ?_, fun _ => rfl⟩
    split
    · next g => exact e g
    · rfl
  unfold causeIn
  cases hn : a.conditions[n]? with
  | none => exact same a h fun e => by subst e; rw [h] at hn; cases hn
  | some x =>
    dsimp only
    split
    · next e => exact same a h fun g => by subst g; rw [h] at hn; cases hn; exact e
    · next ne =>
      by_cases g : n = m
      · subst g
        rw [h] at hn
        cases hn
        split
        · next hh =>
          refine ⟨_, by rw [owed, modCond_getElem?, if_pos rfl, h]; rfl, by simp [hh], fun e => ?_⟩
          exact absurd (e.symm.trans hh.symm) ne
        · next hh =>
          refine ⟨_, by simp [withdrawNotice, modCond_getElem?, h]; rfl, by simp [hh], fun e => ?_⟩
          have hf : holds = false := by simpa using hh
          exact absurd (e.symm.trans hf.symm) ne
      · have other : ∀ f, (Machine.modCond a n f).conditions[m]? = some c := fun f => by rw [modCond_getElem?, if_neg g, h]
        cases holds with
        | true => exact same (Machine.owe _ _) (by rw [owed]; exact other _) fun e => absurd e g
        | false => exact same (withdrawNotice _ _) (other _) fun e => absurd e g

theorem raise_path (s : State) {n : Nat} (hn : isLevel n = false) (d : Option Nat) : Path [.attention] s (raise s n d) :=
  .one (List.mem_singleton.2 rfl) (.attention s _ fun h => h.raise hn d)

theorem reportCause_path (s : State) {n : Nat} (hn : isLevel n = true) (x : Bool) : Path [.attention] s (reportCause s n x) :=
  .one (List.mem_singleton.2 rfl) (.attention s _ fun h => h.cause hn x)

end Sys2Proof.Machine
end

