-- ==== Sys2Proof/Laws/Engine.lean ====
section
/-! SUPPORT. What the operations of Machine/Engine.lean and Machine/Gate.lean do: paths. -/

namespace Sys2Proof.Machine

/-! ### The engine -/

/-- The engine set with the same preview queue. -/
theorem setEngine_path (s : State) (g : Engine) (h : EngineOk s.engine → EngineOk g) : Path [.engine] s (setEngine s g) :=
  .one (List.mem_singleton.2 rfl) (.engine s g h)

theorem startLive_path (s : State) (p : Profile) : Path [.engine] s (startLive s p) := setEngine_path s _ fun h => h

theorem startPreview_path (s : State) (p : Profile) {e : PreviewEntry} {rest : List PreviewEntry} (hq : s.engine.previews = e :: rest) :
    Path [.engine] s (startPreview s p e rest) :=
  setEngine_path s _ fun h => by
    unfold EngineOk at h ⊢
    rw [hq] at h
    refine le_trans ?_ h
    rw [List.filter_cons]
    split <;> simp

/-- The choice changes the engine alone (R71). -/
theorem choose_path (s : State) : Path [.engine] s (choose s) := by
  unfold choose
  split
  · split
    · split
      · exact startLive_path s _
      · exact .refl s
    · next hq =>
      split
      · exact startLive_path s _
      · exact startPreview_path s _ hq
  · exact .refl s

theorem markLive_path (s : State) (mark : Bool) : Path [.engine] s (markLive s mark) := by
  unfold markLive
  split
  · exact setEngine_path s _ fun h => h
  · exact .refl s

theorem liveRequest_path (s : State) (mark : Bool) : Path [.engine] s (liveRequest s mark) := (markLive_path s mark).trans (choose_path _)

/-- A preview request that has room keeps the law of the queue (R70). -/
theorem placePreview_path (s : State) {e : PreviewEntry} (h : hasRoom s e = true) : Path [.engine] s (placePreview s e) := by
  refine Path.trans (setEngine_path s _ fun hk => ?_) (choose_path _)
  unfold EngineOk at hk ⊢
  simp only [List.filter_append, List.length_append]
  unfold hasRoom at h
  cases he : fromGate e with
  | true => simpa [he] using hk
  | false =>
    simp only [he, Bool.false_or, decide_eq_true_eq] at h
    simp only [he, List.filter_cons, Bool.not_false, if_true, List.filter_nil, List.length_singleton]
    exact h

theorem answerWithdrawn_path (s : State) (r : Requester) : Path [.console] s (answerWithdrawn s r) := by
  unfold answerWithdrawn
  split
  · exact refuse_path s .console _ _
  · exact .refl s

/-- Abandoning the engine changes the engine and answers console requesters (R50, R72). -/
theorem abandonEngine_path (s : State) : Path [.engine, .console] s (abandonEngine s) := by
  unfold abandonEngine
  refine Path.trans ((setEngine_path s Engine.initial fun _ => by simp [EngineOk, Engine.initial]).mono (by decide)) ?_
  exact foldl_path (fun t r => (answerWithdrawn_path t r).mono (by decide)) _ _

theorem finishEvaluation_path (s : State) (k : LastKind) : Path [.engine] s (finishEvaluation s k) := by
  unfold finishEvaluation
  refine Path.trans ?_ (choose_path _)
  exact setEngine_path s _ (by intro h; exact h)

theorem reportHullCauses_path (s : State) : Path [.attention] s (reportHullCauses s) :=
  (reportCause_path s (by decide) _).trans ((reportCause_path _ (by decide) _).trans (reportCause_path _ (by decide) _))

theorem HullOk.initial : HullOk Hull.initial := ⟨rfl, rfl⟩

/-- A reset of the hull condition record changes it and the causes it reports (R83). -/
theorem resetHull_path (s : State) : Path [.hull, .attention] s (resetHull s) :=
  (Path.one (by decide) (.hull s Hull.initial fun _ => HullOk.initial)).trans ((reportHullCauses_path _).mono (by decide))

/-! ### The pour gate's records -/

theorem setPour_path (s : State) (p : Pour) (h : PourOk s.pour → PourOk p) : Path [.pour] s (setPour s p) :=
  .one (List.mem_singleton.2 rfl) (.pour s p h)

theorem PourOk.mapPlan {p : Pour} (h : PourOk p) {f : Step → Step} (hf : ∀ x, (f x).number = x.number) :
    PourOk { p with plan := p.plan.map f } := by
  refine ⟨?_, by simpa using h.2.1, h.2.2⟩
  have : (p.plan.map f).map Step.number = p.plan.map Step.number := by
    rw [List.map_map]
    exact List.map_congr_left fun x _ => hf x
  rw [List.length_map, this]
  exact h.1

/-- One step's record is changed, its number kept. -/
theorem modStep_path (s : State) (n : Nat) (f : Step → Step) (hf : ∀ x, x.number = n → (f x).number = n) : Path [.pour] s (modStep s n f) :=
  setPour_path s _ fun h => h.mapPlan fun x => by
    by_cases hx : x.number = n
    · simp [hx, hf]
    · simp [hx]

theorem modHold_path (s : State) (h : Nat) (f : Hold → Hold) : Path [.pour] s (modHold s h f) := by
  unfold modHold
  split
  · exact .refl s
  · exact setPour_path s _ fun k => ⟨k.1, k.2.1, by simpa using k.2.2⟩

theorem askGate_path (s : State) (st : Step) : Path [.pour, .engine] s (askGate s st) := by
  unfold askGate
  refine Path.trans ?_ ((placePreview_path _ rfl).mono (by decide))
  exact (setPour_path s _ (by intro h; exact h)).mono (by decide)

theorem enterEvaluating_path (s : State) (st : Step) (k : Option Nat) : Path [.pour, .engine] s (enterEvaluating s st k) := by
  unfold enterEvaluating
  dsimp only
  split
  · refine Path.trans ?_ (askGate_path _ _)
    exact (modStep_path s _ _ (by intro _ h; exact h)).mono (by decide)
  · exact (modStep_path s _ _ (by intro _ h; exact h)).mono (by decide)

/-- A recheck changes the plan, the gate preview and the engine (R145). -/
theorem recheck_path (s : State) : Path [.pour, .engine] s (recheck s) := by
  unfold recheck
  split
  · exact .refl s
  · split
    · exact (modStep_path s _ _ (by intro _ h; exact h)).mono (by decide)
    · exact enterEvaluating_path s _ _

end Sys2Proof.Machine
end

