-- ==== Sys2Proof/Laws/Reports.lean ====
section
/-! SUPPORT. What the operations of Machine/ReportBuilder.lean do: paths. -/

namespace Sys2Proof.Machine

theorem setReports_path (s : State) (r : Reports) (h : ReportsOk s.reports → ReportsOk r) : Path [.reports] s (setReports s r) :=
  .one (List.mem_singleton.2 rfl) (.reports s r h)

theorem gapUp_le (n : Nat) : gapUp n ≤ 255 := Nat.min_le_left _ _

/-- A record that leaves the queue concerns the pour gate and the engine (R141, R145). -/
theorem recordLeft_path (s : State) (n : Nat) : Path [.pour, .engine] s (recordLeft s n) := by
  unfold recordLeft
  refine Path.trans ?_ (recheck_path _)
  split
  · exact (setPour_path s _ (by intro h; exact h)).mono (by decide)
  · exact .refl s

theorem nextSerial_le {s : State} {k : ReportKind} {n : Nat} (hk : (k != .departure) = true) (h : nextSerial s k = some n) : n ≤ 65534 := by
  unfold nextSerial at h
  split at h
  · cases h
  · split at h
    · cases h
    · next hn =>
      cases h
      simp only [hk, Bool.true_and, decide_eq_true_eq] at hn
      omega

/-- A record that joins a queue of at most 7 keeps the law (R174). -/
theorem ReportsOk.withRecord {r : Reports} (h : ReportsOk r) {queue : List Report} {x : Report} (hq : queue.length < Config.reportQueueMax)
    (hx : x.serial ≤ 65534) : ReportsOk (withRecord r queue x) := by
  refine ⟨?_, h.2.1, h.2.2.1, ?_⟩
  · show (queue ++ [x]).length ≤ _
    rw [List.length_append]
    exact hq
  · intro n hn
    cases hn
    exact hx

theorem ReportsOk.discardGaps {r : Reports} (h : ReportsOk r) (x : Report) : ReportsOk (discardGaps r x) := by
  refine ⟨h.1, ?_, ?_, h.2.2.2⟩
  · show (if x.consoleFlag = .pending then gapUp r.consoleGap else r.consoleGap) ≤ 255
    split
    · exact gapUp_le _
    · exact h.2.1
  · show (if x.terminalFlag = .pending then gapUp r.terminalGap else r.terminalGap) ≤ 255
    split
    · exact gapUp_le _
    · exact h.2.2.1

/-- A record joins the queue: the report builder changes, and through a discard the attention unit, the pour gate and the engine (R174, R175). -/
theorem joinQueue_path (s : State) {x : Report} (hx : x.serial ≤ 65534) : Path [.reports, .attention, .pour, .engine] s (joinQueue s x) := by
  unfold joinQueue
  split
  · exact (setReports_path s _ (by intro h; exact h.withRecord (by decide) hx)).mono (by decide)
  · next y rest hq =>
    split
    · next hr => exact (setReports_path s _ (by intro h; exact h.withRecord hr hx)).mono (by decide)
    · have h1 : Path [.reports] s (setReports s (withRecord (discardGaps s.reports y) rest x)) := by
        refine setReports_path s _ fun h => (h.discardGaps y).withRecord ?_ hx
        have h1 := h.1
        rw [hq, List.length_cons] at h1
        exact h1
      refine Path.trans ?_ ((recordLeft_path _ _).mono (by decide))
      split
      · exact h1.andThen (raise_path _ (by decide) _)
      · exact h1.mono (by decide)

/-- A trigger changes the report builder, and through a discard the attention unit, the pour gate and the engine (R171 to R175). -/
theorem trigger_path (s : State) {k : ReportKind} (hk : (k != .departure) = true) (st : Option Step) :
    Path [.reports, .attention, .pour, .engine] s (trigger s k st) := by
  unfold trigger
  split
  · exact .refl s
  · next n hn => exact joinQueue_path s (nextSerial_le hk hn)

theorem stopScanning_path (s : State) : Path [.gauge] s (stopScanning s) :=
  .one (List.mem_singleton.2 rfl) (.gauge s _ fun h => ⟨h.1, h.2.1, fun r hr => by cases hr⟩)

/-- The watch over the DEPARTURE record may end the call (R20). -/
theorem closingCheck_path (s : State) : Path [.reports, .call, .gauge] s (closingCheck s) := by
  unfold closingCheck
  split
  · exact .refl s
  · next hc =>
    have hc' : s.call = .closing := by simpa using hc
    split
    · refine Path.trans ?_ ((stopScanning_path _).mono (by decide))
      exact .one (by decide) (.call s hc')
    · split
      · refine Path.trans ?_ ((stopScanning_path _).mono (by decide))
        refine Path.trans ?_ (Path.one (b := .call) (by decide) (.call _ hc'))
        exact (setReports_path s _ (by intro h; exact ⟨(List.length_filter_le _ _).trans h.1, h.2⟩)).mono (by decide)
      · exact .refl s

/-- An abandoned RPRT concerns the report builder and the attention unit (R178). -/
theorem abandonTransmission_path (s : State) (x : Report) : Path [.reports, .attention] s (abandonTransmission s x) := by
  unfold abandonTransmission
  split
  · exact (setReports_path s _ (by intro h; exact ⟨by simpa using h.1, h.2⟩)).mono (by decide)
  · split
    · exact .refl s
    · refine Path.trans ?_ ((raise_path _ (by decide) _).mono (by decide))
      exact (setReports_path s _ (by intro h; exact ⟨h.1, h.2.1, gapUp_le _, h.2.2.2⟩)).mono (by decide)

end Sys2Proof.Machine
end

