-- ==== Sys2Proof/Laws/Pour.lean ====
section
/-! SUPPORT. What the operations of Machine/PourGate.lean do: paths. -/

namespace Sys2Proof.Machine

theorem setTerm_path (s : State) (x : TermLink) (h : TermOk s.term → TermOk x) : Path [.term] s (setTerm s x) :=
  .one (List.mem_singleton.2 rfl) (.term s x h)

theorem keepFrame_length {kept : List Unsolicited} (u : Unsolicited) (h : kept.length ≤ 4) : (keepFrame kept u).length ≤ 4 := by
  unfold keepFrame
  split
  · simp only [List.length_append, List.length_drop, List.length_singleton]
    omega
  · simp only [List.length_append, List.length_singleton]
    omega

/-- A frame handed to the terminal port is placed, kept or discarded (R164). -/
theorem handTerminal_path (s : State) (u : Unsolicited) : Path [.terminal, .term] s (handTerminal s u) := by
  unfold handTerminal
  split
  · exact (place_path s .terminal _ (by intro r hr; cases hr)).mono (by decide)
  · exact (place_path s .terminal _ (by intro r hr; cases hr)).mono (by decide)
  · exact (setTerm_path s _ (by intro h; exact ⟨h.1, keepFrame_length u h.2⟩)).mono (by decide)
  · exact .refl s

theorem startQuiet_path (s : State) : Path [.term] s (startQuiet s) := setTerm_path s _ fun h => ⟨by simp, h.2⟩

theorem grantStep_path (s : State) (st : Step) : Path [.pour] s (grantStep s st) := by
  unfold grantStep
  refine Path.trans ?_ (modHold_path _ _ _)
  exact modStep_path s _ _ (by intro _ h; exact h)

/-- A grant changes the step and its hold, starts the quiet timer, and answers or sends (R149). -/
theorem grant_path (s : State) (st : Step) : Path [.pour, .term, .terminal] s (grant s st) := by
  unfold grant
  have h : Path [.pour, .term, .terminal] s (pouringBegun (grantStep s st)) := (grantStep_path s st).andThen (startQuiet_path _)
  dsimp only
  split
  · exact h.trans ((reply_path _ .terminal _ _ _).mono (by decide))
  · exact h.trans ((handTerminal_path _ _).mono (by decide))

theorem resume_path (s : State) (st : Step) : Path [.pour, .term, .terminal] s (resume s st) := by
  unfold resume
  refine Path.trans ?_ ((handTerminal_path _ _).mono (by decide))
  exact (modStep_path s _ _ (by intro _ h; exact h)).mono (by decide)

theorem tryResume_path (s : State) : Path [.pour, .term, .terminal] s (tryResume s) := by
  unfold tryResume
  split
  · exact Path.ite (resume_path _ _) (.refl s)
  · exact .refl s

/-- What a halt changes (R152). -/
theorem haltStep_path (s : State) (st : Step) (c : HaltCause) :
    Path [.pour, .term, .terminal, .attention, .reports, .engine] s (haltStep s st c) := by
  unfold haltStep
  refine Path.trans ?_ ((trigger_path _ (by decide) _).mono (by decide))
  refine Path.trans ?_ ((raise_path _ (by decide) _).mono (by decide))
  refine Path.trans ?_ ((handTerminal_path _ _).mono (by decide))
  exact (modStep_path s _ _ (by intro _ h; exact h)).mono (by decide)

theorem halt_path (s : State) (c : HaltCause) : Path [.pour, .term, .terminal, .attention, .reports, .engine] s (halt s c) := by
  unfold halt
  split
  · exact Path.ite (haltStep_path _ _ _) (.refl s)
  · exact .refl s

theorem enterEstimate_path (s : State) : Path [.pour] s (enterEstimate s) := by
  unfold enterEstimate
  split
  · exact modHold_path _ _ _
  · exact .refl s

theorem recomputeEstimate_path (s : State) : Path [.pour, .engine] s (recomputeEstimate s) := by
  unfold recomputeEstimate
  split
  · split
    · exact .refl s
    · split
      · exact .refl s
      · split
        · refine Path.trans ?_ ((markLive_path _ _).mono (by decide))
          exact (modHold_path _ _ _).mono (by decide)
        · exact (modHold_path _ _ _).mono (by decide)
  · exact .refl s

/-- The pour gate at an announced change of the link state (R158). -/
theorem linkChanged_path (s : State) : Path [.pour, .engine, .term, .terminal, .attention, .reports] s (linkChanged s) := by
  unfold linkChanged
  refine Path.trans ((recheck_path s).mono (by decide)) ?_
  dsimp only
  split
  · exact (tryResume_path _).mono (by decide)
  · exact (enterEstimate_path _).mono (by decide)
  · exact (halt_path _ _).mono (by decide)
  · exact .refl _

/-- A change to a state other than LOST triggers no report (R152, R158). -/
theorem linkChanged_path_notLost (s : State) (h : s.term.state ≠ .lost) : Path [.pour, .engine, .term, .terminal] s (linkChanged s) := by
  have hk : (recheck s).term = s.term := (recheck_path s).changesOnly .term (by decide)
  unfold linkChanged
  refine Path.trans ((recheck_path s).mono (by decide)) ?_
  dsimp only
  split
  · exact (tryResume_path _).mono (by decide)
  · exact (enterEstimate_path _).mono (by decide)
  · next e => exact absurd (hk ▸ e) h
  · exact .refl _

theorem setLinkState_path (s : State) (l : LinkState) : Path [.term, .attention] s (setLinkState s l) := by
  unfold setLinkState
  refine Path.trans ?_ ((reportCause_path _ (by decide) _).mono (by decide))
  exact (setTerm_path s _ (by intro h; exact h)).mono (by decide)

/-- The link state after it has been set. -/
theorem setLinkState_state (s : State) (l : LinkState) : (setLinkState s l).term.state = l := rfl

theorem changeLink_path (s : State) (l : LinkState) : Path [.pour, .engine, .term, .terminal, .attention, .reports] s (changeLink s l) :=
  (setLinkState_path s l).andThen (linkChanged_path _)

theorem changeLink_path_notLost (s : State) {l : LinkState} (h : l ≠ .lost) : Path [.pour, .engine, .term, .terminal, .attention] s (changeLink s l) :=
  (setLinkState_path s l).andThen (linkChanged_path_notLost _ h)

theorem quietToUp_path (s : State) : Path [.pour, .engine, .term, .terminal, .attention] s (quietToUp s) :=
  Path.ite (changeLink_path_notLost s (by decide)) (.refl s)

theorem tallyAccepted_path (s : State) : Path [.pour, .engine, .term, .terminal, .attention] s (tallyAccepted s) :=
  (startQuiet_path s).andThen (quietToUp_path _)

theorem pouringEnded_path (s : State) : Path [.pour, .engine, .term, .terminal, .attention] s (pouringEnded s) := by
  unfold pouringEnded
  refine Path.trans ?_ (quietToUp_path _)
  exact (setTerm_path s _ (by intro h; exact ⟨by simp, h.2⟩)).mono (by decide)

theorem blockStep_path (s : State) (st : Step) (rn : Int) : Path [.pour, .term, .terminal, .attention] s (blockStep s st rn) := by
  unfold blockStep
  refine Path.trans ?_ ((raise_path _ (by decide) _).mono (by decide))
  refine Path.trans ?_ ((handTerminal_path _ _).mono (by decide))
  exact (modStep_path s _ _ (by intro _ h; exact h)).mono (by decide)

theorem startWaiting_path (s : State) (st : Step) (k : Nat) (r : WaitReason) : Path [.pour, .terminal] s (startWaiting s st k r) := by
  unfold startWaiting
  refine Path.trans ?_ ((reply_path _ .terminal _ _ _).mono (by decide))
  exact (modStep_path s _ _ (by intro _ h; exact h)).mono (by decide)

theorem gateResultFor_path (s : State) (st : Step) (b : Band) : Path [.pour, .term, .terminal, .attention] s (gateResultFor s st b) := by
  unfold gateResultFor
  split
  · exact (startWaiting_path _ _ _ _).mono (by decide)
  · exact (modStep_path s _ _ (by intro _ h; exact h)).mono (by decide)
  · split
    · split
      · refine Path.trans ?_ ((reply_path _ .terminal _ _ _).mono (by decide))
        exact (modStep_path s _ _ (by intro _ h; exact h)).mono (by decide)
      · exact blockStep_path _ _ _
    · exact (grant_path _ _).mono (by decide)

/-- What the gate's preview result changes (R144). -/
theorem gateResult_path (s : State) (b : Band) : Path [.pour, .engine, .term, .terminal, .attention] s (gateResult s b) := by
  unfold gateResult
  have h : Path [.pour, .engine, .term, .terminal, .attention] s (setPour s { s.pour with preview := .none }) :=
    (setPour_path s _ (by intro h; exact h)).mono (by decide)
  dsimp only
  split
  · exact h
  · split
    · exact h.trans ((askGate_path _ _).mono (by decide))
    · exact h
  · split
    · exact h.trans (Path.ite ((gateResultFor_path _ _ _).mono (by decide)) (.refl _))
    · exact h

/-- What the tests after a tally change (R151). -/
theorem tallyTests_path (s : State) (ty : Nat) : Path [.pour, .term, .terminal, .attention, .reports, .engine] s (tallyTests s ty) := by
  unfold tallyTests
  split
  · exact .refl s
  · dsimp only
    split
    · split
      · refine Path.trans ?_ ((raise_path _ (by decide) _).mono (by decide))
        exact haltStep_path _ _ _
      · exact .refl s
    · split
      · have h : ∀ u : State, Path [.pour, .term, .terminal, .attention, .reports, .engine] s u →
            ∀ (x : Step), Path [.pour, .term, .terminal, .attention, .reports, .engine] s
              (trigger (raise (modStep u x.number fun y => { y with runOnRaised := true }) overshoot (some x.number)) .exception
                (stepByNumber (raise (modStep u x.number fun y => { y with runOnRaised := true }) overshoot (some x.number)) x.number)) := by
          intro u hu x
          refine Path.trans ?_ ((trigger_path _ (by decide) _).mono (by decide))
          refine Path.trans ?_ ((raise_path _ (by decide) _).mono (by decide))
          exact hu.trans ((modStep_path _ _ _ (by intro _ h; exact h)).mono (by decide))
        split
        · next st _ _ _ _ =>
          have hm : Path [.pour, .term, .terminal, .attention, .reports, .engine] s
              (modStep s st.number fun x => { x with overshootMark := true }) :=
            (modStep_path s _ _ (by intro _ h; exact h)).mono (by decide)
          exact Path.ite (h _ hm st) hm
        · exact Path.ite (h _ (.refl s) _) (.refl s)
      · exact .refl s

theorem settled_path (s : State) (n : Nat) : Path [.pour, .engine] s (settled s n) := by
  unfold settled
  refine Path.trans ?_ ((liveRequest_path _ _).mono (by decide))
  exact (modStep_path s _ _ (by intro _ h; exact h)).mono (by decide)

theorem reportMarked_path (s : State) : Path [.pour, .reports, .attention, .engine] s (reportMarked s) := by
  unfold reportMarked
  split
  · exact .refl s
  · refine Path.trans ?_ ((modStep_path _ _ _ (by intro _ h; exact h)).mono (by decide))
    refine Path.trans ?_ ((setPour_path _ _ (by intro h; exact h)).mono (by decide))
    exact (trigger_path _ (by decide) _).mono (by decide)

theorem pourHullStop_path (s : State) : Path [.pour, .term, .terminal, .attention, .reports, .engine] s (pourHullStop s) :=
  (halt_path s .hull).andThen (recheck_path _)

theorem pourHullClear_path (s : State) : Path [.pour, .term, .terminal, .engine] s (pourHullClear s) :=
  (tryResume_path s).andThen (recheck_path _)

end Sys2Proof.Machine
end

