-- ==== Sys2Proof/Laws/Plant.lean ====
section
/-! SUPPORT. What the operations of Machine/Plant.lean do: the laws of valves, pumps and mains, and paths. -/

namespace Sys2Proof.Machine

theorem setPlant_path (s : State) (p : Plant) (h : PlantOk s.plant → PlantOk p) (hl : p.lines = s.plant.lines) :
    Path [.plant] s (setPlant s p) :=
  .one (List.mem_singleton.2 rfl) (.plant s p h hl)

theorem setOrders_path (s : State) (x : Orders) (h : OrdersOk s.orders → OrdersOk x) (hw : x.windows = s.orders.windows)
    (hr : x.rank = s.orders.rank) :
    Path [.orders] s (setOrders s x) :=
  .one (List.mem_singleton.2 rfl) (.orders s x h hw hr)

/-! ### Output lines -/

/-- A pump's start line at its chain position (R84). -/
theorem outputLevel_start (s : State) (n : Nat) (p : Pump) (h1 : 1 ≤ n) (h4 : n ≤ 4) (hp : s.plant.pumps[n - 1]? = some p) :
    outputLevel s (startPosition n) = p.startLine := by
  have h : startPosition n = n - 1 := by simp [startPosition, chainPosition]
  rw [h, outputLevel, if_pos (by omega), hp]
  rfl

/-- A valve's command line at its chain position; a tank valve of an undeclared tank is held released (R84). -/
theorem outputLevel_command (s : State) (v : Nat) (w : Valve) (hw : s.plant.valves[v]? = some w) :
    outputLevel s (commandPosition v) = (!undeclaredValve s v && w.commandedOpen) := by
  have h : commandPosition v = v + 4 := by simp [commandPosition, chainPosition]
  rw [h, outputLevel, if_neg (by omega), Nat.add_sub_cancel, hw]
  rfl

/-! ### Valves -/

theorem ValveOk.users {v : Valve} (h : ValveOk v) (n : Nat) : ValveOk { v with users := n } := h

theorem ValveOk.beginStroke (v : Valve) (isOpen atLimit : Bool) (e : Nat) : ValveOk (beginStroke isOpen atLimit e v) := by
  unfold Machine.beginStroke ValveOk
  cases atLimit <;> cases isOpen <;> simp

theorem ValveOk.open {v : Valve} (h : ValveOk v) (e : Nat) (x : Bool) : ValveOk (openCommand e x v) := by
  unfold openCommand
  split
  · exact ValveOk.beginStroke _ _ _ _
  · exact ValveOk.beginStroke _ _ _ _
  · exact ValveOk.beginStroke _ _ _ _
  · next hs => exact ⟨h.1, fun _ => rfl, fun hc => by simp [hs] at hc⟩
  · next hs => exact ⟨h.1, fun _ => rfl, fun hc => by simp [hs] at hc⟩

theorem ValveOk.close {v : Valve} (h : ValveOk v) (e : Nat) (x : Bool) : ValveOk (closeCommand e x v) := by
  unfold closeCommand
  split
  · exact ValveOk.beginStroke _ _ _ _
  · exact ValveOk.beginStroke _ _ _ _
  · exact ValveOk.beginStroke _ _ _ _
  · next hs => exact ⟨h.1, fun hc => by simp [hs] at hc, fun _ => rfl⟩
  · next hs => exact ⟨h.1, fun hc => by simp [hs] at hc, fun _ => rfl⟩

theorem ValveOk.commanded (v : Valve) : ValveOk { v with state := commandedState v, stroke := none } := by
  unfold ValveOk commandedState
  cases hc : v.commandedOpen <;> simp

theorem ValveOk.fault {v : Valve} (h : v.stroke = none) : ValveOk { v with state := .fault } := by
  unfold ValveOk
  simp [h]

theorem ValveOk.limitChanged {v : Valve} (h : ValveOk v) (l : Limit) (x : Bool) : ValveOk (limitChanged l x v) := by
  unfold Machine.limitChanged
  split
  · split
    · exact ValveOk.commanded v
    · exact h
  · split
    · exact ValveOk.commanded v
    · exact h
  · split
    · exact ValveOk.commanded v
    · exact h
  · next hs =>
    split
    · refine ValveOk.fault ?_
      have := h.1
      simpa [hs] using this
    · exact h
  · next hs =>
    split
    · refine ValveOk.fault ?_
      have := h.1
      simpa [hs] using this
    · exact h

/-- A stroke timer's expiry leaves FAULT or a valve at rest with no timer (R88). -/
theorem ValveOk.strokeExpired {v : Valve} (h : ValveOk v) :
    ValveOk (if v.state = .opening || v.state = .closing then { v with state := .fault, stroke := none } else { v with stroke := none }) := by
  split
  · unfold ValveOk
    simp
  · next hs =>
    refine ⟨?_, h.2⟩
    simp only [Bool.or_eq_true, decide_eq_true_eq] at hs
    simp [hs]

/-! ### The plant as a whole -/

theorem PlantOk.modValve {p : Plant} (h : PlantOk p) (n : Nat) {f : Valve → Valve} (hf : ∀ v, ValveOk v → ValveOk (f v)) :
    PlantOk (modValve p n f) :=
  ⟨h.1, h.2.1, by simpa [Machine.modValve] using h.2.2.1, h.2.2.2.1,
    forall_modAt h.2.2.2.2.1 fun v _ hv => hf v hv, h.2.2.2.2.2⟩

theorem PlantOk.modPump {p : Plant} (h : PlantOk p) (n : Nat) {f : Pump → Pump}
    (hf : ∀ x, p.pumps[n - 1]? = some x → PumpOk x → PumpOk (f x)) : PlantOk (modPump p n f) := by
  unfold Machine.modPump
  split
  · exact h
  · exact ⟨h.1, by simpa using h.2.1, h.2.2.1, forall_modAt h.2.2.2.1 hf, h.2.2.2.2⟩

theorem PlantOk.attempts {p : Plant} (h : PlantOk p) (as : List Attempt) : PlantOk { p with attempts := as } := h

theorem PlantOk.modAttempt {p : Plant} (h : PlantOk p) (id : Nat) (f : Attempt → Attempt) : PlantOk (modAttempt p id f) := h

theorem PlantOk.main {p : Plant} (h : PlantOk p) (m : Main) : MainOk (mainRec p m) := by
  cases m
  · exact h.2.2.2.2.2.1
  · exact h.2.2.2.2.2.2

theorem PlantOk.setMain {p : Plant} (h : PlantOk p) (m : Main) {r : MainRec} (hr : MainOk r) : PlantOk (setMain p m r) := by
  cases m
  · exact ⟨h.1, h.2.1, h.2.2.1, h.2.2.2.1, h.2.2.2.2.1, hr, h.2.2.2.2.2.2⟩
  · exact ⟨h.1, h.2.1, h.2.2.1, h.2.2.2.1, h.2.2.2.2.1, h.2.2.2.2.2.1, hr⟩

theorem actionMode_ne_idle (a : Action) : actionMode a ≠ .idle := by cases a <;> decide

/-- A main that takes an order keeps its law (R91, R93). -/
theorem PlantOk.joinMain {p : Plant} (h : PlantOk p) {g : Group} {m : Main} {a : Action} (ht : mainTakes p g m a = true) (id : Nat) :
    PlantOk (joinMain p m a id) := by
  refine h.setMain m ⟨⟨fun e => absurd e (actionMode_ne_idle a), fun e => by simp at e⟩, ?_⟩
  have hm := h.main m
  unfold mainTakes at ht
  simp only [Bool.or_eq_true, decide_eq_true_eq, Bool.and_eq_true] at ht
  simp only [List.length_append, List.length_singleton]
  rcases ht with ht | ht
  · rw [hm.1.1 ht]
    decide
  · have hl : mainLimit p g a ≤ 2 := by
      unfold mainLimit
      split <;> decide
    exact lt_of_lt_of_le ht.2 hl

theorem PlantOk.leaveMain {p : Plant} (h : PlantOk p) (m : Main) (id : Nat) : PlantOk (leaveMain p m id) := by
  have hm := h.main m
  refine h.setMain m ⟨?_, (List.length_filter_le _ _).trans hm.2⟩
  dsimp only
  generalize hr : ((mainRec p m).orders.filter fun x => x != id) = rest
  cases rest with
  | nil => simp
  | cons x xs =>
    simp only [List.isEmpty_cons, Bool.false_eq_true, if_false, reduceCtorEq, iff_false]
    intro e
    rw [hm.1.1 e] at hr
    simp at hr

theorem PlantOk.joinValve {p : Plant} (h : PlantOk p) (e n : Nat) : PlantOk (joinValve e p n) :=
  h.modValve n fun v hv => by
    dsimp only
    split
    · exact (hv.users _).open _ _
    · exact (hv.users _).open _ _
    · exact (hv.users _).open _ _
    · exact hv.users _
    · exact hv.users _

theorem PlantOk.releaseValve {p : Plant} (h : PlantOk p) (e n : Nat) : PlantOk (releaseValve e p n) :=
  h.modValve n fun v hv => by
    dsimp only
    split
    · split
      · exact (hv.users _).close _ _
      · exact (hv.users _).close _ _
      · exact (hv.users _).close _ _
      · exact hv.users _
      · exact hv.users _
    · exact hv.users _

/-- A property of the plant that each change of a list keeps. -/
theorem foldl_plant {α : Type} {P : Plant → Prop} {f : Plant → α → Plant} (h : ∀ p x, P p → P (f p x)) (xs : List α) {p : Plant} (hp : P p) :
    P (xs.foldl f p) := by
  induction xs generalizing p with
  | nil => exact hp
  | cons x xs ih => exact ih (h p x hp)

@[simp] theorem modValve_lines (p : Plant) (n : Nat) (f : Valve → Valve) : (modValve p n f).lines = p.lines := rfl
@[simp] theorem modAttempt_lines (p : Plant) (id : Nat) (f : Attempt → Attempt) : (modAttempt p id f).lines = p.lines := rfl
@[simp] theorem modPump_lines (p : Plant) (n : Nat) (f : Pump → Pump) : (modPump p n f).lines = p.lines := by
  unfold modPump
  split <;> rfl
@[simp] theorem setMain_lines (p : Plant) (m : Main) (r : MainRec) : (setMain p m r).lines = p.lines := by cases m <;> rfl
@[simp] theorem joinMain_lines (p : Plant) (m : Main) (a : Action) (id : Nat) : (joinMain p m a id).lines = p.lines := setMain_lines _ _ _
@[simp] theorem leaveMain_lines (p : Plant) (m : Main) (id : Nat) : (leaveMain p m id).lines = p.lines := setMain_lines _ _ _
@[simp] theorem joinValve_lines (e : Nat) (p : Plant) (n : Nat) : (joinValve e p n).lines = p.lines := rfl
@[simp] theorem releaseValve_lines (e : Nat) (p : Plant) (n : Nat) : (releaseValve e p n).lines = p.lines := rfl

theorem foldl_lines {α : Type} {f : Plant → α → Plant} (h : ∀ p x, (f p x).lines = p.lines) (xs : List α) (p : Plant) :
    (xs.foldl f p).lines = p.lines :=
  foldl_plant (P := fun q => q.lines = p.lines) (fun q x hq => (h q x).trans hq) xs rfl

theorem modPumpS_path (s : State) (n : Nat) {f : Pump → Pump}
    (hf : ∀ x, s.plant.pumps[n - 1]? = some x → PumpOk x → PumpOk (f x)) : Path [.plant] s (modPumpS s n f) :=
  setPlant_path s _ (fun h => h.modPump n hf) (modPump_lines _ _ _)

theorem pumpNotice_path (s : State) : Path [.orders] s (pumpNotice s) := setOrders_path s _ (fun h => h) rfl rfl

theorem crossoverChanged_path (s : State) : Path [.orders, .plant] s (crossoverChanged s) := by
  have h : ∀ m t, Path [.orders, .plant] s (setPlant s { s.plant with crossMode := m, crossTarget := t }) :=
    fun m t => Path.mono (bs := [.plant]) (setPlant_path s _ (by intro h; exact h) rfl) (by decide)
  unfold crossoverChanged
  split
  · exact (h _ s.plant.crossTarget).trans ((pumpNotice_path _).mono (by decide))
  · exact (h _ s.plant.crossTarget).trans ((pumpNotice_path _).mono (by decide))
  · exact (h _ s.plant.crossTarget).trans ((pumpNotice_path _).mono (by decide))
  · exact (h _ s.plant.crossTarget).trans ((pumpNotice_path _).mono (by decide))
  · exact h _ s.plant.crossTarget
  · exact h _ _
  · exact h _ _
  · exact .refl s

theorem commandXv_path (s : State) (t : CrossTarget) : Path [.orders, .plant] s (commandXv s t) := by
  unfold commandXv
  refine Path.trans ?_ (crossoverChanged_path _)
  cases t
  · exact (setPlant_path s _ (fun h => h.modValve _ fun v hv => hv.close _ _) rfl).mono (by decide)
  · exact (setPlant_path s _ (fun h => h.modValve _ fun v hv => hv.open _ _) rfl).mono (by decide)

end Sys2Proof.Machine
end

