-- ==== Sys2Proof/Laws/Orders.lean ====
section
/-! SUPPORT. What the operations of Machine/OrderEngine.lean do: paths over the order engine, the plant, the pour gate, the engine and the attention unit. -/

namespace Sys2Proof.Machine

/-! ### Orders -/

/-- A change of an order's record that keeps its number ranges and its id. -/
def KeepsOrder (f : Order → Order) : Prop := ∀ o, (OrderOk o → OrderOk (f o)) ∧ (f o).id = o.id

theorem OrdersOk.mapSlots {x : Orders} (h : OrdersOk x) {f : Order → Order} (hf : KeepsOrder f) :
    OrdersOk { x with slots := x.slots.map fun o => o.map f } := by
  refine ⟨by simpa using h.1, h.2.1, ?_, ?_⟩
  · have : ((x.slots.map fun o => o.map f).filterMap fun o => o.map Order.id) = x.slots.filterMap fun o => o.map Order.id := by
      rw [List.filterMap_map]
      refine List.filterMap_congr fun o _ => ?_
      cases o with
      | none => rfl
      | some o => simp [(hf o).2]
    rw [this]
    exact h.2.2.1
  · intro o ho
    obtain ⟨y, hy, he⟩ := List.mem_map.1 ho
    cases y with
    | none => cases he
    | some y =>
      cases he
      exact (hf y).1 (h.2.2.2 y hy)

theorem modOrder_path (s : State) (id : Nat) {f : Order → Order} (hf : KeepsOrder f) : Path [.orders] s (modOrder s id f) :=
  setOrders_path s _ (fun h => h.mapSlots (f := fun o => if o.id = id then f o else o) fun o => by
    by_cases he : o.id = id
    · simpa [he] using hf o
    · simp [he]) rfl rfl

theorem moveOrder_path (s : State) (id : Nat) {f : Order → Order} (hf : KeepsOrder f) : Path [.orders, .pour, .engine] s (moveOrder s id f) :=
  (modOrder_path s id hf).andThen (recheck_path _)

theorem callArbiter_path (s : State) : Path [.orders] s (callArbiter s) := setOrders_path s _ (fun h => h) rfl rfl

theorem queueOrder_path (s : State) (id : Nat) {f : Order → Order} (hf : KeepsOrder f) : Path [.orders, .pour, .engine] s (queueOrder s id f) := by
  unfold queueOrder
  refine Path.trans ?_ ((callArbiter_path _).mono (by decide))
  exact moveOrder_path s id fun o => hf o

theorem failOrder_path (s : State) (id : Nat) {f : Order → Order} (hf : KeepsOrder f) :
    Path [.orders, .pour, .engine, .attention] s (failOrder s id f) := by
  unfold failOrder
  refine Path.trans ?_ ((raise_path _ (by decide) _).mono (by decide))
  exact (moveOrder_path s id (by intro o; exact hf o)).mono (by decide)

theorem keeps_unpumped : KeepsOrder unpumped := fun _ => ⟨fun h => h, rfl⟩
theorem keeps_counted : KeepsOrder countedAttempt := fun _ => ⟨fun h => h, rfl⟩

/-- The released report at the order engine (R126, R128). -/
theorem orderReleased_path (s : State) (id : Nat) (w : List Nat) : Path [.orders, .pour, .engine, .attention] s (orderReleased s id w) := by
  unfold orderReleased
  split
  · exact .refl s
  · next o _ =>
    have hm : ∀ {f : Order → Order}, KeepsOrder f → Path [.orders, .pour, .engine, .attention] s (moveOrder s id f) :=
      fun hf => (moveOrder_path s id hf).mono (by decide)
    have hq : ∀ {f : Order → Order}, KeepsOrder f → Path [.orders, .pour, .engine, .attention] s (queueOrder s id f) :=
      fun hf => (queueOrder_path s id hf).mono (by decide)
    have done : Path [.orders, .pour, .engine, .attention] s
        (raise (moveOrder s id fun o => { unpumped o with state := .done, ended := some (now s) }) orderDone (some id)) := by
      refine Path.trans ?_ ((raise_path _ (by decide) _).mono (by decide))
      exact hm fun _ => ⟨fun h => h, rfl⟩
    have failed : ∀ {f : Order → Order}, KeepsOrder f → Path [.orders, .pour, .engine, .attention] s (failOrder s id f) :=
      fun hf => failOrder_path s id hf
    have counted : Path [.orders, .pour, .engine, .attention] s
        (if o.attempts + 1 ≤ o.retries then queueOrder s id countedAttempt else failOrder s id countedAttempt) :=
      Path.ite (hq keeps_counted) (failed keeps_counted)
    split
    · exact .refl s
    · split
      · exact done
      · exact done
      · exact hm fun _ => ⟨fun h => h, rfl⟩
      · split
        · split
          · exact hm fun _ => ⟨fun h => h, rfl⟩
          · exact hq keeps_unpumped
        · exact hm fun _ => ⟨fun h => h, rfl⟩
      · have hs : Path [.orders, .pour, .engine, .attention] s (moveOrder s id fun o => { unpumped o with state := .suspended }) :=
          hm fun _ => ⟨fun h => h, rfl⟩
        dsimp only
        exact Path.ite hs (hs.trans ((callArbiter_path _).mono (by decide)))
      · exact failed keeps_unpumped
      · exact counted
      · exact counted
      · exact counted
      · exact counted
      · exact .refl s
      · exact .refl s

/-! ### Attempts -/

theorem noticeIfAvailable_path (s : State) (n : Nat) : Path [.orders] s (noticeIfAvailable s n) :=
  Path.ite (pumpNotice_path s) (.refl s)

/-- The plant of a released attempt (R99). -/
theorem releaseAttempt_path (s : State) (a : Attempt) : Path ballastBlocks s (releaseAttempt s a) := by
  unfold releaseAttempt
  refine Path.trans ?_ (foldl_path (fun t n => (noticeIfAvailable_path t n).mono (by decide)) _ _)
  refine Path.trans ?_ ((orderReleased_path _ _ _).mono (by decide))
  refine Path.mono (setPlant_path s _ (fun h => ?_) ?_) (by decide)
  · refine PlantOk.attempts (PlantOk.leaveMain ?_ _ _) _
    refine foldl_plant (fun p n hp => hp.releaseValve _ n) _ ?_
    exact foldl_plant (fun p n hp => hp.modPump n fun x _ hx => hx) _ h
  · simp only [leaveMain_lines]
    rw [foldl_lines fun p n => releaseValve_lines _ p n, foldl_lines fun p n => modPump_lines p n _]

theorem checkRelease_path (s : State) (id : Nat) : Path ballastBlocks s (checkRelease s id) := by
  unfold checkRelease
  split
  · exact Path.ite (releaseAttempt_path _ _) (.refl s)
  · exact .refl s

theorem withdrawPump_path (s : State) (n : Nat) : Path [.plant, .attention] s (withdrawPump s n) := by
  unfold withdrawPump
  refine Path.trans ?_ ((raise_path _ (by decide) _).mono (by decide))
  refine Path.mono (setPlant_path s _ (fun h => ?_) ?_) (by decide)
  · exact PlantOk.attempts (h.modPump n fun x _ _ => by simp [PumpOk]) _
  · simp

theorem stopPump_path (s : State) (n : Nat) : Path [.plant, .attention] s (stopPump s n) :=
  Path.ite (withdrawPump_path s n) ((modPumpS_path s n fun x _ _ => by simp [PumpOk]).mono (by decide))

theorem takeDownPump_path (s : State) (n : Nat) : Path [.plant, .attention] s (takeDownPump s n) := by
  have h : Path [.plant, .attention] s (if runningOn s.plant n then
      modPumpS s n fun x => { x with state := .stopping, startLine := false, stopTimer := some (expiryAfter s s.settings.ps) }
    else stopPump s n) :=
    Path.ite ((modPumpS_path s n fun x _ _ => by simp [PumpOk]).mono (by decide)) (stopPump_path s n)
  unfold takeDownPump
  split
  · exact h
  · exact h
  · exact .refl s

theorem setAttempts_path (s : State) (id : Nat) (f : Attempt → Attempt) : Path [.plant] s (setPlant s (modAttempt s.plant id f)) :=
  setPlant_path s _ (fun h => h.modAttempt id f) rfl

theorem takeDown_path (s : State) (a : Attempt) : Path ballastBlocks s (takeDown s a) := by
  unfold takeDown
  refine Path.trans ?_ (checkRelease_path _ _)
  refine Path.trans ?_ (foldl_path (fun t n => (takeDownPump_path t n).mono (by decide)) _ _)
  exact (setAttempts_path s _ _).mono (by decide)

theorem orderFailedReport_path (s : State) (id : Nat) (c : FailCause) : Path [.orders, .pour, .engine] s (orderFailedReport s id c) := by
  unfold orderFailedReport
  split
  · exact Path.ite (moveOrder_path s id fun _ => ⟨fun h => h, rfl⟩) (.refl s)
  · exact .refl s

/-- What a failure of an attempt changes (R96, R97). -/
theorem failAttempt_path (s : State) (id : Nat) (c : FailCause) : Path ballastBlocks s (failAttempt s id c) := by
  unfold failAttempt
  split
  · exact .refl s
  · next a _ =>
    split
    · exact .refl s
    · have h : Path ballastBlocks s (orderFailedReport (setPlant s (modAttempt s.plant id fun x => { x with cause := some c })) id c) := by
        refine Path.trans ?_ ((orderFailedReport_path _ _ _).mono (by decide))
        exact (setAttempts_path s _ _).mono (by decide)
      exact Path.ite (h.trans (releaseAttempt_path _ _)) (h.trans (takeDown_path _ _))

theorem stopRequest_path (s : State) (id : Nat) : Path ballastBlocks s (stopRequest s id) := by
  unfold stopRequest
  split
  · exact .refl s
  · split
    · exact releaseAttempt_path _ _
    · exact takeDown_path _ _
    · exact takeDown_path _ _
    · exact .refl s

/-- What a stop of a running order changes (R125). -/
theorem stopOrder_path (s : State) (id : Nat) (r : Reason) : Path ballastBlocks s (stopOrder s id r) := by
  unfold stopOrder
  split
  · split
    · refine Path.trans ?_ (stopRequest_path _ _)
      exact Path.mono (moveOrder_path s id (by intro _; exact ⟨fun h => h, rfl⟩)) (by decide)
    · exact .refl s
  · exact .refl s

theorem completionTest_path (s : State) (id : Nat) : Path ballastBlocks s (completionTest s id) := by
  unfold completionTest
  split
  · split
    · split
      · exact stopOrder_path _ _ _
      · exact .refl s
    · exact .refl s
  · exact .refl s

theorem orderStarted_path (s : State) (id : Nat) : Path ballastBlocks s (orderStarted s id) := by
  unfold orderStarted
  split
  · split
    · refine Path.trans ?_ (completionTest_path _ _)
      exact Path.mono (moveOrder_path s id (by intro _; exact ⟨fun h => h, rfl⟩)) (by decide)
    · exact .refl s
  · exact .refl s

theorem orderPriming_path (s : State) (id : Nat) : Path [.orders, .pour, .engine] s (orderPriming s id) := by
  unfold orderPriming
  split
  · exact Path.ite (moveOrder_path s id fun _ => ⟨fun h => h, rfl⟩) (.refl s)
  · exact .refl s

/-- A pump in a state has a record in it. -/
theorem pumpState_rec {s : State} {n : Nat} {st : PumpState} (h : pumpState s n = st) (hn : st ≠ .stopped) :
    ∃ x, n ≠ 0 ∧ s.plant.pumps[n - 1]? = some x ∧ x.state = st := by
  unfold pumpState pumpRec at h
  split at h
  · exact absurd h.symm hn
  · next h0 =>
    cases hx : s.plant.pumps[n - 1]? with
    | none =>
      rw [hx] at h
      exact absurd h.symm hn
    | some x =>
      rw [hx] at h
      exact ⟨x, h0, rfl, h⟩

/-- What the test of a PRIMING pump changes (R94). -/
theorem checkProven_path (s : State) (n : Nat) : Path ballastBlocks s (checkProven s n) := by
  unfold checkProven
  split
  · next h =>
    simp only [Bool.and_eq_true, decide_eq_true_eq] at h
    obtain ⟨x, _, hx, hs⟩ := pumpState_rec h.1.1 (by decide)
    have hp : Path ballastBlocks s (modPumpS s n fun x => { x with state := .running, failures := 0 }) := by
      refine Path.mono (modPumpS_path s n fun y hy hk => ?_) (by decide)
      rw [hx] at hy
      cases hy
      unfold PumpOk at hk ⊢
      rw [hk, hs]
      rfl
    dsimp only
    split
    · split
      · refine hp.trans (Path.trans ?_ (orderStarted_path _ _))
        exact (setAttempts_path _ _ _).mono (by decide)
      · exact hp
    · exact hp
  · exact .refl s

/-- What an attempt's passage to PRIMING changes (R94). -/
theorem prime_path (s : State) (a : Attempt) : Path ballastBlocks s (prime s a) := by
  unfold prime
  refine Path.trans ?_ (foldl_path (fun t n => checkProven_path t n) _ _)
  refine Path.trans ?_ ((orderPriming_path _ _).mono (by decide))
  refine Path.mono (setPlant_path s _ (fun h => ?_) ?_) (by decide)
  · exact PlantOk.modAttempt (foldl_plant (fun p n hp => hp.modPump n fun x _ _ => by simp [PumpOk]) _ h) _ _
  · simp only [modAttempt_lines]
    rw [foldl_lines fun p n => modPump_lines p n _]

theorem checkLinedUp_path (s : State) (id : Nat) : Path ballastBlocks s (checkLinedUp s id) := by
  unfold checkLinedUp
  split
  · exact Path.ite (prime_path _ _) (.refl s)
  · exact .refl s

theorem valveChanged_path (s : State) (v : Nat) : Path ballastBlocks s (valveChanged s v) := by
  unfold valveChanged
  split
  · exact (crossoverChanged_path s).mono (by decide)
  · dsimp only
    split
    · exact foldl_path (fun t id => failAttempt_path t id _) _ _
    · exact foldl_path (fun t id => checkLinedUp_path t id) _ _
    · exact .refl s

theorem changeValve_path (s : State) (v : Nat) {f : Valve → Valve} (hf : ∀ x, ValveOk x → ValveOk (f x)) :
    Path ballastBlocks s (changeValve s v f) := by
  have h : Path ballastBlocks s (setPlant s (modValve s.plant v f)) :=
    (setPlant_path s _ (fun h => h.modValve v hf) rfl).mono (by decide)
  unfold changeValve
  exact Path.ite h (h.trans (valveChanged_path _ _))

/-! ### The arbiter -/

theorem startPlant_lines (s : State) (o : Order) (pumps : List Nat) : (startPlant s o pumps).lines = s.plant.lines := by
  unfold startPlant
  dsimp only
  rw [foldl_lines fun p n => joinValve_lines _ p n, joinMain_lines, foldl_lines fun p n => modPump_lines p n _]

/-- Holders set on pumps leave the mains as they were. -/
theorem foldl_holder_mains (pumps : List Nat) (f : Pump → Pump) (p : Plant) :
    (pumps.foldl (fun p n => modPump p n f) p).portMain = p.portMain ∧ (pumps.foldl (fun p n => modPump p n f) p).stbdMain = p.stbdMain
      ∧ (pumps.foldl (fun p n => modPump p n f) p).gangedA = p.gangedA ∧ (pumps.foldl (fun p n => modPump p n f) p).gangedB = p.gangedB :=
  foldl_plant (P := fun q => q.portMain = p.portMain ∧ q.stbdMain = p.stbdMain ∧ q.gangedA = p.gangedA ∧ q.gangedB = p.gangedB)
    (fun q n hq => by
      unfold modPump
      split <;> exact hq) pumps ⟨rfl, rfl, rfl, rfl⟩

theorem mainTakes_congr {p q : Plant} (h1 : q.portMain = p.portMain) (h2 : q.stbdMain = p.stbdMain) (h3 : q.gangedA = p.gangedA)
    (h4 : q.gangedB = p.gangedB) (g : Group) (m : Main) (a : Action) : mainTakes q g m a = mainTakes p g m a := by
  have hm : mainRec q m = mainRec p m := by cases m <;> assumption
  have hg : ganged q g = ganged p g := by cases g <;> assumption
  unfold mainTakes mainLimit
  rw [hm, hg]

/-- What a start request changes (R93). -/
theorem startRequest_path (s : State) (o : Order) (pumps : List Nat) : Path ballastBlocks s (startRequest s o pumps) := by
  unfold startRequest
  split
  · next ht =>
    refine Path.trans ?_ (checkLinedUp_path _ _)
    refine Path.trans ?_ (Path.mono (moveOrder_path _ _ (by intro _; exact ⟨fun h => h, rfl⟩)) (by decide))
    refine Path.mono (setPlant_path s _ (fun h => ?_) (startPlant_lines s o pumps)) (by decide)
    unfold startTaken at ht
    split at ht
    · cases ht
    · next g _ =>
      simp only [Bool.and_eq_true] at ht
      have hm := ht.1.2
      unfold startPlant
      refine foldl_plant (fun p n hp => hp.joinValve _ n) _ ?_
      obtain ⟨h1, h2, h3, h4⟩ := foldl_holder_mains pumps (fun x => { x with holder := some o.id })
        { s.plant with attempts := s.plant.attempts ++ [{ order := o.id, action := o.action, main := mainOf s o.tank, pumps := pumps, valves := lineup o.action (mainOf s o.tank) o.tank o.dest, phase := .liningUp, cause := none, prove := none, withdrawn := [] }] }
      refine PlantOk.joinMain (g := g) ?_ ?_ _
      · exact foldl_plant (fun p n hp => hp.modPump n fun x _ hx => hx) _ (h.attempts _)
      · rw [mainTakes_congr h1 h2 h3 h4]
        exact hm
  · exact .refl s

/-- One order of a run (R117). -/
theorem considerOrder_path (acc : State × List Order) (o : Order) : Path ballastBlocks acc.1 (considerOrder acc o).1 := by
  unfold considerOrder
  split
  · exact .refl _
  · split <;> exact .refl _
  · exact startRequest_path _ _ _

theorem preemptFor_path (acc : State × List Nat) (o : Order) : Path ballastBlocks acc.1 (preemptFor acc o).1 := by
  unfold preemptFor
  split
  · exact stopOrder_path _ _ _
  · exact .refl _

theorem foldl_fst_path {α β : Type} {bs : List Block} {f : State × β → α → State × β} (h : ∀ acc x, Path bs acc.1 (f acc x).1) (xs : List α)
    (acc : State × β) : Path bs acc.1 (xs.foldl f acc).1 := by
  induction xs generalizing acc with
  | nil => exact .refl _
  | cons x xs ih => exact (h acc x).trans (ih _)

theorem returnPreempted_path (s : State) (id : Nat) : Path [.orders, .pour, .engine] s (returnPreempted s id) := by
  unfold returnPreempted
  split
  · split
    · split
      · exact Path.mono (modOrder_path s id (by intro _; exact ⟨fun h => h, rfl⟩)) (by decide)
      · exact queueOrder_path s id (by intro _; exact ⟨fun h => h, rfl⟩)
    · exact .refl s
  · exact .refl s

/-- What a run of the arbiter changes (R116 to R119). -/
theorem arbiterRun_path (s : State) : Path ballastBlocks s (arbiterRun s) := by
  unfold arbiterRun
  refine Path.trans ?_ (foldl_path (fun t id => (returnPreempted_path t id).mono (by decide)) _ _)
  exact Path.trans (t := (List.foldl considerOrder (s, []) _).1) (foldl_fst_path considerOrder_path _ (s, [])) (foldl_fst_path preemptFor_path _ (_, []))

theorem settleRuns_path (n : Nat) (s : State) : Path ballastBlocks s (settleRuns n s) := by
  induction n generalizing s with
  | zero => exact Path.mono (setOrders_path s _ (by intro h; exact h) rfl rfl) (by decide)
  | succ n ih =>
    unfold settleRuns
    split
    · refine Path.trans ?_ (ih _)
      refine Path.trans ?_ (arbiterRun_path _)
      exact Path.mono (setOrders_path s _ (by intro h; exact h) rfl rfl) (by decide)
    · exact .refl s

/-- What the end of an event at the order engine changes (R116). -/
theorem settleArbiter_path (s : State) : Path ballastBlocks s (settleArbiter s) := settleRuns_path 64 s

/-- Without a run owed the end of an event changes nothing (R116). -/
theorem settleArbiter_none (s : State) (h : s.orders.runOwed = false) : settleArbiter s = s := by
  unfold settleArbiter settleRuns
  simp [h]

theorem settleRuns_done (n : Nat) (s : State) : (settleRuns n s).orders.runOwed = false := by
  induction n generalizing s with
  | zero => rfl
  | succ n ih =>
    unfold settleRuns
    split
    · exact ih _
    · next h => simpa using h

/-- The end of an event leaves no run owed (R116). -/
theorem settleArbiter_done (s : State) : (settleArbiter s).orders.runOwed = false := settleRuns_done 64 s

/-- Runs are made one after the other until none is owed (R116). -/
theorem settleRuns_runs (runs : Nat → State) : ∀ n k, k ≤ n →
    (∀ j, j < k → (runs j).orders.runOwed = true ∧ runs (j + 1) = arbiterRun (setOrders (runs j) { (runs j).orders with runOwed := false })) →
    (runs k).orders.runOwed = false → settleRuns n (runs 0) = runs k := by
  intro n
  induction n generalizing runs with
  | zero =>
    intro k hk _ h
    obtain rfl : k = 0 := Nat.le_zero.1 hk
    show setOrders (runs 0) { (runs 0).orders with runOwed := false } = runs 0
    have : ({ (runs 0).orders with runOwed := false } : Orders) = (runs 0).orders := by rw [← h]
    rw [this]; rfl
  | succ n ih =>
    intro k hk hj h
    unfold settleRuns
    cases k with
    | zero => simp [h]
    | succ k =>
      rw [if_pos (hj 0 (Nat.succ_pos k)).1, ← (hj 0 (Nat.succ_pos k)).2]
      exact ih (fun j => runs (j + 1)) k (Nat.le_of_succ_le_succ hk) (fun j hjk => hj (j + 1) (Nat.succ_lt_succ hjk)) h

end Sys2Proof.Machine
end

