-- ==== Sys2Proof/Laws/Notices.lean ====
section
/-! SUPPORT. What the operations of Machine/Inventory.lean and Machine/Notices.lean do: the law of a tank record, and paths. -/

namespace Sys2Proof.Machine

/-! ### Tank records -/

theorem ringWith_length {ring : List Nat} (level : Nat) (h : ring.length ≤ 4) : (ringWith ring level).length ≤ 4 := by
  unfold ringWith
  split
  · simp only [List.length_append, List.length_drop, List.length_singleton]
    omega
  · simp only [List.length_append, List.length_singleton]
    omega

theorem ringWith_ne_nil (ring : List Nat) (level : Nat) : ringWith ring level ≠ [] := by
  unfold ringWith
  simp

theorem gaugeInUse_iff (g : GaugeState) : gaugeInUse g = true ↔ g = .normal ∨ g = .suspect := by
  cases g <;> decide

theorem gaugeInUse_scoreState (n : Nat) : gaugeInUse (scoreState n) = true := by
  unfold scoreState
  split <;> rfl

theorem TankOk.channel_some {t : Tank} (h : TankOk t) (hg : gaugeInUse t.gauge = true) : t.channel ≠ none := by
  intro hc
  rw [h.2.2.2.1.1 hc] at hg
  cases hg

/-- A tank whose score sets its state (R40). -/
theorem TankOk.scored {t : Tank} (h : TankOk t) (hg : gaugeInUse t.gauge = true) {n : Nat} (hn : n ≤ 255) :
    TankOk { t with score := n, gauge := scoreState n } := by
  refine ⟨h.1, hn, h.2.2.1, ?_, ?_, ?_, ?_, h.2.2.2.2.2.2.2.1, fun _ => gaugeInUse_scoreState n, ?_⟩
  · have := h.channel_some hg
    constructor
    · intro e
      exact absurd e this
    · intro e
      have hs := gaugeInUse_scoreState n
      rw [show scoreState n = .unmapped from e] at hs
      cases hs
  · intro e
    have e' : scoreState n = .normal := e
    unfold scoreState at e'
    split at e'
    · cases e'
    · next hl => exact Nat.lt_of_not_le hl
  · intro e
    have e' : scoreState n = .suspect := e
    unfold scoreState at e'
    split at e'
    · next hl => exact hl
    · cases e'
  · intro e
    have hs := gaugeInUse_scoreState n
    rw [show scoreState n = .withdrawn from e] at hs
    cases hs
  · intro e
    exact absurd (h.2.2.2.2.2.2.2.2.2 e) (by simp [hg])

theorem TankOk.enterRing {t : Tank} (h : TankOk t) (hg : gaugeInUse t.gauge = true) (d : TankData) (level uptime : Nat) :
    TankOk (enterRing d level uptime t) := by
  refine ⟨ringWith_length level h.1, h.2.1, h.2.2.1, h.2.2.2.1, h.2.2.2.2.1, h.2.2.2.2.2.1, h.2.2.2.2.2.2.1, ?_, fun _ => hg, ?_⟩
  · exact ⟨fun _ => ringWith_ne_nil _ _, fun _ => rfl⟩
  · intro e
    cases e

theorem TankOk.goodReading {t : Tank} (h : TankOk t) (hg : gaugeInUse t.gauge = true) (d : TankData) (level uptime : Nat) :
    TankOk (goodReading d level uptime t) :=
  (h.enterRing hg d level uptime).scored hg (Nat.le_trans (Nat.sub_le _ _) h.2.1)

theorem TankOk.withdrawn {t : Tank} (hc : t.channel ≠ none) : TankOk (withdrawGauge t) := by
  refine ⟨by simp [withdrawGauge], by simp [withdrawGauge], by simp [withdrawGauge], ?_, ?_, ?_, fun _ => rfl, ?_, ?_, ?_⟩
  · constructor
    · intro e; exact absurd e hc
    · intro e; cases e
  · intro e; cases e
  · intro e; cases e
  · exact ⟨fun e => (by cases e), fun e => absurd rfl e⟩
  · intro e; exact absurd rfl e
  · intro e; cases e

theorem TankOk.badReading {t : Tank} (h : TankOk t) (hg : gaugeInUse t.gauge = true) : TankOk (badReading t) := by
  unfold Machine.badReading
  split
  · exact TankOk.withdrawn (h.channel_some hg)
  · next hw =>
    refine h.scored hg ?_
    unfold withdraws at hw
    simp only [decide_eq_true_eq] at hw
    omega

theorem TankOk.goodWhileWithdrawn {t : Tank} (h : TankOk t) (hg : t.gauge = .withdrawn) (d : TankData) (level uptime : Nat) :
    TankOk (goodWhileWithdrawn d level uptime t) := by
  have hc : t.channel ≠ none := fun e => by
    have := h.2.2.2.1.1 e
    rw [hg] at this
    cases this
  have hr : t.ring = [] := by
    by_contra hne
    have := h.2.2.2.2.2.2.2.2.1 hne
    rw [hg] at this
    cases this
  unfold Machine.goodWhileWithdrawn
  split
  · refine ⟨ringWith_length level (by simp), by simp [Machine.enterRing, withMass], by simp [Machine.enterRing, withMass], ?_, ?_, ?_, ?_, ?_, ?_, ?_⟩
    · exact ⟨fun e => absurd e hc, fun e => (by cases e)⟩
    · intro _; simp [Machine.enterRing, withMass]
    · intro e; cases e
    · intro e; cases e
    · exact ⟨fun _ => ringWith_ne_nil _ _, fun _ => rfl⟩
    · intro _; rfl
    · intro e; cases e
  · next hw =>
    refine ⟨h.1, h.2.1, ?_, h.2.2.2.1, h.2.2.2.2.1, h.2.2.2.2.2.1, h.2.2.2.2.2.2.1, h.2.2.2.2.2.2.2⟩
    unfold reinstates at hw
    simp only [decide_eq_true_eq] at hw
    show t.reinstatement + 1 < 128
    omega

theorem TankOk.emptyRing {t : Tank} (h : TankOk t) : TankOk (emptyRing t) := by
  unfold Machine.emptyRing
  refine ⟨by simp, h.2.1, h.2.2.1, h.2.2.2.1, h.2.2.2.2.1, h.2.2.2.2.2.1, h.2.2.2.2.2.2.1, ?_, fun e => absurd rfl e, ?_⟩
  · cases hg : gaugeInUse t.gauge with
    | true => simp
    | false =>
      have hr : t.ring = [] := by
        by_contra hne
        have := h.2.2.2.2.2.2.2.2.1 hne
        rw [hg] at this
        cases this
      have := h.2.2.2.2.2.2.2.1
      simpa [hg, hr] using this
  · cases hg : gaugeInUse t.gauge with
    | true => simp
    | false => simp

/-- A map-changing TMAP keeps the law (R34). -/
theorem TankOk.remap {t : Tank} (h : TankOk t) (c : Option Nat) : TankOk (remap c t) := by
  have hs := h.2.2.2.2.2.2.2.1
  have hr : gaugeInUse t.gauge = false → t.ring = [] := fun hg => by
    by_contra hne
    have := h.2.2.2.2.2.2.2.2.1 hne
    rw [hg] at this
    cases this
  have hsc := h.2.1
  have h4 := h.2.2.2.1
  have h5 := h.2.2.2.2.1
  have h6 := h.2.2.2.2.2.1
  have h7 := h.2.2.2.2.2.2.1
  cases hg : t.gauge <;> cases c <;>
    simp_all [Machine.remap, TankOk, gaugeInUse]

/-! ### Notices at the order engine -/

theorem modTank_path (s : State) (t : Nat) {f : Tank → Tank} (hf : ∀ r, s.tanks[t]? = some r → TankOk r → TankOk (f r)) :
    Path [.tanks] s (modTank s t f) :=
  .one (List.mem_singleton.2 rfl) (.tanks s _ (fun h => forall_modAt h hf) (modAt_length _ _ _))

theorem gaugeChangeFor_path (s : State) (id : Nat) : Path [.orders] s (gaugeChangeFor s id) := by
  unfold gaugeChangeFor
  split
  · exact Path.ite (modOrder_path s id (by intro _; exact ⟨fun h => h, rfl⟩)) (.refl s)
  · exact .refl s

theorem gaugeChange_path (s : State) (t : Nat) : Path [.orders] s (gaugeChange s t) := foldl_path gaugeChangeFor_path _ _

theorem gaugeLostFor_path (s : State) (id : Nat) : Path ballastBlocks s (gaugeLostFor s id) := by
  have hf : Path ballastBlocks s (failOrder s id fun o => { o with reason := some .noGauge }) :=
    Path.mono (failOrder_path s id (by intro _; exact ⟨fun h => h, rfl⟩)) (by decide)
  unfold gaugeLostFor
  split
  · exact .refl s
  · split
    · exact Path.mono (modOrder_path s id (by intro _; exact ⟨fun h => h, rfl⟩)) (by decide)
    · exact hf
    · exact hf
    · exact stopOrder_path _ _ _
    · exact stopOrder_path _ _ _
    · exact stopOrder_path _ _ _
    all_goals exact .refl s

theorem gaugeLost_path (s : State) (t : Nat) : Path ballastBlocks s (gaugeLost s t) := foldl_path gaugeLostFor_path _ _

theorem progressOf_le (a b : Nat) : progressOf a b ≤ 100 := by
  unfold progressOf
  split
  · exact le_refl _
  · exact Nat.min_le_left _ _

theorem keeps_withProgress (m : Nat) : KeepsOrder (withProgress m) :=
  fun _ => ⟨fun h => ⟨h.1, h.2.1, h.2.2.1, h.2.2.2.1, progressOf_le _ _⟩, rfl⟩

theorem levelNoticeFor_path (t : Nat) (s : State) (id : Nat) : Path ballastBlocks s (levelNoticeFor t s id) := by
  unfold levelNoticeFor
  split
  · exact .refl s
  · split
    · exact .refl s
    · refine Path.trans ?_ (completionTest_path _ _)
      exact Path.ite (Path.mono (modOrder_path s id (keeps_withProgress _)) (by decide)) (.refl s)

theorem levelNotice_path (s : State) (t : Nat) : Path ballastBlocks s (levelNotice s t) := foldl_path (levelNoticeFor_path t) _ _

/-! ### Readings and rounds -/

/-- What a bad reading or a stall disagreement changes (R40). -/
theorem badEvent_path (s : State) (t : Nat) : Path (.tanks :: ballastBlocks) s (badEvent s t) := by
  unfold badEvent
  split
  · exact .refl s
  · next r hr =>
    split
    · exact .refl s
    · next hg =>
      have hu : gaugeInUse r.gauge = true := by simpa using hg
      have hm : Path (.tanks :: ballastBlocks) s (modTank s t badReading) := by
        refine Path.mono (modTank_path s t fun x hx hk => ?_) (by decide)
        rw [show s.tanks[t]? = some r from hr] at hx
        cases hx
        exact hk.badReading hu
      dsimp only
      split
      · refine hm.trans (Path.trans ?_ ((gaugeLost_path _ _).mono (by decide)))
        exact (raise_path _ (by decide) _).mono (by decide)
      · split
        · exact hm.trans ((raise_path _ (by decide) _).mono (by decide))
        · exact hm

/-- What a reading changes (R32). -/
theorem reading_path (s : State) (t ch code : Nat) : Path (.tanks :: ballastBlocks) s (reading s t ch code) := by
  unfold reading
  split
  · next d r c _ hr _ =>
    have hrec : ∀ x, s.tanks[t]? = some x → x = r := fun x hx => by
      rw [show s.tanks[t]? = some r from hr] at hx
      cases hx
      rfl
    have good : ∀ level, gaugeInUse r.gauge = true →
        Path (.tanks :: ballastBlocks) s (levelNotice (modTank s t (goodReading d level (now s))) t) := fun level hg => by
      refine Path.trans ?_ ((levelNotice_path _ _).mono (by decide))
      exact Path.mono (modTank_path s t fun x hx hk => (hk.goodReading (by rw [hrec x hx]; exact hg) d level (now s))) (by decide)
    have back : ∀ level, r.gauge = .withdrawn → Path (.tanks :: ballastBlocks) s (modTank s t (goodWhileWithdrawn d level (now s))) :=
      fun level hg => Path.mono (modTank_path s t fun x hx hk => hk.goodWhileWithdrawn (by rw [hrec x hx]; exact hg) d level (now s)) (by decide)
    split
    · next hg _ => exact good _ (by rw [hg]; rfl)
    · next hg _ => exact good _ (by rw [hg]; rfl)
    · exact badEvent_path _ _
    · exact badEvent_path _ _
    · next hg _ =>
      dsimp only
      split
      · exact (back _ hg).trans ((levelNotice_path _ _).mono (by decide))
      · exact back _ hg
    · next hg _ =>
      refine Path.mono (modTank_path s t fun x hx hk => ?_) (by decide)
      exact ⟨hk.1, hk.2.1, Nat.succ_pos 127, hk.2.2.2⟩
    · exact .refl s
  · exact .refl s

theorem setGauge_path (s : State) (g : Gauge) (h : GaugeOk s.gauge → GaugeOk g) : Path [.gauge] s (setGauge s g) :=
  .one (List.mem_singleton.2 rfl) (.gauge s g h)

/-- What the end of a round changes (R28, R156). -/
theorem endRound_path (s : State) : Path [.gauge, .pour, .engine] s (endRound s) := by
  unfold endRound
  refine Path.trans ?_ (Path.mono (setGauge_path _ _ (by intro h; exact ⟨h.1, h.2.1, fun r hr => by cases hr⟩)) (by decide))
  refine Path.trans ?_ ((recheck_path _).mono (by decide))
  refine Path.trans ?_ ((choose_path _).mono (by decide))
  refine Path.trans ?_ ((recomputeEstimate_path _).mono (by decide))
  exact (markLive_path _ _).mono (by decide)

theorem startRound_path (s : State) : Path [.gauge, .pour, .engine] s (startRound s) := by
  unfold startRound
  split
  · exact endRound_path s
  · next hc =>
    refine Path.mono (setGauge_path s _ (by
      intro h
      refine ⟨h.1, h.2.1, fun r hr => ?_⟩
      cases hr
      exact Nat.pos_of_ne_zero (by
        intro h0
        exact hc (List.length_eq_zero_iff.1 h0)))) (by decide)

theorem restartRound_path (s : State) : Path [.gauge, .pour, .engine] s (restartRound s) := Path.ite (startRound_path s) (.refl s)

/-! ### Hull signals -/

theorem ordersHullStop_path (s : State) : Path ballastBlocks s (ordersHullStop s) := by
  unfold ordersHullStop
  refine Path.trans ?_ (settleArbiter_path _)
  refine Path.trans ?_ ((callArbiter_path _).mono (by decide))
  exact foldl_path (fun t id => stopOrder_path t id _) _ _

theorem returnHull_path (s : State) (id : Nat) : Path [.orders, .pour, .engine] s (returnHull s id) := by
  unfold returnHull
  split
  · split
    · exact Path.mono (modOrder_path s id (by intro _; exact ⟨fun h => h, rfl⟩)) (by decide)
    · exact queueOrder_path s id (by intro _; exact ⟨fun h => h, rfl⟩)
  · exact .refl s

theorem ordersHullClear_path (s : State) : Path ballastBlocks s (ordersHullClear s) := by
  unfold ordersHullClear
  refine Path.trans ?_ (settleArbiter_path _)
  refine Path.trans ?_ ((callArbiter_path _).mono (by decide))
  exact foldl_path (fun t id => (returnHull_path t id).mono (by decide)) _ _

/-- What the hull signals change (R79, R128, R152, R153). -/
theorem hullSignals_path (b : Hull) (s : State) : Path ([.reports, .term, .terminal] ++ ballastBlocks) s (hullSignals b s) := by
  unfold hullSignals
  split
  · refine Path.trans ?_ ((pourHullStop_path _).mono (by decide))
    exact (ordersHullStop_path s).mono (by decide)
  · split
    · refine Path.trans ?_ ((pourHullClear_path _).mono (by decide))
      exact (ordersHullClear_path s).mono (by decide)
    · exact .refl s

/-- The record taken in is lawful: a RED result leaves STOPPED (R78). -/
theorem HullOk.taken (b : StopState) (rs : Int) (r : EvalResult) (t : Nat) :
    HullOk { live := some r, stop := stopAfter b rs r, completedAt := some t } := by
  refine ⟨rfl, fun hr => ?_⟩
  show stopAfter b rs r = .stopped
  cases b <;> simp [stopAfter, hr]

/-- What the intake of a live result changes (R77). -/
theorem takeLiveResult_path (s : State) (r : EvalResult) (mark : Bool) :
    Path ([.hull, .reports, .term, .terminal] ++ ballastBlocks) s (takeLiveResult s r mark) := by
  have h1 : Path ([.hull, .reports, .term, .terminal] ++ ballastBlocks) s
      (reportHullCauses (setHull s { live := some r, stop := stopAfter s.hull.stop s.settings.rs r, completedAt := some (now s) })) := by
    refine Path.trans ?_ ((reportHullCauses_path _).mono (by decide))
    exact .one (by decide) (.hull s _ fun _ => HullOk.taken _ _ _ _)
  unfold takeLiveResult
  dsimp only
  have h2 : ∀ u, Path ([.hull, .reports, .term, .terminal] ++ ballastBlocks) s u →
      Path ([.hull, .reports, .term, .terminal] ++ ballastBlocks) s (hullSignals s.hull u) :=
    fun u hu => hu.trans ((hullSignals_path _ _).mono (by decide))
  have h3 : ∀ u, Path ([.hull, .reports, .term, .terminal] ++ ballastBlocks) s u →
      Path ([.hull, .reports, .term, .terminal] ++ ballastBlocks) s (reportMarked u) :=
    fun u hu => hu.trans ((reportMarked_path _).mono (by decide))
  have h4 : Path ([.hull, .reports, .term, .terminal] ++ ballastBlocks) s
      (trigger (reportHullCauses (setHull s { live := some r, stop := stopAfter s.hull.stop s.settings.rs r, completedAt := some (now s) }))
        .exception (currentStep (reportHullCauses (setHull s { live := some r, stop := stopAfter s.hull.stop s.settings.rs r, completedAt := some (now s) })))) :=
    h1.trans ((trigger_path _ (by decide) _).mono (by decide))
  split
  · split
    · exact h3 _ (h2 _ h4)
    · exact h3 _ (h2 _ h1)
  · split
    · exact h2 _ h4
    · exact h2 _ h1

end Sys2Proof.Machine
end

