-- ==== Sys2Proof/Laws/OrderTable.lean ====
section
/-! SUPPORT. What changing one order of the table does: reading an order by its id, changes by id as changes of one slot, and the gauge-change notice as one change of the table. -/

namespace Sys2Proof.Machine

/-- Two orders of a lawful table with the same id are the same order (R108, R111). -/
theorem OrdersOk.eq_of_id {x : Orders} (h : OrdersOk x) {a b : Order} (ha : some a ∈ x.slots) (hb : some b ∈ x.slots) (hid : a.id = b.id) :
    a = b := by
  have key : ∀ l : List (Option Order), (l.filterMap fun o => o.map Order.id).Nodup → some a ∈ l → some b ∈ l → a = b := by
    intro l
    induction l with
    | nil => intro _ h1; cases h1
    | cons o l ih =>
      intro hn h1 h2
      cases o with
      | none =>
        simp only [List.mem_cons, reduceCtorEq, false_or] at h1 h2
        exact ih (by simpa using hn) h1 h2
      | some c =>
        have hn' : c.id ∉ l.filterMap (fun o => o.map Order.id) ∧ (l.filterMap fun o => o.map Order.id).Nodup := by
          simpa using hn
        have out : ∀ d, some d ∈ l → c.id ≠ d.id := fun d hd e =>
          hn'.1 (List.mem_filterMap.2 ⟨some d, hd, by simp [e]⟩)
        simp only [List.mem_cons, Option.some.injEq] at h1 h2
        rcases h1 with rfl | h1 <;> rcases h2 with rfl | h2
        · rfl
        · exact absurd hid (out b h2)
        · exact absurd hid.symm (out a h1)
        · exact ih hn'.2 h1 h2
  exact key _ h.2.2.1 ha hb

/-- An order of a lawful table is the one its id names. -/
theorem orderById_of_mem {s : State} (h : OrdersOk s.orders) {o : Order} (ho : some o ∈ s.orders.slots) : orderById s o.id = some o := by
  have hm : o ∈ s.orders.slots.filterMap fun x => x := List.mem_filterMap.2 ⟨some o, ho, rfl⟩
  unfold orderById
  cases hf : (s.orders.slots.filterMap fun x => x).find? fun x => decide (x.id = o.id) with
  | none => exact absurd (List.find?_eq_none.1 hf o hm) (by simp)
  | some y =>
    have hy : y.id = o.id := by simpa using List.find?_some hf
    obtain ⟨z, hz, hzy⟩ := List.mem_filterMap.1 (List.mem_of_find?_eq_some hf)
    have hz' : z = some y := hzy
    subst hz'
    rw [h.eq_of_id hz ho hy]

/-- An order found by its id stands in the table. -/
theorem mem_of_orderById {s : State} {id : Nat} {o : Order} (h : orderById s id = some o) : some o ∈ s.orders.slots ∧ o.id = id := by
  unfold orderById at h
  obtain ⟨z, hz, hzo⟩ := List.mem_filterMap.1 (List.mem_of_find?_eq_some h)
  have hz' : z = some o := hzo
  subst hz'
  exact ⟨hz, by simpa using List.find?_some h⟩

/-- A change of the order with an id is a change of its slot alone. -/
theorem modOrder_put {s : State} (h : OrdersOk s.orders) {o : Order} (ho : some o ∈ s.orders.slots) (f : Order → Order) :
    modOrder s o.id f
      = { s with orders := { s.orders with slots := s.orders.slots.map fun z => if z = some o then some (f o) else z } } := by
  have hl : (s.orders.slots.map fun z => z.map fun x => if x.id = o.id then f x else x)
      = s.orders.slots.map fun z => if z = some o then some (f o) else z := by
    refine List.map_congr_left fun z hz => ?_
    cases z with
    | none => simp
    | some x =>
      by_cases hx : x.id = o.id
      · have := h.eq_of_id hz ho hx
        subst this
        simp
      · have hne : x ≠ o := fun e => hx (by rw [e])
        simp [hx, hne]
  unfold modOrder setOrders
  rw [hl]

/-- Changes of the orders with these ids, one after the other, by functions that keep the id, are one change of the table. -/
theorem foldl_modOrder (f : Order → Order) (hf : ∀ o, (f o).id = o.id) (ids : List Nat) (hn : ids.Nodup) (s : State) :
    ids.foldl (fun s id => modOrder s id f) s = { s with orders := { s.orders with
      slots := s.orders.slots.map fun z => z.map fun o => if o.id ∈ ids then f o else o } } := by
  induction ids generalizing s with
  | nil => simp
  | cons id ids ih =>
    obtain ⟨h1, h2⟩ := List.nodup_cons.1 hn
    rw [List.foldl_cons, ih h2]
    unfold modOrder setOrders
    simp only [List.map_map]
    congr 2
    refine List.map_congr_left fun z _ => ?_
    cases z with
    | none => rfl
    | some o =>
      by_cases hid : o.id = id
      · subst hid
        simp [hf, h1]
      · simp [hid]

/-- The ids of the orders that need a tank name each order once. -/
theorem ordersOn_nodup {s : State} (h : OrdersOk s.orders) (t : Nat) : (ordersOn s t).Nodup := by
  have h3 : ((ordersList s).map Order.id).Nodup := by
    have := h.2.2.1
    unfold ordersList
    rwa [List.map_filterMap]
  exact h3.sublist (List.Sublist.map _ List.filter_sublist)

/-- The non-terminal orders that need a tank are those of the notice (R112). -/
theorem mem_ordersOn {s : State} (h : OrdersOk s.orders) {o : Order} (ho : some o ∈ s.orders.slots) (t : Nat) :
    o.id ∈ ordersOn s t ↔ terminalState o.state = false ∧ needs o t = true := by
  unfold ordersOn ordersList
  simp only [List.mem_map, List.mem_filter, List.mem_filterMap, Bool.and_eq_true, Bool.not_eq_true']
  constructor
  · rintro ⟨x, ⟨⟨z, hz, hzx⟩, hx⟩, hid⟩
    have hz' : z = some x := hzx
    subst hz'
    rw [← h.eq_of_id hz ho hid]
    exact hx
  · intro hx
    exact ⟨o, ⟨⟨some o, ho, rfl⟩, hx⟩, rfl⟩

/-- An ACTIVE order with its stall window restarted, as `s` has the clock, SW and the levels (R123). -/
abbrev windowRestarted (s : State) (o : Order) : Order := if o.state = .active then { o with stall := some (freshStall s o) } else o

theorem keeps_windowRestarted (s : State) : KeepsOrder (windowRestarted s) := fun o => by
  by_cases ho : o.state = .active
  · rw [windowRestarted, if_pos ho]
    exact ⟨fun h => h, rfl⟩
  · rw [windowRestarted, if_neg ho]
    exact ⟨fun h => h, rfl⟩

theorem gaugeChangeFor_eq {s u : State} (h : OrdersOk u.orders) (hf : freshStall u = freshStall s) (id : Nat) :
    gaugeChangeFor u id = modOrder u id (windowRestarted s) := by
  unfold gaugeChangeFor
  cases ho : orderById u id with
  | none =>
    have hl : (u.orders.slots.map fun z => z.map fun x => if x.id = id then windowRestarted s x else x) = u.orders.slots := by
      refine (List.map_congr_left fun z hz => ?_).trans (List.map_id _)
      cases z with
      | none => rfl
      | some x =>
        have hx : x.id ≠ id := fun e => by
          have := orderById_of_mem h hz
          rw [e, ho] at this
          cases this
        simp [hx]
    show u = modOrder u id _
    unfold modOrder setOrders
    rw [hl]
  | some o =>
    obtain ⟨hm, rfl⟩ := mem_of_orderById ho
    show (if o.state = .active then _ else u) = _
    rw [modOrder_put h hm, modOrder_put h hm]
    by_cases ha : o.state = .active
    · simp only [ha, if_true, hf, windowRestarted]
    · simp only [ha, if_false, windowRestarted]
      have hl : (u.orders.slots.map fun z => if z = some o then some o else z) = u.orders.slots :=
        (List.map_congr_left fun z _ => by split <;> simp_all).trans (List.map_id _)
      rw [hl]

/-- What a gauge-change notice does: the stall window of every ACTIVE order that needs the tank is restarted (R123). -/
theorem gaugeChange_eq {s : State} (h : OrdersOk s.orders) (t : Nat) :
    gaugeChange s t = { s with orders := { s.orders with slots := s.orders.slots.map fun z => z.map fun o =>
      if o.state = .active ∧ (o.tank = t ∨ o.dest = some t) then { o with stall := some (freshStall s o) } else o } } := by
  have run : ∀ (ids : List Nat) (u : State), OrdersOk u.orders → freshStall u = freshStall s →
      ids.foldl gaugeChangeFor u = ids.foldl (fun u id => modOrder u id (windowRestarted s)) u := by
    intro ids
    induction ids with
    | nil => intro u _ _; rfl
    | cons id ids ih =>
      intro u hu hf
      rw [List.foldl_cons, List.foldl_cons, gaugeChangeFor_eq hu hf]
      refine ih _ (hu.mapSlots (f := fun o => if o.id = id then windowRestarted s o else o) fun o => ?_) hf
      by_cases he : o.id = id
      · simpa [he] using keeps_windowRestarted s o
      · simp [he]
  have hl : (s.orders.slots.map fun z => z.map fun o => if o.id ∈ ordersOn s t then windowRestarted s o else o)
      = s.orders.slots.map fun z => z.map fun o =>
        if o.state = .active ∧ (o.tank = t ∨ o.dest = some t) then { o with stall := some (freshStall s o) } else o := by
    refine List.map_congr_left fun z hz => ?_
    cases z with
    | none => rfl
    | some o =>
      by_cases ha : o.state = .active
      · simp [mem_ordersOn h hz, windowRestarted, ha, terminalState, needs]
      · simp [windowRestarted, ha]
  unfold gaugeChange
  rw [run _ s h rfl, foldl_modOrder _ (fun o => (keeps_windowRestarted s o).2) _ (ordersOn_nodup h t), hl]

end Sys2Proof.Machine
end

