-- ==== Sys2Proof/WellFormed.lean ====
section
/-! DEFINITION. Which commands name things that exist (00_scope.md 4.4). A command that is not well formed names nothing and changes nothing (log 1). -/

namespace Sys2Proof

/-- A slot number of a link (R190). -/
def slotOk (slot : Nat) : Bool := slot < Config.slotCount

/-- A pump number (R90). -/
def pumpOk (pump : Nat) : Bool := 1 ≤ pump && pump ≤ 4

/-- A valve number (R84). -/
def valveOk (valve : Nat) : Bool := valve ≤ 28

/-- An order id (R109). -/
def orderIdOk (id : Nat) : Bool := 1 ≤ id && id ≤ 255

/-- A pour step number (R134). -/
def stepOk (step : Nat) : Bool := 1 ≤ step && step ≤ Config.planMax

/-- The operands of a command lie in their numbering ranges. -/
def Instr.wellFormed : Instr → Bool
  | .powerOn | .warmReset | .uptimeSecond | .powerLoss => true
  | .frameReceived _ _ | .frameDiscarded _ _ | .startByteFound _ _ => true
  | .frameIncompleteTimeout _ | .frameTransmitStart _ | .replyTransmitComplete _ | .delivery _ => true
  | .profileChecksComplete | .nonVolatileWriteComplete _ => true
  | .scanPeriodTick | .conversionComplete _ => true
  | .liveEvaluationComplete | .previewComplete | .quietTimerExpiry => true
  | .valveLimitChange v _ _ | .strokeTimerExpiry v => valveOk v
  | .pressureProvenChange p _ | .pumpRunningFeedbackChange p _ | .pumpStopTimerExpiry p => pumpOk p
  | .proveTimerExpiry o | .stallWindowExpiry o => orderIdOk o
  | .holdTimerExpiry n | .settleTimerExpiry n => stepOk n
  | .popn k | .pdat k | .pcls k | .copn k | .cend k | .clks k | .setp k => slotOk k
  | .gcal k | .tmap k | .dens k | .sndg k | .gqry k | .prev k | .hqry k => slotOk k
  | .prst k | .xovr k | .gang k | .ordr k | .ocan k | .orel k | .oqry k | .hwin k => slotOk k
  | .plan k | .pclr k | .hcor k | .sreq k | .sfrc k | .sskp k | .scan k | .taly k | .sfin k | .lstp k => slotOk k
  | .tatt k | .tdet k | .sqry k | .rcfg k | .rreq k | .aenb k | .aack k | .aqry k | .wrst k => slotOk k

end Sys2Proof
end

