-- ==== Sys2Proof/Laws/PerInstr.lean ====
section
/-! SUPPORT. One lemma for each command, of the family WellFormed: the number that a well-formed command carries fits in one byte (00_scope.md 4.4). -/

namespace Sys2Proof.Laws.WellFormed

/-- The slot, valve, pump, order or step number that a command carries. -/
def number : Instr → Option Nat
  | .valveLimitChange v _ _ | .strokeTimerExpiry v => some v
  | .pressureProvenChange p _ | .pumpRunningFeedbackChange p _ | .pumpStopTimerExpiry p => some p
  | .proveTimerExpiry o | .stallWindowExpiry o => some o
  | .holdTimerExpiry n | .settleTimerExpiry n => some n
  | .popn k | .pdat k | .pcls k | .copn k | .cend k | .clks k | .setp k | .gcal k | .tmap k => some k
  | .dens k | .sndg k | .gqry k | .prev k | .hqry k | .prst k | .xovr k | .gang k | .ordr k => some k
  | .ocan k | .orel k | .oqry k | .hwin k | .plan k | .pclr k | .hcor k | .sreq k | .sfrc k => some k
  | .sskp k | .scan k | .taly k | .sfin k | .lstp k | .tatt k | .tdet k | .sqry k | .rcfg k => some k
  | .rreq k | .aenb k | .aack k | .aqry k | .wrst k => some k
  | _ => none

/-- The number of a well-formed command is at most 255. -/
def Statement (i : Instr) : Prop := i.wellFormed = true → ∀ n, number i = some n → n ≤ 255

theorem of_slot {k n : Nat} (h : slotOk k = true) (e : some k = some n) : n ≤ 255 := by
  cases e
  have : k < 8 := of_decide_eq_true h
  omega

theorem of_valve {k n : Nat} (h : valveOk k = true) (e : some k = some n) : n ≤ 255 := by
  cases e
  have : k ≤ 28 := by simpa [valveOk] using h
  omega

theorem of_pump {k n : Nat} (h : pumpOk k = true) (e : some k = some n) : n ≤ 255 := by
  cases e
  have : 1 ≤ k ∧ k ≤ 4 := by simpa [pumpOk] using h
  omega

theorem of_order {k n : Nat} (h : orderIdOk k = true) (e : some k = some n) : n ≤ 255 := by
  cases e
  have : 1 ≤ k ∧ k ≤ 255 := by simpa [orderIdOk] using h
  omega

theorem of_step {k n : Nat} (h : stepOk k = true) (e : some k = some n) : n ≤ 255 := by
  cases e
  have : k ≤ 48 := of_decide_eq_true (Bool.and_eq_true_iff.1 h).2
  omega

theorem powerOn : Statement .powerOn := fun _ _ e => nomatch e
theorem warmReset : Statement .warmReset := fun _ _ e => nomatch e
theorem uptimeSecond : Statement .uptimeSecond := fun _ _ e => nomatch e
theorem frameReceived (link : Link) (bytes : List Byte) : Statement (.frameReceived link bytes) := fun _ _ e => nomatch e
theorem frameDiscarded (link : Link) (bytes : List Byte) : Statement (.frameDiscarded link bytes) := fun _ _ e => nomatch e
theorem frameIncompleteTimeout (link : Link) : Statement (.frameIncompleteTimeout link) := fun _ _ e => nomatch e
theorem frameTransmitStart (link : Link) : Statement (.frameTransmitStart link) := fun _ _ e => nomatch e
theorem replyTransmitComplete (link : Link) : Statement (.replyTransmitComplete link) := fun _ _ e => nomatch e
theorem delivery (link : Link) : Statement (.delivery link) := fun _ _ e => nomatch e
theorem popn (slot : Nat) : Statement (.popn slot) := fun h _ e => of_slot h e
theorem pdat (slot : Nat) : Statement (.pdat slot) := fun h _ e => of_slot h e
theorem pcls (slot : Nat) : Statement (.pcls slot) := fun h _ e => of_slot h e
theorem profileChecksComplete : Statement .profileChecksComplete := fun _ _ e => nomatch e
theorem nonVolatileWriteComplete (readBack : List Byte) : Statement (.nonVolatileWriteComplete readBack) := fun _ _ e => nomatch e
theorem copn (slot : Nat) : Statement (.copn slot) := fun h _ e => of_slot h e
theorem cend (slot : Nat) : Statement (.cend slot) := fun h _ e => of_slot h e
theorem clks (slot : Nat) : Statement (.clks slot) := fun h _ e => of_slot h e
theorem setp (slot : Nat) : Statement (.setp slot) := fun h _ e => of_slot h e
theorem scanPeriodTick : Statement .scanPeriodTick := fun _ _ e => nomatch e
theorem conversionComplete (code : Fin 65536) : Statement (.conversionComplete code) := fun _ _ e => nomatch e
theorem gcal (slot : Nat) : Statement (.gcal slot) := fun h _ e => of_slot h e
theorem tmap (slot : Nat) : Statement (.tmap slot) := fun h _ e => of_slot h e
theorem dens (slot : Nat) : Statement (.dens slot) := fun h _ e => of_slot h e
theorem sndg (slot : Nat) : Statement (.sndg slot) := fun h _ e => of_slot h e
theorem gqry (slot : Nat) : Statement (.gqry slot) := fun h _ e => of_slot h e
theorem liveEvaluationComplete : Statement .liveEvaluationComplete := fun _ _ e => nomatch e
theorem previewComplete : Statement .previewComplete := fun _ _ e => nomatch e
theorem prev (slot : Nat) : Statement (.prev slot) := fun h _ e => of_slot h e
theorem hqry (slot : Nat) : Statement (.hqry slot) := fun h _ e => of_slot h e
theorem valveLimitChange (valve : Nat) (limit : Limit) (present : Bool) : Statement (.valveLimitChange valve limit present) := fun h _ e => of_valve h e
theorem strokeTimerExpiry (valve : Nat) : Statement (.strokeTimerExpiry valve) := fun h _ e => of_valve h e
theorem pressureProvenChange (pump : Nat) (present : Bool) : Statement (.pressureProvenChange pump present) := fun h _ e => of_pump h e
theorem pumpRunningFeedbackChange (pump : Nat) (present : Bool) : Statement (.pumpRunningFeedbackChange pump present) := fun h _ e => of_pump h e
theorem proveTimerExpiry (order : Nat) : Statement (.proveTimerExpiry order) := fun h _ e => of_order h e
theorem pumpStopTimerExpiry (pump : Nat) : Statement (.pumpStopTimerExpiry pump) := fun h _ e => of_pump h e
theorem prst (slot : Nat) : Statement (.prst slot) := fun h _ e => of_slot h e
theorem xovr (slot : Nat) : Statement (.xovr slot) := fun h _ e => of_slot h e
theorem gang (slot : Nat) : Statement (.gang slot) := fun h _ e => of_slot h e
theorem ordr (slot : Nat) : Statement (.ordr slot) := fun h _ e => of_slot h e
theorem stallWindowExpiry (order : Nat) : Statement (.stallWindowExpiry order) := fun h _ e => of_order h e
theorem ocan (slot : Nat) : Statement (.ocan slot) := fun h _ e => of_slot h e
theorem orel (slot : Nat) : Statement (.orel slot) := fun h _ e => of_slot h e
theorem oqry (slot : Nat) : Statement (.oqry slot) := fun h _ e => of_slot h e
theorem hwin (slot : Nat) : Statement (.hwin slot) := fun h _ e => of_slot h e
theorem plan (slot : Nat) : Statement (.plan slot) := fun h _ e => of_slot h e
theorem pclr (slot : Nat) : Statement (.pclr slot) := fun h _ e => of_slot h e
theorem hcor (slot : Nat) : Statement (.hcor slot) := fun h _ e => of_slot h e
theorem sreq (slot : Nat) : Statement (.sreq slot) := fun h _ e => of_slot h e
theorem holdTimerExpiry (step : Nat) : Statement (.holdTimerExpiry step) := fun h _ e => of_step h e
theorem sfrc (slot : Nat) : Statement (.sfrc slot) := fun h _ e => of_slot h e
theorem sskp (slot : Nat) : Statement (.sskp slot) := fun h _ e => of_slot h e
theorem scan (slot : Nat) : Statement (.scan slot) := fun h _ e => of_slot h e
theorem taly (slot : Nat) : Statement (.taly slot) := fun h _ e => of_slot h e
theorem sfin (slot : Nat) : Statement (.sfin slot) := fun h _ e => of_slot h e
theorem settleTimerExpiry (step : Nat) : Statement (.settleTimerExpiry step) := fun h _ e => of_step h e
theorem lstp (slot : Nat) : Statement (.lstp slot) := fun h _ e => of_slot h e
theorem tatt (slot : Nat) : Statement (.tatt slot) := fun h _ e => of_slot h e
theorem tdet (slot : Nat) : Statement (.tdet slot) := fun h _ e => of_slot h e
theorem quietTimerExpiry : Statement .quietTimerExpiry := fun _ _ e => nomatch e
theorem sqry (slot : Nat) : Statement (.sqry slot) := fun h _ e => of_slot h e
theorem rcfg (slot : Nat) : Statement (.rcfg slot) := fun h _ e => of_slot h e
theorem rreq (slot : Nat) : Statement (.rreq slot) := fun h _ e => of_slot h e
theorem aenb (slot : Nat) : Statement (.aenb slot) := fun h _ e => of_slot h e
theorem aack (slot : Nat) : Statement (.aack slot) := fun h _ e => of_slot h e
theorem aqry (slot : Nat) : Statement (.aqry slot) := fun h _ e => of_slot h e
theorem wrst (slot : Nat) : Statement (.wrst slot) := fun h _ e => of_slot h e
theorem startByteFound (link : Link) (bytes : List Byte) : Statement (.startByteFound link bytes) := fun _ _ e => nomatch e
theorem powerLoss : Statement .powerLoss := fun _ _ e => nomatch e

end Sys2Proof.Laws.WellFormed
end

