-- ==== Sys2Proof/Tests/Slice0.lean ====
section
/-! SUPPORT. The model's own tests: ill-formed commands that the check refuses, worked values of the spec, and for every statement with hypotheses a state and operands that meet them. -/

namespace Sys2Proof.Tests

open Sys2Proof Sys2Proof.Machine

-- One theorem after the other: the kernel evaluations of this file, waiting for each other, would take a thread each.
set_option Elab.async false

/-! ### Well-formedness: one ill-formed command for each check -/

theorem test_slot_refused : (Instr.popn 8).wellFormed = false ∧ (Instr.popn 7).wellFormed = true := by decide
theorem test_pump_refused :
    (Instr.pumpStopTimerExpiry 0).wellFormed = false ∧ (Instr.pumpStopTimerExpiry 5).wellFormed = false
      ∧ (Instr.pumpStopTimerExpiry 4).wellFormed = true := by decide
theorem test_valve_refused : (Instr.strokeTimerExpiry 29).wellFormed = false ∧ (Instr.strokeTimerExpiry 28).wellFormed = true := by decide
theorem test_order_refused :
    (Instr.stallWindowExpiry 0).wellFormed = false ∧ (Instr.stallWindowExpiry 256).wellFormed = false
      ∧ (Instr.stallWindowExpiry 255).wellFormed = true := by decide
theorem test_step_refused :
    (Instr.holdTimerExpiry 0).wellFormed = false ∧ (Instr.holdTimerExpiry 49).wellFormed = false
      ∧ (Instr.holdTimerExpiry 48).wellFormed = true := by decide

/-! ### Worked values -/

/-- The nine digits, the usual check text of a CRC. -/
def digits : List Byte := [0x31, 0x32, 0x33, 0x34, 0x35, 0x36, 0x37, 0x38, 0x39]

/-- R189's check value. -/
theorem test_crc16_check : crc16 digits = 0x29B1#16 := by decide +kernel
/-- R10's check value. -/
theorem test_crc32_check : crc32 digits = 0xCBF43926#32 := by decide +kernel
/-- R48's roundings midway. -/
theorem test_roundings : roundHalfUp 5 2 = 3 ∧ roundHalfAway (-5) 2 = -3 ∧ roundTrunc (-5) 2 = -2 ∧ roundUp 4 2 = 2 ∧ roundUp 5 2 = 3 := by decide
/-- A sounding table at its points, between them and beyond them (R36). -/
theorem test_volumes : ([0, 50, 100, 150, 200, 300].map fun l => volumeAt [⟨0, 0⟩, ⟨100, 50⟩, ⟨200, 200⟩] l) = [0, 25, 50, 125, 200, 200] := by decide
/-- No row of the table gives bits. -/
theorem test_no_word_spells_a_command : decodeTableWord 8 0 = none ∧ (State.reset.withFetchWord 8 0).pending = [] := by decide +kernel

/-! ### A ship in a calm call -/

/-- A tank on a main, mapped to a channel or not. -/
def tank (m : Main) (c : Option Nat) : TankData :=
  { name := [], main := m, lcg := 100, maxLevel := 10000, minLevel := 100, density := 1025, allowance := 30, channel := c,
    points := [⟨0, 0⟩, ⟨12000, 12000⟩] }

/-- Three tanks, one hold, one frame, two rows. -/
def ship : Profile :=
  { w0 := 5000, x0 := 100, tanks := [tank .port (some 0), tank .port none, tank .stbd (some 1)], holds := [{ name := [], lcg := 90, capacity := 60000 }],
    frames := [{ position := 1, sf0 := 0, bm0 := 0, sfPos := 1000, sfNeg := 1000, hog := 1000, sag := 1000, kS := [], kB := [] }],
    rows := [⟨1000, 500, 100, 100⟩, ⟨90000, 900, 100, 100⟩] }

/-- A live result of band GREEN. -/
def green : EvalResult :=
  { isLive := true, displacement := 5000, lcg := 100, tMean := 500, tAft := 500, tFwd := 500, trim := 0, sf := [], bm := [], sfUtil := [],
    bmUtil := [], draftUtil := 0, trimUtil := 0, peak := 0, peakSource := .draft, band := .green, tableLow := false, tableHigh := false,
    saturated := false, uptime := 0, ballast := 0, cargo := 0 }

/-- The ship in a call with a usable hull and the terminal UP. -/
def calm : State :=
  { State.reset with
    profile := .valid ship
    call := .inCall
    tanks := ship.tanks.map Tank.initial
    hull := { live := some green, stop := .clear, completedAt := some 0 }
    term := { TermLink.initial with state := .up }
    reports := { Reports.initial with counter := some 0 } }

/-- A port whose slot 0 hands over a request. -/
def portWith (r : Request) : Port :=
  { Port.initial with slots := some { request := r, kind := .HQRY, tag := 7#8, phase := .handed, arrival := 0 } :: List.replicate 7 none }

/-- The state with a request in slot 0 of a link. -/
def asking (s : State) (l : Link) (r : Request) : State := setPort s l (portWith r)

/-- Slot 0 hands the request over. -/
theorem asked (s : State) (l : Link) (r : Request) (h : s.powered = true) : Asked (asking s l r) l 0 r := by
  refine ⟨by cases l <;> exact h, handed_eq_some.2 ?_⟩
  cases l <;> exact ⟨_, rfl, rfl, rfl, fun _ j y hy _ _ => by
    match j with
    | 0 => cases hy; exact Nat.le_refl _
    | j + 1 => exact Nat.zero_le _⟩

theorem calm_plantOk : PlantOk calm.plant := by
  unfold PlantOk PumpOk ValveOk MainOk; decide +kernel

theorem calm_settingsOk : SettingsOk calm.settings := by
  unfold SettingsOk; decide +kernel

theorem attentionOk_initial : AttentionOk Attention.initial := by
  refine ⟨rfl, by decide, by decide, fun n c h => ?_⟩
  have hc : c = Condition.initial := List.eq_of_mem_replicate (List.mem_of_getElem? h)
  subst hc
  unfold ConditionOk
  split <;> simp [Condition.initial]

/-- The order laws, entry by entry. -/
theorem ordersOk_of {x : Orders} (h : x.slots.length = 16 ∧ x.windows.length = 4 ∧ (x.slots.filterMap fun o => o.map Order.id).Nodup)
    (ho : ∀ y ∈ x.slots, (y.all fun o => 1 ≤ o.id && o.id ≤ 255 && o.priority ≤ 3 && o.retries ≤ 7 && o.progress ≤ 100) = true) :
    OrdersOk x := by
  refine ⟨h.1, h.2.1, h.2.2, fun o hm => ?_⟩
  have := ho _ hm
  simp only [Option.all_some, Bool.and_eq_true, decide_eq_true_eq] at this
  exact ⟨this.1.1.1.1, this.1.1.1.2, this.1.1.2, this.1.2, this.2⟩

/-- A FILL order for tank 0. -/
def order (id : Nat) (st : OrderState) : Order :=
  { id := id, tank := 0, action := .fill, dest := none, target := .level 5000, priority := 1, retries := 0, manual := false, targetLevel := 5000,
    startMass := 0, toMove := 500, endSource := 500, endDest := none, direction := some .loading, state := st, reason := none, attempts := 0,
    pumps := [], rank := 1, admitted := some 0, started := none, ended := none, moved := 0, progress := 0, stall := none, gaugeLost := false,
    slot := none, clamped := false }

/-- The call with one order. -/
def ordered (o : Order) : State :=
  { calm with orders := { Orders.initial with slots := some o :: List.replicate 15 none } }

theorem ordered_only {o x : Order} (h : some x ∈ (ordered o).orders.slots) : x = o := by
  rcases List.mem_cons.1 h with h | h
  · exact Option.some.inj h
  · cases List.eq_of_mem_replicate h

theorem calm_no_order {x : Order} (h : some x ∈ calm.orders.slots) : False := by
  cases List.eq_of_mem_replicate h

/-- Step 1, into hold 1. -/
def stepIn (st : StepState) : Step :=
  { Step.planned_ 1 1 1000 [] none with state := st, base := some 0, lastTally := some 0 }

/-- The call with a plan of one step. -/
def planned (st : Step) : State := { calm with pour := { calm.pour with plan := [st] } }

/-- The call without a live result. -/
def bandless : State := { calm with hull := Hull.initial }

theorem planned_only {st y : Step} (h : currentStep (planned st) = some y) : y = st := by
  have := List.mem_of_find?_eq_some h
  exact List.mem_singleton.1 this

theorem planned_pourOk (st : Step) (h : st.number = 1) : PourOk (planned st).pour := by
  refine ⟨?_, (by decide : 1 ≤ 48), rfl⟩
  show [st.number] = [0 + 1]
  rw [h]

/-! ### Witnesses: steps, slots, supply -/

theorem test_meets_StepRuns : ({ calm with pending := [.uptimeSecond] } : State).pending = .uptimeSecond :: [] := rfl

theorem test_meets_EmptyQueue :
    (calm.pending = [] ∧ calm.powered = true ∧ calm.plant.lines.length = 66) ∧ ({ calm with powered := false } : State).powered = false
      ∧ (∃ l : InputLine, l.pin ≠ l.debounced ∧ l.hold = none) ∧ (∃ l : InputLine, l.pin = l.debounced)
      ∧ ((InputLine.quiet.sample 0).debounced = InputLine.quiet.debounced
          ∧ (({ InputLine.quiet with pin := true } : InputLine).sample 0).debounced = !InputLine.quiet.debounced) :=
  ⟨by decide +kernel, rfl, ⟨{ InputLine.quiet with pin := true }, by decide⟩, ⟨InputLine.quiet, rfl⟩, by decide⟩

theorem test_meets_ReplyEchoes : (slotAt (asking calm .console .hqry) .console 0).isSome = true ∧ (1 : Nat) ≠ 0 := by decide +kernel

theorem test_meets_RequestsAreAdmitted :
    (Asked (asking State.reset .console (.prst 1)) .console 0 (.prst 1) ∧ refusedByCallState (.prst 1) State.reset.call = true)
      ∧ (Asked (asking State.reset .terminal (.scan 1)) .terminal 0 (.scan 1) ∧ refusedByCallState (.scan 1) State.reset.call = true)
      ∧ handed calm .console 0 = none :=
  ⟨⟨asked _ _ _ rfl, rfl⟩, ⟨asked _ _ _ rfl, rfl⟩, rfl⟩

theorem test_meets_Resets :
    (StoredCopy.blank.mark = false) ∧ (crc32 [] ≠ 1#32) ∧ ((true : Bool) = true ∧ crc32 [] = 0#32 ∧ readSections 0 [] = some [])
      ∧ calm.powered = true ∧ profileOf State.reset = none
      ∧ ((calm.plant.pumps[4 - 1]?).isSome = true ∧ (calm.plant.valves[28]?).isSome = true ∧ calm.plant.valves.length = 29) := by decide +kernel

/-- The output lines of R84 at the ends of their runs: pumps 1 and 4, valves 0, 11, 12, 27 and 28; and the input lines at theirs. -/
theorem test_chain_positions :
    [startPosition 1, startPosition 4, commandPosition 0, commandPosition 11, commandPosition 12, commandPosition 27, commandPosition 28]
        = [0, 3, 4, 15, chainPosition 1 0, chainPosition 1 15, chainPosition 2 0]
      ∧ [runningLine 4, provenLine 1, provenLine 4, limitLine 0 .openLimit, limitLine 7 .openLimit, limitLine 8 .openLimit, limitLine 23 .openLimit].map inputPosition
        = [chainPosition 3 3, chainPosition 3 4, chainPosition 3 7, chainPosition 3 8, chainPosition 3 15, chainPosition 4 0, chainPosition 4 15]
      ∧ [limitLine 24 .openLimit, limitLine 28 .openLimit, limitLine 0 .closedLimit, limitLine 10 .closedLimit, limitLine 11 .closedLimit,
          limitLine 26 .closedLimit, limitLine 27 .closedLimit, limitLine 28 .closedLimit].map inputPosition
        = [chainPosition 5 0, chainPosition 5 4, chainPosition 5 5, chainPosition 5 15, chainPosition 6 0, chainPosition 6 15, chainPosition 7 0, chainPosition 7 1] := by
  decide

/-- A load that closes, writing or not. -/
def closing (w : Bool) : LoadRecord :=
  { sections := [], crc := 0xFFFFFFFF#32, byteCount := 0, closing := some { slot := 0, cr := 0#32, writing := w } }

theorem test_meets_SecondsAndPowerLoss :
    calm.clocks.uptime < 4294967295
      ∧ 4294967295 ≤ ({ calm with clocks := { uptime := 4294967295, call := none } } : State).clocks.uptime
      ∧ (({ calm with profile := .loading (closing true) } : State).profile = .loading (closing true)
          ∧ ∃ c, (closing true).closing = some c ∧ c.writing = true)
      ∧ (∀ r c, calm.profile = .loading r → r.closing = some c → c.writing = false)
      ∧ Instr.uptimeSecond ≠ .powerOn := by
  refine ⟨by decide, by decide, ⟨rfl, _, rfl, rfl⟩, ?_, by decide⟩
  intro r c h
  cases h

/-- A transmission of a slot's reply. -/
def sending (r : Reply) : Transmission := { frame := .class1 (.reply r), wire := [] }

/-- A reply of slot 0, or of no slot. -/
def replyOf (k : Option Nat) : Reply := { slot := k, tag := 0#8, kind := [], outcome := .ok, callState := .inCall, fields := [] }

theorem test_meets_Wrst :
    Asked (asking calm .console .wrst) .console 0 .wrst
      ∧ (let s : State := { calm with wrstPending := true, console := { portWith .wrst with tx := some (sending (replyOf (some 0))) } }
         s.wrstPending = true ∧ s.console.tx = some { frame := .class1 (.reply (replyOf (some 0))), wire := [] } ∧ (replyOf (some 0)).slot = some 0
           ∧ ∃ sl, slotAt s .console 0 = some sl ∧ sl.request = .wrst) :=
  ⟨asked _ _ _ rfl, rfl, rfl, rfl, _, rfl, rfl⟩

/-! ### Witnesses: bytes and links -/

theorem test_meets_FramesAndNumbers :
    ((ascii4 'H' 'Q' 'R' 'Y').length = 4 ∧ ([] : List Byte).length ≤ 1024 ∧ (List.replicate 1024 0#8 : List Byte).length ≤ 1024)
      ∧ (∀ f ∈ [(Field.ST, Val.num 1)], (valBytes f.2).length ≤ 255) ∧ -(2 ^ 63) ≤ (-(2 ^ 63) : Int) ∧ (2 ^ 63 - 1 : Int) < 2 ^ 63 := by
  decide +kernel

theorem test_frame_reads_back : readFrame (frameBytes (ascii4 'G' 'R' 'N' 'T') 3#8 [1#8, 0x5A#8] ++ [9#8])
    = .frame (ascii4 'G' 'R' 'N' 'T') 3#8 [1#8, 0x5A#8] [9#8] := by decide +kernel

theorem test_meets_StoredSections :
    ∃ n, ∀ x ∈ [({ name := .hld, index := 255, data := List.replicate n 0x41#8 } : Sec)], sdLengthOk x.name x.data = true ∧ x.index ≤ 255 :=
  ⟨12, by decide⟩

/-- The console collects from a start byte. -/
def collecting (bytes : List Byte) : State :=
  { calm with console := { Port.initial with rx := { collecting := true, bytes := bytes, lastByteAt := 0 } } }

theorem test_meets_Receiver :
    (Listening calm .console ∧ (portOf calm .console).rx.collecting = false ∧ (∀ b ∈ (portOf calm .console).rx.bytes, b ≠ 0x5A#8)
        ∧ (∀ b ∈ ([0x59#8] : List Byte), b ≠ 0x5A#8) ∧ ([0x59#8] : List Byte) ≠ [])
      ∧ (3 ≤ ([0x5A#8, 0x04#8, 0x01#8] : List Byte).length ∧ 1024 < natOfBytes ((([0x5A#8, 0x04#8, 0x01#8] : List Byte).drop 1).take 2))
      ∧ ((0 : Crc16) ≠ crc16 (natBytes 2 0 ++ ascii4 'H' 'Q' 'R' 'Y' ++ [0#8] ++ []))
      ∧ (Listening (collecting [0x5A#8, 0x04#8]) .console ∧ (portOf (collecting [0x5A#8, 0x04#8]) .console).rx.collecting = true
          ∧ readFrame ((portOf (collecting [0x5A#8, 0x04#8]) .console).rx.bytes ++ [0x01#8]) = .bad)
      ∧ (let s := collecting [0x5A#8]
         readFrame (portOf s .console).rx.bytes = .incomplete ∧ s.clocks.uptime < (portOf s .console).rx.lastByteAt + 2
           ∧ (portOf s .console).rx.lastByteAt + 2 ≤ ({ s with clocks := { uptime := 2, call := none } } : State).clocks.uptime) := by
  refine ⟨⟨by decide, rfl, ?_, ?_⟩, ?_⟩
  · intro b h
    cases h
  all_goals decide +kernel

/-- A frame without a body, its first byte held. -/
def frameOf (kind : List Byte) : List Byte := (frameBytes kind 3#8 []).tail

theorem test_meets_ReceivedFrame :
    let s := collecting [0x5A#8]
    (Listening s .console ∧ (portOf s .console).rx.collecting = true ∧ portRepliesWaiting (portOf s .console) < 8)
      ∧ (∀ kind ∈ [ascii4 'H' 'Q' 'R' 'Y', ascii4 'T' 'A' 'T' 'T', ascii4 'C' 'L' 'K' 'S'],
          frameOf kind ≠ [] ∧ (portOf s .console).rx.bytes ++ frameOf kind = frameBytes kind 3#8 [] ++ [] ∧ kind.length = 4)
      ∧ kindOf .console (ascii4 'T' 'A' 'T' 'T') = none
      ∧ (kindOf .console (ascii4 'H' 'Q' 'R' 'Y') = some .HQRY ∧ freeSlot (portOf s .console) = some 0 ∧ parseBody .HQRY [] = some .hqry)
      ∧ (kindOf .console (ascii4 'C' 'L' 'K' 'S') = some .CLKS ∧ parseBody .CLKS [] = none)
      ∧ freeSlot { Port.initial with slots := List.replicate 8 (some { request := .hqry, kind := .HQRY, tag := 0#8, phase := .handed, arrival := 0 }) } = none
      ∧ (let s : State := { calm with term := { TermLink.initial with state := .lost } }
         s.term.state = .lost ∧ Kind.SREQ ≠ .TATT)
      ∧ 8 ≤ portRepliesWaiting { Port.initial with queue := List.replicate 8 (.reply (replyOf none)) } := by decide +kernel

/-- A report that waits for the console. -/
def report (k : ReportKind) (c t : LinkFlag) : Report :=
  { kind := k, serial := 1, channel := 0, truncated := false, tableLow := false, tableHigh := false, callClock := none, uptime := 0, step := 0,
    items := [], consoleFlag := c, terminalFlag := t }

/-- The call with one report in the queue, and a transmission on the console. -/
def reporting (r : Report) (x : Option Transmission) : State :=
  { calm with reports := { calm.reports with queue := [r] }, console := { Port.initial with tx := x } }

theorem test_meets_Transmitter :
    ({ Port.initial with tx := some (sending (replyOf none)) } : Port).tx ≠ none
      ∧ (calm.console.tx = none ∧ calm.console.queue = [] ∧ calm.attention.owed = [] ∧ ∀ x ∈ calm.reports.queue, linkFlag .console x ≠ .pending)
      ∧ ({ Port.initial with queue := [.reply (replyOf none)] } : Port).queue = .reply (replyOf none) :: []
      ∧ ({ calm with wrstPending := true } : State).wrstPending = true
      ∧ (let s : State := { calm with attention := { Attention.initial with owed := [13] } }
         s.attention.owed = 13 :: [] ∧ (s.attention.conditions[13]?).isSome = true)
      ∧ (let s := reporting (report .step .pending .clear) none
         ¬(∃ x ∈ s.reports.queue, linkFlag .console x = .sending) ∧ s.reports.queue = [] ++ report .step .pending .clear :: []
           ∧ linkFlag .console (report .step .pending .clear) = .pending)
      ∧ (∃ x ∈ (reporting (report .step .pending .sending) none).reports.queue, linkFlag .terminal x = .sending)
      ∧ TermLink.initial.state = .detached := by
  decide +kernel

theorem test_meets_Sent :
    (replyOf (some 7)).slot = some 7 ∧ (replyOf none).slot = none ∧ ¬(Link.console = .console ∧ calm.wrstPending = true) := by decide

theorem test_meets_Deliveries :
    (let s := reporting (report .step .sending .clear) (some { frame := .rprt (report .step .sending .clear) 0, wire := [] })
     s.powered = true ∧ s.call ≠ .closing ∧ s.console.tx = some { frame := .rprt (report .step .sending .clear) 0, wire := [] }
       ∧ s.reports.queue.find? (isSending .console) = some (report .step .sending .clear))
      ∧ calm.reports.queue.find? (isSending .console) = none
      ∧ (let q := report .departure .sending .clear
         q.kind = .departure ∧ isSending .console q = true ∧ (withLinkFlag .console .clear q).consoleFlag = .clear
           ∧ (withLinkFlag .console .clear q).terminalFlag = .clear)
      ∧ (withLinkFlag .console .clear (report .step .sending .pending)).terminalFlag ≠ .clear
      ∧ (let q := report .departure .sending .pending
         let s : State := { reporting q (some { frame := .rprt q 0, wire := [] }) with call := .closing, term := TermLink.initial }
         s.call = .closing ∧ s.reports.queue = [q] ∧ isSending .console q = true ∧ (withLinkFlag .console .clear q).consoleFlag = .clear
           ∧ (withLinkFlag .console .clear q).terminalFlag ≠ .clear ∧ s.term.state = .detached ∧ calm.term.state ≠ .detached)
      ∧ (isSending .console (report .departure .pending .pending) = false ∧ (report .departure .pending .pending).consoleFlag ≠ .clear) := by decide +kernel

/-- A delivery of the outstanding STEP report, with a step WAITING for it (R141, R145, R177). -/
theorem test_meets_RecordLeaves :
    let q := report .step .sending .clear
    let s : State := { reporting q (some { frame := .rprt q 0, wire := [] }) with
      pour := { calm.pour with plan := [{ stepIn .waiting with waitReason := some .report }], outstanding := some q.serial } }
    s.reports.queue.find? (isSending .console) = some q ∧ s.pour.outstanding = some q.serial ∧ s.call ≠ .closing
      ∧ (withLinkFlag .console .clear q).consoleFlag = .clear ∧ (withLinkFlag .console .clear q).terminalFlag = .clear
      ∧ (deliver .console s).pour.outstanding = none
      ∧ (deliver .console s).pour.plan.map (fun y => (y.state, y.waitReason)) = [(.evaluating, some .report)] := by decide +kernel

/-! ### Witnesses: profile and call -/

/-- The part idle with the ship's profile. -/
def idleCall : State := { calm with call := .idle }

/-- The part with a load under way. -/
def loading (r : LoadRecord) : State := { State.reset with profile := .loading r }

theorem test_meets_Popn :
    (Asked (asking State.reset .console .popn) .console 0 .popn ∧ State.reset.profile = .empty)
      ∧ ((loading LoadRecord.fresh).profile = .loading LoadRecord.fresh ∧ LoadRecord.fresh.closing = none)
      ∧ ((loading (closing false)).profile = .loading (closing false) ∧ (closing false).closing.isSome = true)
      ∧ (calm.profile = .valid ship ∧ calm.call ≠ .idle) ∧ idleCall.profile = .valid ship ∧ idleCall.call = .idle :=
  ⟨⟨asked _ _ _ rfl, rfl⟩, ⟨rfl, rfl⟩, ⟨rfl, rfl⟩, ⟨rfl, by decide⟩, rfl, rfl⟩

theorem test_meets_Pdat :
    Asked (asking (loading LoadRecord.fresh) .console (.pdat (secAscii .hld) 9 [])) .console 0 (.pdat (secAscii .hld) 9 [])
      ∧ secOf [] = none ∧ secOf (secAscii .hld) = some .hld ∧ indexRange .hld = (1, 9) ∧ sdLengthOk .hld [] = false
      ∧ (∃ n, sdLengthOk .hld (List.replicate n 0#8) = true) ∧ (∃ x ∈ [({ name := .hld, index := 9, data := [] } : Sec)], x.name = .hld ∧ x.index = 9)
      ∧ (∀ r, State.reset.profile ≠ .loading r) ∧ (closing false).closing ≠ none := by
  refine ⟨asked _ _ _ rfl, by decide, by decide, by decide, by decide, ⟨12, by decide⟩, by decide, ?_, by decide⟩
  intro r h
  cases h

/-- Three requests of the profile store: the slots hold the later PDAT, the earlier PDAT and the PCLS, which arrived last. -/
def storing : State :=
  let sl := fun (r : Request) (k : Kind) (n : Nat) => some ({ request := r, kind := k, tag := 0#8, phase := .handed, arrival := n } : Slot)
  { loading LoadRecord.fresh with
    console := { Port.initial with
      slots := [sl (.pdat (secAscii .frm) 1 (List.replicate 28 0#8)) .PDAT 1, sl (.pdat (secAscii .hld) 1 (List.replicate 12 0#8)) .PDAT 0,
          sl (.pcls 0#32) .PCLS 2] ++ List.replicate 5 none } }

/-- The names of the sections accepted so far. -/
def acceptedNames (s : State) : List SecName :=
  match s.profile with
  | .loading r => r.sections.map Sec.name
  | _ => []

/-- The later PDAT and the PCLS wait for the earlier PDAT, wherever they stand (R12, log 51); a request that comes in then has a higher number. -/
theorem test_store_serves_in_order_of_arrival :
    exec (.pdat 0) storing = .next storing ∧ exec (.pcls 2) storing = .next storing
      ∧ (handed storing .console 1 = some (.pdat (secAscii .hld) 1 (List.replicate 12 0#8)) ∧ handed storing .console 0 = none)
      ∧ nextArrival storing.console = 3 :=
  ⟨congrArg Host.Outcome.next (by decide +kernel), congrArg Host.Outcome.next (by decide +kernel), by decide +kernel, by decide +kernel⟩

theorem test_meets_PdatOrder :
    ∃ x y, slotAt storing .console 0 = some x ∧ slotAt storing .console 1 = some y ∧ (∃ sn xi sd, x.request = .pdat sn xi sd)
      ∧ (∃ sn xi sd, y.request = .pdat sn xi sd) ∧ y.phase = .handed ∧ y.arrival < x.arrival :=
  ⟨_, _, rfl, rfl, ⟨_, _, _, rfl⟩, ⟨_, _, _, rfl⟩, rfl, by decide⟩

/-- The sections of two accepted PDATs stand in the order of arrival (R12). -/
theorem test_sections_in_order_of_arrival :
    let first := fun s : State => pdat 1 (secAscii .hld) 1 (List.replicate 12 0#8) s
    exec (.pdat 1) storing = .next (first storing)
      ∧ exec (.pdat 0) (first storing) = .next (pdat 0 (secAscii .frm) 1 (List.replicate 28 0#8) (first storing))
      ∧ acceptedNames (pdat 0 (secAscii .frm) 1 (List.replicate 28 0#8) (first storing)) = [.hld, .frm] :=
  ⟨congrArg Host.Outcome.next (by decide +kernel), congrArg Host.Outcome.next (by decide +kernel), by decide +kernel⟩

theorem test_meets_LoadCloses :
    (Asked (asking (loading LoadRecord.fresh) .console (.pcls 0#32)) .console 0 (.pcls 0#32))
      ∧ (~~~(closing false).crc = 0#32 ∧ ~~~(closing false).crc ≠ 1#32) ∧ (∃ n i, firstFailure (closing false).sections = some (n, i))
      ∧ (crc32 [] = 0#32 ∧ crc32 [0#8] ≠ 0#32) ∧ (closing true).closing = some { slot := 0, cr := 0#32, writing := true } := by
  refine ⟨asked _ _ _ rfl, by decide, ⟨.gen, 0, by decide +kernel⟩, by decide +kernel, rfl⟩

/-- The least ship that the checks of R4 to R9 accept: one tank, one hold, one frame, two rows. -/
def sections : List Sec :=
  let n := fun (w x : Nat) => natBytes w x
  [ { name := .gen, index := 0, data := n 4 1 ++ n 4 40000 ++ n 1 1 ++ n 1 1 ++ n 1 1 ++ n 1 2 },
    { name := .tnk, index := 0, data := List.replicate 4 0x41#8 ++ n 1 1 ++ n 4 0 ++ n 2 30000 ++ n 2 29999 ++ n 2 1050 ++ n 2 2000 ++ n 1 31 },
    { name := .snd, index := 0, data := n 1 2 ++ n 2 0 ++ n 4 0 ++ n 2 30000 ++ n 4 1000000 },
    { name := .hld, index := 1, data := List.replicate 4 0x7E#8 ++ n 4 40000 ++ n 4 150000 },
    { name := .frm, index := 1, data := n 4 40000 ++ List.replicate 8 0#8 ++ n 4 1 ++ n 4 99999999 ++ n 4 1 ++ n 4 999999999 },
    { name := .ksf, index := 1, data := List.replicate 66 0#8 },
    { name := .kbm, index := 1, data := List.replicate 66 0#8 },
    { name := .hyd, index := 0, data := n 4 1 ++ n 2 30000 ++ n 4 0 ++ n 4 1 },
    { name := .hyd, index := 1, data := n 4 400000 ++ n 2 30000 ++ n 4 0 ++ n 4 2000000 } ]

/-- The structural checks on that ship, without one of its sections, and with one too many (R4 to R9, R13). -/
theorem test_meets_Checks :
    (∀ x ∈ sections, sdLengthOk x.name x.data = true)
      ∧ firstFailure sections = none
      ∧ firstFailure [] = some (.gen, 0)
      ∧ firstFailure (sections.drop 1) = some (.gen, 0)
      ∧ firstFailure (sections.filter fun x => x.name != .hyd || x.index != 1) = some (.hyd, 1)
      ∧ firstFailure ({ name := .hld, index := 9, data := List.replicate 12 0x41#8 } :: sections) = some (.hld, 9) := by decide +kernel

/-- The profile in force holds the fields of those sections (R4 to R9). -/
theorem test_profile_from_sections :
    let p := profileFrom sections
    [p.w0, p.x0, p.tanks.length, p.holds.length, p.frames.length, p.rows.length] = [1, 40000, 1, 1, 1, 2]
      ∧ (p.tanks[0]?).map (fun d => [d.maxLevel, d.minLevel, d.density, d.allowance]) = some [30000, 29999, 1050, 2000]
      ∧ (p.tanks[0]?).map TankData.channel = some (some 31) ∧ (p.tanks[0]?).map TankData.main = some .stbd
      ∧ (p.tanks[0]?).map TankData.points = some [⟨0, 0⟩, ⟨30000, 1000000⟩] := by decide +kernel

/-- PCLS is answered OK in NO_PROFILE, and the call state is IDLE after it (R14, R17). -/
theorem test_pcls_answers_before_the_announcement :
    (let s : State := { asking State.reset .console (.pcls 0#32) with profile := .loading (closing true) }
     let t := writeEnd [] s
     t.call = .idle ∧ t.console.queue = [.reply { slot := some 0, tag := 7#8, kind := kindAscii .HQRY, outcome := .ok, callState := .noProfile, fields := [] }]) := by
  decide +kernel

theorem test_meets_Copn :
    (Asked (asking calm .console .copn) .console 0 .copn ∧ calm.call ≠ .idle)
      ∧ (Asked (asking idleCall .console .copn) .console 0 .copn ∧ idleCall.call = .idle ∧ idleCall.engine.running = none
          ∧ idleCall.engine.previews = [] ∧ idleCall.profile = .valid ship) :=
  ⟨⟨asked _ _ _ rfl, by decide⟩, asked _ _ _ rfl, rfl, rfl, rfl, rfl⟩

theorem test_meets_Cend :
    (Asked (asking idleCall .console .cend) .console 0 .cend ∧ idleCall.call ≠ .inCall)
      ∧ (some (order 1 .queued) ∈ (ordered (order 1 .queued)).orders.slots ∧ (order 1 .queued).state ≠ .done)
      ∧ (stepIn .settling ∈ (planned (stepIn .settling)).pour.plan ∧ (stepIn .settling).state = .settling)
      ∧ (Asked (asking calm .console .cend) .console 0 .cend ∧ calm.call = .inCall ∧ calm.reports.counter = some 0
          ∧ (∀ o, some o ∈ calm.orders.slots → o.state = .done ∨ o.state = .failed ∨ o.state = .cancelled)
          ∧ ∀ st ∈ calm.pour.plan, st.state ≠ .pouring ∧ st.state ≠ .halted ∧ st.state ≠ .settling) :=
  ⟨⟨asked _ _ _ rfl, by decide⟩, ⟨List.mem_cons_self, by decide⟩, ⟨List.mem_cons_self, rfl⟩, asked _ _ _ rfl, rfl, rfl,
    fun _ h => (calm_no_order h).elim, fun _ h => by cases h⟩

/-- A reply that each slot of a link is sent, as its outcomes. -/
def outcomes (p : Port) : List (Option Nat × Oc × CallState) :=
  p.queue.filterMap fun f => match f with
    | .reply r => some (r.slot, r.outcome, r.callState)
    | .unsolicited _ => none

/-- The part with PREVs of slots 1 and 2, the first running, and a request in slot 0. -/
def previewing (s : State) (r : Request) : State :=
  let waiting : Option Slot := some { request := .prev [], kind := .PREV, tag := 1#8, phase := .taken, arrival := 0 }
  { s with
    console := { Port.initial with
      slots := [some { request := r, kind := .CEND, tag := 7#8, phase := .handed, arrival := 0 }, waiting, waiting] ++ List.replicate 5 none }
    engine := { Engine.initial with
      running := some { kind := .preview { requester := .console 1, overrides := [] } none, inputs := latch s ship }
      previews := [{ requester := .console 2, overrides := [] }] } }

/-- CEND and POPN with previews of PREVs, and CEND with an SREQ pending: each is answered STATE before the request itself (R72, R144, R157). -/
theorem test_withdrawn_requests_are_answered :
    let s : State := { previewing calm .cend with
      terminal := { portWith (.sreq 1) with slots := some { request := .sreq 1, kind := .SREQ, tag := 2#8, phase := .taken, arrival := 0 } :: List.replicate 7 none }
      pour := { calm.pour with plan := [{ stepIn .evaluating with replyPending := some 0 }] } }
    outcomes (cend 0 s).console = [(some 1, .state, .closing), (some 2, .state, .closing), (some 0, .ok, .closing)]
      ∧ outcomes (cend 0 s).terminal = [(some 0, .state, .closing)]
      ∧ outcomes (popn 0 (previewing idleCall .popn)).console = [(some 1, .state, .noProfile), (some 2, .state, .noProfile), (some 0, .ok, .noProfile)] := by
  decide +kernel

theorem test_meets_ClockAndSettings :
    (Asked (asking calm .console (.clks 2147483647)) .console 0 (.clks (2147483647 : Nat)) ∧ (2147483647 : Nat) ≤ 2147483647)
      ∧ (Asked (asking calm .console (.clks (-1))) .console 0 (.clks (-1)) ∧ ((-1 : Int) < 0 ∨ (2147483647 : Int) < -1))
      ∧ (Asked (asking calm .console (.setp [(.TN, 300), (.SC, 1)])) .console 0 (.setp [(.TN, 300), (.SC, 1)])
          ∧ ([((.TN : Field), (300 : Int)), (.SC, 1)].map Prod.fst).Nodup ∧ ∀ fv ∈ [((.TN : Field), (300 : Int)), (.SC, 1)], fv.1 ∈ settingFields) :=
  ⟨⟨asked _ _ _ rfl, by decide⟩, ⟨asked _ _ _ rfl, by decide⟩, asked _ _ _ rfl, by decide, by decide⟩

/-- SETP refuses a TN that reaches TX and clamps a value (R26). -/
theorem test_setp : (putAll calm.settings [(.TN, 300)]).tx ≤ (putAll calm.settings [(.TN, 300)]).tn ∧ clampSetting .DB 2559 = 2550
    ∧ clampSetting .DB 19 = 10 := by decide

/-! ### Witnesses: gauging -/

/-- The call with a scan timer that is due, and a round of its own. -/
def scanning (r : Option Round) : State := { calm with gauge := { calm.gauge with timer := some 0, round := r } }

/-- The call with the record of tank 0 in another gauge state. -/
def gauged (g : GaugeState) : State :=
  { calm with tanks := (Tank.initial (tank .port (some 0))) |> fun t => { t with gauge := g } :: (ship.tanks.drop 1).map Tank.initial }

theorem test_meets_ScanRounds :
    (calm.gauge.timer = none ∧ due calm.gauge.timer 0 = false)
      ∧ (let s := scanning none; due s.gauge.timer s.clocks.uptime = true ∧ s.gauge.round = none ∧ mappedChannels s.tanks ≠ [])
      ∧ mappedChannels ({ scanning none with tanks := [] } : State).tanks = []
      ∧ (let s := scanning (some { channels := [0, 1], position := 1 })
         s.gauge.round = some { channels := [0, 1], position := 1 } ∧ ([0, 1] : List Nat)[1]? = some 1
           ∧ s.gauge.channels[1]? = some Channel.initial ∧ tankOnChannel s.tanks 1 = some 2 ∧ (tankData s 2).isSome = true ∧ (s.tanks[2]?).isSome = true)
      ∧ tankOnChannel calm.tanks 31 = none
      ∧ (classify calm.settings (tank .port (some 0)) Channel.initial 3000).isSome = true
      ∧ classify calm.settings (tank .port (some 0)) Channel.initial 2999 = none
      ∧ ((gauged .withdrawn).tanks[0]?.map Tank.gauge = some .withdrawn ∧ (gauged .normal).tanks[0]?.map Tank.gauge = some .normal) := by
  decide +kernel

/-- The call with a hold under ESTIMATE and the link QUIET. -/
def estimated (oa : Int) (tally : Nat) : State :=
  { planned { stepIn .pouring with lastTally := some tally } with
    term := { TermLink.initial with state := .quiet }
    settings := { Settings.default with oa := oa }
    pour := { calm.pour with
      plan := [{ stepIn .pouring with lastTally := some tally }]
      holds := modAt calm.pour.holds 0 fun h => { h with mass := tally, source := .estimate, latest := some ⟨tally, 0⟩, estimate := some tally } } }

/-- A round's end keeps the estimate at the overshoot limit of 1,000 t and returns the hold to TALLY above it (R156; log 41). -/
theorem test_estimate_ends_above_the_limit :
    (holdRec (recomputeEstimate (estimated 0 1000)) 1).map (fun h => (h.mass, h.source)) = some (1000, .estimate)
      ∧ (holdRec (recomputeEstimate (estimated 0 1001)) 1).map (fun h => (h.mass, h.source, h.estimate)) = some (1001, .tally, none) := by decide +kernel

theorem test_meets_RoundEnds :
    (let s := estimated 0 1000
     s.term.state = .quiet ∧ currentStep s = some { stepIn .pouring with lastTally := some 1000 } ∧ (stepIn .pouring).base = some 0
       ∧ (holdRec s 1).isSome = true ∧ SettingsOk s.settings ∧ ((1000 : Int) * (100 + s.settings.oa) / 100).toNat = 1000)
      ∧ (calm.term.state = .up ∧ ∀ y, currentStep calm = some y → y.state ≠ .pouring ∧ y.state ≠ .halted)
      ∧ (∀ o, some o ∈ calm.orders.slots → needs o 0 = true → terminalState o.state = true)
      ∧ (let o := order 1 .active
         let s := ordered o
         OrdersOk s.orders ∧ some o ∈ s.orders.slots ∧ needs o 0 = true ∧ terminalState o.state = false ∧ o.tank = 0
           ∧ (∀ x, some x ∈ s.orders.slots → needs x 0 = true → terminalState x.state = false → x = o)
           ∧ ¬((o.targetLevel : Int) - s.settings.sl ≤ levelOf s o.tank)
           ∧ (({ o with targetLevel := 0 } : Order).targetLevel : Int) - s.settings.sl ≤ levelOf s o.tank)
      ∧ ((order 1 .admitting).state = .admitting ∧ (order 1 .queued).state = .queued ∧ (order 1 .stopping).state = .stopping) := by
  refine ⟨⟨rfl, rfl, rfl, rfl, ?_, by decide⟩, ⟨rfl, fun y h => by cases h⟩, fun o h => (calm_no_order h).elim,
    ⟨ordersOk_of (by decide +kernel) (by decide +kernel), List.mem_cons_self, rfl, rfl, rfl, fun x h _ _ => ordered_only h, by decide +kernel⟩, by decide⟩
  unfold SettingsOk
  decide +kernel

/-- Readings at the ends of their ranges, the score's threshold and its top (R32, R40, R41). -/
theorem test_meets_Readings :
    let t := Tank.initial (tank .port (some 0))
    ((2999 : Int) < calm.settings.ra ∧ calm.settings.ra ≤ 3000 ∧ (64500 : Int) ≤ calm.settings.rb)
      ∧ ({ t with score := 247 } : Tank).score + 8 ≤ 255 ∧ 255 < ({ t with score := 248 } : Tank).score + 8
      ∧ (badReading { t with score := 120 }).gauge = .suspect ∧ (badReading { t with score := 248 }).gauge = .withdrawn
      ∧ ({ t with reinstatement := 126 } : Tank).reinstatement < 127 ∧ 127 ≤ ({ t with reinstatement := 127 } : Tank).reinstatement := by
  decide +kernel

theorem test_meets_Allowance :
    (let t := { Tank.initial (tank .port (some 0)) with source := .gauge }; t.source = .gauge ∧ t.gauge = .normal)
      ∧ (let t := { Tank.initial (tank .port none) with source := .manual }; t.source = .manual ∧ t.gauge = .unmapped)
      ∧ (Tank.initial (tank .port none)).source = .frozen
      ∧ tankAllowance (tank .port none) (Tank.initial (tank .port none)) = 60
      ∧ ship.tanks[2]? = some (tank .stbd (some 1)) ∧ (calm.tanks[2]?).isSome = true := by decide +kernel

/-- Holds under each source, the first and the last (R52). -/
theorem test_meets_HoldAllowance :
    (let s := estimated 0 1000
     let y := { stepIn .pouring with lastTally := some 1000 }
     ship.holds[1 - 1]?.isSome = true ∧ (s.pour.holds[1 - 1]?).map Hold.source = some .estimate ∧ currentStep s = some y
       ∧ y.hold = 1 ∧ y.base = some 0 ∧ y.lastTally = some 1000)
      ∧ ((List.replicate 9 (ship.holds.headD { name := [], lcg := 0, capacity := 0 }))[9 - 1]?.isSome = true
          ∧ (calm.pour.holds[9 - 1]?).map Hold.source = some .tally)
      ∧ ({ Hold.initial with source := .corrected } : Hold).source = .corrected := by decide +kernel

theorem test_meets_Volumes :
    pointsRise ([] ++ ⟨0, 0⟩ :: ⟨100, 50⟩ :: [⟨200, 200⟩]) = true ∧ (0 < 1 ∧ 99 < 100) ∧ pointsRise ([⟨0, 0⟩] ++ [⟨100, 50⟩]) = true ∧ 100 < 101 := by
  decide

/-- A sounding table that begins above 0 and has a flat segment. -/
def flat : TankData := { tank .port none with points := [⟨0, 10⟩, ⟨50, 10⟩, ⟨100, 60⟩] }

/-- Target volumes below the table, on its flat segment, at its last point, between points and above it (R39). -/
theorem test_meets_LevelForAMass :
    (0 < 1000 ∧ pointsRise flat.points = true ∧ flat.points.head? = some (⟨0, 10⟩ : SndPoint) ∧ flat.points.getLast? = some (⟨100, 60⟩ : SndPoint))
      ∧ ([0, 1, 6, 7].map fun (m : Int) => roundHalfUp (m * 10000) 1000) = [0, 10, 60, 70]
      ∧ (flat.points = [] ++ (⟨0, 10⟩ : SndPoint) :: ⟨50, 10⟩ :: [⟨100, 60⟩] ∧ (∀ q ∈ (([] : List SndPoint) ++ [(⟨0, 10⟩ : SndPoint)]).tail, (q.volume : Int) < 10))
      ∧ (flat.points = [(⟨0, 10⟩ : SndPoint)] ++ ⟨50, 10⟩ :: ⟨100, 60⟩ :: []
          ∧ (∀ q ∈ ([(⟨0, 10⟩ : SndPoint)] ++ [(⟨50, 10⟩ : SndPoint)]).tail, (q.volume : Int) < 11))
      ∧ ([0, 1, 2, 6, 7].map (levelFor flat 1000)) = [0, 0, 60, 100, 10000] := by decide +kernel

theorem test_meets_Gcal :
    (Asked (asking calm .console (.gcal 32 none none none)) .console 0 (.gcal 32 none none none) ∧ calm.call ≠ .noProfile ∧ (31 : Int) < 32)
      ∧ Asked (asking calm .console (.gcal 0 none (some 0) none)) .console 0 (.gcal 0 none (some 0) none)
      ∧ (Asked (asking calm .console (.gcal 0 none none (some 5001))) .console 0 (.gcal 0 none none (some 5001)) ∧ (5000 : Int) < 5001)
      ∧ (Asked (asking calm .console (.gcal 31 (some 65535) (some 1) (some (-5000)))) .console 0 (.gcal (31 : Nat) (some 65535) (some 1) (some (-5000)))
          ∧ calm.gauge.channels[31]? = some Channel.initial ∧ calm.gauge.round = none ∧ tankOnChannel calm.tanks 31 = none
          ∧ tankOnChannel calm.tanks 0 = some 0 ∧ (scanning (some { channels := [0], position := 0 })).gauge.round ≠ none)
      ∧ Asked (asking calm .console (.gcal 0 (some 65536) (some (-1)) none)) .console 0 (.gcal (0 : Nat) (some 65536) (some (-1)) none) :=
  ⟨⟨asked _ _ _ rfl, by decide⟩, asked _ _ _ rfl, ⟨asked _ _ _ rfl, by decide⟩, ⟨asked _ _ _ rfl, by decide +kernel⟩, asked _ _ _ rfl⟩

/-- A zero code and a gain outside their ranges pass the tests of GCAL (R31). -/
theorem test_gcal_accepts_what_it_does_not_test :
    gcalTests 31 (some (-1)) none = some 31 ∧ gcalTests 31 (some 65536) (some 5000) = some 31 ∧ gcalTests 31 (some 0) none = none := by decide

theorem test_meets_Tmap :
    (Asked (asking calm .console (.tmap 3 0)) .console 0 (.tmap 3 0) ∧ tankData calm 3 = none)
      ∧ (Asked (asking calm .console (.tmap 0 32)) .console 0 (.tmap 0 32) ∧ (31 : Int) < 32 ∧ (32 : Int) ≠ 255)
      ∧ (tankOnChannel calm.tanks 1 = some 2 ∧ (2 : Nat) ≠ 0)
      ∧ ((calm.tanks[0]?).map Tank.channel = some (some 0) ∧ (calm.tanks[1]?).map Tank.channel = some none)
      ∧ tankOnChannel calm.tanks 31 = none ∧ (tankData calm 0).isSome = true
      ∧ (remap none (Tank.initial (tank .port (some 0)))).gauge = .unmapped :=
  ⟨⟨asked _ _ _ rfl, by decide +kernel⟩, ⟨asked _ _ _ rfl, by decide⟩, by decide +kernel⟩

theorem tanksOk_initial (ds : List TankData) : TanksOk (ds.map Tank.initial) := by
  intro t ht
  obtain ⟨d, -, rfl⟩ := List.mem_map.1 ht
  unfold TankOk Tank.initial
  cases d.channel <;> simp

/-- A request to change the map or a calibration while an ACTIVE order needs the tank, with and without a round (R28, R29, R31, R33, R123). -/
theorem test_meets_GaugeChange :
    (let s := asking (ordered (order 1 .active)) .console (.tmap 0 255)
     Asked s .console 0 (.tmap 0 255) ∧ s.call = .inCall ∧ TanksOk s.tanks ∧ OrdersOk s.orders ∧ s.gauge.round = none
       ∧ (s.tanks[0]?).map Tank.channel = some (some 0) ∧ some (order 1 .active) ∈ s.orders.slots ∧ (order 1 .active).tank = 0)
      ∧ (let s := asking { ordered (order 1 .active) with gauge := { calm.gauge with round := some { channels := [0, 1], position := 1 } } } .console (.tmap 1 31)
         Asked s .console 0 (.tmap 1 31) ∧ TanksOk s.tanks ∧ OrdersOk s.orders ∧ tankOnChannel s.tanks 31 = none
           ∧ mappedChannels (modAt s.tanks 1 fun x => remap (some 31) x) ≠ [])
      ∧ (let s := asking (ordered (order 1 .active)) .console (.gcal 0 none none none)
         Asked s .console 0 (.gcal (0 : Nat) none none none) ∧ OrdersOk s.orders ∧ tankOnChannel s.tanks 0 = some 0) := by
  refine ⟨⟨asked _ _ _ rfl, rfl, tanksOk_initial _, ordersOk_of (by decide +kernel) (by decide +kernel), rfl, rfl, List.mem_cons_self, rfl⟩,
    ⟨asked _ _ _ rfl, tanksOk_initial _, ordersOk_of (by decide +kernel) (by decide +kernel), by decide +kernel⟩,
    asked _ _ _ rfl, ordersOk_of (by decide +kernel) (by decide +kernel), by decide +kernel⟩

/-- The order that an outcome's state holds under an id. -/
def orderAfter (r : Host.Outcome State Fault Refusal) (id : Nat) : Option Order :=
  match r with
  | .next t => orderById t id
  | _ => none

/-- TMAP to NONE sends the gauge-lost notice: an ACTIVE order that is not MANUAL stops with NO_GAUGE (R33, R127). -/
theorem test_tmap_to_none :
    (orderAfter (exec (.tmap 0) (asking (ordered (order 1 .active)) .console (.tmap 0 255))) 1).map (fun o => (o.state, o.reason))
      = some (.stopping, some .noGauge) := by decide +kernel

theorem test_meets_DensityAndSounding :
    (Asked (asking calm .console (.dens 23 1000)) .console 0 (.dens 23 1000) ∧ tankData calm 23 = none ∧ calm.call ≠ .noProfile)
      ∧ (Asked (asking calm .console (.dens 2 1051)) .console 0 (.dens 2 1051) ∧ (tankData calm 2).isSome = true ∧ (calm.tanks[2]?).isSome = true)
      ∧ (Asked (asking calm .console (.sndg 1 10500)) .console 0 (.sndg 1 10500) ∧ (calm.tanks[1]?).map Tank.gauge = some .unmapped
          ∧ (10500 : Nat) ≤ (tank .port none).maxLevel + 500)
      ∧ ((tank .port none).maxLevel : Int) + 500 < 10501 ∧ (calm.tanks[0]?).map Tank.gauge = some .normal :=
  ⟨⟨asked _ _ _ rfl, by decide +kernel⟩, ⟨asked _ _ _ rfl, by decide +kernel⟩, ⟨asked _ _ _ rfl, by decide +kernel⟩, by decide +kernel⟩

theorem test_meets_Queries :
    (Asked (asking calm .console (.gqry none none)) .console 0 (.gqry none none) ∧ (none : Option Int).isSome = (none : Option Int).isSome)
      ∧ (Asked (asking calm .console (.gqry (some 2) none)) .console 0 (.gqry (some 2) none) ∧ tankData calm 2 ≠ none ∧ calm.tanks[2]? ≠ none
          ∧ tankData calm 3 = none)
      ∧ (Asked (asking calm .console (.gqry none (some 31))) .console 0 (.gqry none (some 31)) ∧ (31 : Int) < 32)
      ∧ Asked (asking calm .console .hqry) .console 0 .hqry ∧ Asked (asking calm .console .aqry) .console 0 .aqry
      ∧ (Asked (asking (ordered (order 255 .queued)) .console (.oqry (some 255))) .console 0 (.oqry (some (order 255 .queued).id))
          ∧ OrdersOk (ordered (order 255 .queued)).orders ∧ some (order 255 .queued) ∈ (ordered (order 255 .queued)).orders.slots)
      ∧ (∀ o, some o ∈ calm.orders.slots → (1 : Int) ≠ o.id)
      ∧ (Asked (asking (planned (stepIn .planned)) .terminal (.sqry (some 1))) .terminal 0 (.sqry (some 1))
          ∧ 1 ≤ (planned (stepIn .planned)).pour.plan.length ∧ ((planned (stepIn .planned)).pour.plan.length : Int) < 2)
      ∧ (Asked (asking calm .console (.xovr none)) .console 0 (.xovr none) ∧ calm.call ≠ .noProfile) :=
  ⟨⟨asked _ _ _ rfl, rfl⟩, ⟨asked _ _ _ rfl, by decide +kernel⟩, ⟨asked _ _ _ rfl, by decide⟩, asked _ _ _ rfl, asked _ _ _ rfl,
    ⟨asked _ _ _ rfl, ordersOk_of (by decide +kernel) (by decide +kernel), List.mem_cons_self⟩, fun _ h => (calm_no_order h).elim,
    ⟨asked _ _ _ rfl, by decide⟩, asked _ _ _ rfl, by decide⟩

/-- The records that the queries read: a tank, a channel, a step with hold and name, a condition, four pumps (R46, R106, R131, R165, R186). -/
theorem test_meets_QueryFields :
    ((tankData calm 2).isSome = true ∧ (calm.tanks[2]?).isSome = true ∧ calm.gauge.channels[31]? = some Channel.initial)
      ∧ (tankOnChannel calm.tanks 1 = some 2 ∧ tankOnChannel calm.tanks 31 = none)
      ∧ ((holdRec calm 1).isSome = true ∧ (holdData calm 1).isSome = true ∧ (stepIn .planned).hold = 1)
      ∧ (calm.attention.conditions[13]?).isSome = true ∧ calm.plant.pumps = [Pump.initial, Pump.initial, Pump.initial, Pump.initial] := by decide +kernel

/-! ### Witnesses: hull and previews -/

theorem test_meets_Roundings : (0 : Int) < 2 ∧ (0 : Int) ≤ 0 ∧ (-1 : Int) < 0 := by decide

/-- The latched inputs of the calm ship. -/
def inputs : Inputs := latch calm ship

/-- An evaluation of the calm ship: displacement, peak from the trim check, band (R54, R64 to R66). -/
theorem test_evaluation :
    let r := evaluate true inputs 900
    r.displacement = 5000 ∧ r.ballast = 0 ∧ r.cargo = 0 ∧ r.peak = 714 ∧ r.peakSource = .trim ∧ r.band = .green := by decide +kernel

theorem test_meets_Evaluations :
    ship.tanks.length ≤ 24 ∧ ship.frames[0]?.isSome = true ∧ (ship.frames.length ≤ 1 ∧ 1 < 12)
      ∧ ([] ++ ship.rows.headD ⟨0, 0, 0, 0⟩ :: ship.rows.drop 1).Pairwise (fun (a b : HydRow) => a.displacement < b.displacement)
      ∧ ((999 : Int) < 1000 ∧ (1000 : Int) < 1001 ∧ (89999 : Int) < 90000 ∧ (90000 : Int) < 90001) := by decide +kernel

/-- The hydrostatic table below, at, between and above its rows (R56, R57). -/
theorem test_hydrostatics :
    [999, 1000, 45500, 90000, 90001].map (fun d => let h := hydroAt ship.rows d; (h.meanDraft, h.low, h.high))
      = [(500, true, false), (500, false, false), (700, false, false), (900, false, false), (900, false, true)] := by decide +kernel

theorem test_meets_EngineLatches :
    ((32 : Nat) < 33) ∧ calm.engine.running = none ∧ calm.profile = .valid ship ∧ State.reset.call ≠ .inCall
      ∧ (calm.engine.pendingLive = false ∧ calm.engine.previews = []) ∧ LastKind.live ≠ .preview
      ∧ ({ Engine.initial with previews := [{ requester := .console 0, overrides := [] }], lastKind := .preview } : Engine).lastKind = .preview := by
  decide +kernel

/-- The call with an evaluation running. -/
def evaluating (k : EvalKind) : State := { calm with engine := { Engine.initial with running := some { kind := k, inputs := inputs } } }

theorem test_meets_LiveResults :
    (∀ m i, calm.engine.running ≠ some { kind := .live m, inputs := i })
      ∧ (evaluating (.live false)).engine.running = some { kind := .live false, inputs := inputs }
      ∧ (let i := { inputs with tn := -1000, tx := 1000 }; (evaluate true i 900).band ≠ .red ∧ (evaluate true i 900).peak ≤ calm.settings.rs)
      ∧ (let i := { inputs with dl := 518 }; (evaluate true i 900).band ≠ .red ∧ calm.settings.rs < (evaluate true i 900).peak)
      ∧ ((evaluate true { inputs with dl := 517 } 900).band = .red ∧ calm.hull.stop = .clear) := by
  refine ⟨fun m i h => (by cases h), rfl, ?_⟩
  decide +kernel

theorem test_meets_RedResult :
    let s : State := { planned (stepIn .pouring) with engine := { Engine.initial with running := some { kind := .live false, inputs := { inputs with dl := 517 } } } }
    s.powered = true ∧ s.engine.running = some { kind := .live false, inputs := { inputs with dl := 517 } } ∧ PourOk s.pour
      ∧ (evaluate true { inputs with dl := 517 } s.settings.wt).band = .red ∧ s.hull.stop = .clear
      ∧ currentStep s = some (stepIn .pouring) ∧ (stepIn .pouring).state = .pouring :=
  ⟨rfl, rfl, planned_pourOk _ rfl, by decide +kernel, rfl, rfl, rfl⟩

/-- A step REPORTING, alone in the plan or behind one that is DONE, and a plan without one (R155). -/
theorem test_meets_Reported :
    (∀ y ∈ (planned (stepIn .settling)).pour.plan, y.state ≠ .reporting)
      ∧ (let y := stepIn .reporting
         (planned y).pour.plan = [] ++ y :: [] ∧ (∀ z ∈ ([] : List Step), z.state ≠ .reporting) ∧ y.state = .reporting)
      ∧ (let y := { stepIn .reporting with number := 2 }
         ([stepIn .done, y] : List Step) = [stepIn .done] ++ y :: [] ∧ ∀ z ∈ [stepIn .done], z.state ≠ .reporting)
      ∧ (calm.reports.counter = some 0 ∧ 0 < 65534 ∧ State.reset.reports.counter = none)
      ∧ (evaluating (.live true)).engine.running = some { kind := .live true, inputs := inputs } := by decide +kernel

/-- Hull clear returns a SUSPENDED order to QUEUED, or keeps it with HELD under a window (R128, R129). -/
theorem test_meets_HullSignals :
    (let o := { order 1 .suspended with reason := some .hull }
     let s := ordered o
     OrdersOk s.orders ∧ some o ∈ s.orders.slots ∧ o.manual = false ∧ heldBy s.orders.windows o.tank = false ∧ o.dest = none
       ∧ [o] = (s.orders.slots.filterMap fun x => x).filter fun o => o.state = .suspended && o.reason = some .hull)
      ∧ heldBy [{ valid := true, base := 0, mask := 0 }] 23 = true
      ∧ [order 1 .active] = ((ordered (order 1 .active)).orders.slots.filterMap fun x => x).filter fun o =>
          (o.state = .lineup || o.state = .starting || o.state = .active) && o.direction = some .loading := by
  refine ⟨⟨ordersOk_of (by decide +kernel) (by decide +kernel), List.mem_cons_self, rfl, by decide +kernel⟩, by decide +kernel⟩

/-- An order in admission whose reply waits in slot 0. -/
def admitting (lost : Bool) : Order := { order 1 .admitting with slot := some 0, gaugeLost := lost }

theorem test_meets_Previews :
    (∀ e x i, calm.engine.running ≠ some { kind := .preview e x, inputs := i })
      ∧ (let e : PreviewEntry := { requester := .console 0, overrides := [] }
         (evaluating (.preview e none)).engine.running = some { kind := .preview e none, inputs := inputs })
      ∧ (let s : State := { ordered (admitting true) with
            engine := { Engine.initial with running := some { kind := .preview { requester := .order 1, overrides := [] } none, inputs := inputs } } }
         s.powered = true ∧ orderById s 1 = some (admitting true) ∧ (admitting true).state = .admitting ∧ (admitting true).slot = some 0
           ∧ (admitting true).gaugeLost = true ∧ (admitting false).gaugeLost = false ∧ s.orders.runOwed = false)
      ∧ (let e : PreviewEntry := { requester := .gate 1, overrides := [] }
         (evaluating (.preview e none)).engine.running = some { kind := .preview e none, inputs := inputs } ∧ calm.orders.runOwed = false)
      ∧ ((evaluate false { inputs with dl := 517 } 900).band = .red ∧ (evaluate false inputs 900).band ≠ .red) := by
  refine ⟨fun e x i h => (by cases h), rfl, ⟨rfl, rfl, rfl, rfl, rfl, rfl, rfl⟩, ⟨rfl, rfl⟩, ?_⟩
  decide +kernel

/-- The call with n previews of the console waiting behind a running evaluation. -/
def busyEngine (n : Nat) : State :=
  { calm with engine := { Engine.initial with
      running := some { kind := .live false, inputs := inputs }, previews := List.replicate n { requester := .console 7, overrides := [] } } }

theorem test_meets_Prev :
    (Asked (asking calm .console (.prev [.cm 0])) .console 0 (.prev [.cm 0]) ∧ calm.call ≠ .noProfile ∧ pairUp [.cm 0] = none)
      ∧ ([((0 : Int), (0 : Int))].length ≤ 6 ∧ 6 < (List.replicate 7 ((0 : Int), (0 : Int))).length)
      ∧ (compartmentNamed calm 3 = none ∧ compartmentNamed calm 24 = some 24 ∧ compartmentNamed calm 2 = some 2)
      ∧ 4 ≤ ((busyEngine 4).engine.previews.filter fun e => !fromGate e).length
      ∧ ((busyEngine 3).engine.previews.filter fun e => !fromGate e).length < 4 :=
  ⟨⟨asked _ _ _ rfl, by decide, rfl⟩, by decide, by decide +kernel⟩

/-! ### Witnesses: plant -/

/-- The plant laws as a check. -/
def plantLaws (p : Plant) : Bool :=
  decide (p.lines.length = 66 ∧ p.pumps.length = 4 ∧ p.valves.length = 29
    ∧ (∀ x ∈ p.pumps, x.startLine = decide (x.state = .priming ∨ x.state = .running))
    ∧ (∀ v ∈ p.valves, v.stroke.isSome = decide (v.state = .opening ∨ v.state = .closing)
        ∧ ((v.state = .opening ∨ v.state = .opened) → v.commandedOpen = true)
        ∧ ((v.state = .closing ∨ v.state = .closed) → v.commandedOpen = false))
    ∧ ((p.portMain.mode = .idle ↔ p.portMain.orders = []) ∧ p.portMain.orders.length ≤ 2)
    ∧ ((p.stbdMain.mode = .idle ↔ p.stbdMain.orders = []) ∧ p.stbdMain.orders.length ≤ 2))

/-- The check is the plant laws. -/
theorem plantOk_of {p : Plant} (h : plantLaws p = true) : PlantOk p := by
  have h := of_decide_eq_true h
  exact h

/-- A valve commanded open, with a stroke timer. -/
def valveIn (st : ValveState) (stroke : Option Nat) : Valve := { commandedOpen := true, state := st, stroke := stroke, users := 1 }

/-- Input lines of which those listed are present. -/
def lit (on : List Nat) : List InputLine := on.foldl (fun ls i => modAt ls i (InputLine.settledAt true)) calm.plant.lines

/-- The call with another plant. -/
def withPlant (f : Plant → Plant) : State := { calm with plant := f calm.plant }

/-- The call with one valve in a state. -/
def valved (v : Nat) (x : Valve) (on : List Nat) : State := withPlant fun p => { p with valves := modAt p.valves v fun _ => x, lines := lit on }

/-- A pump in a state with its start line. -/
def pumpIn (st : PumpState) (holder : Option Nat) : Pump :=
  { Pump.initial with state := st, holder := holder, startLine := decide (st = .priming ∨ st = .running), stopTimer := if st = .stopping then some 0 else none }

/-- The attempt of order 1: a FILL of tank 0. -/
def attempt (ph : Phase) (pumps : List Nat) (prove : Option Nat) : Attempt :=
  { order := 1, action := .fill, main := .port, pumps := pumps, valves := [24, 0], phase := ph, cause := none, prove := prove, withdrawn := [] }

/-- The call with order 1 and its attempt: pump 1 and perhaps pump 2 in a state, valve 24 OPEN and valve 0 in a state. -/
def pumping (st : OrderState) (a : Attempt) (ps : PumpState) (v : Valve) (on : List Nat) : State :=
  { ordered { order 1 st with pumps := a.pumps } with
    plant := { calm.plant with
      attempts := [a]
      pumps := a.pumps.foldl (fun xs n => modAt xs (n - 1) fun _ => pumpIn ps (some 1)) calm.plant.pumps
      valves := modAt (modAt calm.plant.valves 24 fun _ => valveIn .opened none) 0 fun _ => v
      lines := lit on
      portMain := { mode := .filling, orders := [1] } } }

theorem test_meets_ValvesFollow :
    (limitChanged .openLimit true (valveIn .opening (some 0)) = { valveIn .opening (some 0) with state := .opened, stroke := none }
        ∧ limitChanged .closedLimit true (valveIn .fault none) = valveIn .fault none
        ∧ (limitChanged .openLimit false (valveIn .opened none)).state = .fault ∧ (limitChanged .closedLimit false Valve.initial).state = .fault)
      ∧ (calm.powered = true ∧ 27 < 28 ∧ lineOn calm.plant (limitLine 27 .closedLimit) = false ∧ calm.orders.runOwed = false ∧ calm.plant.attempts = [])
      ∧ (let s := valved 27 (valveIn .opening (some 0)) []
         s.powered = true ∧ s.plant.valves[27]? = some (valveIn .opening (some 0)) ∧ 0 ≤ s.clocks.uptime ∧ s.orders.runOwed = false ∧ s.plant.attempts = [])
      ∧ (let s := valved 0 (valveIn .opening (some 1)) []; s.plant.valves[0]? = some (valveIn .opening (some 1)) ∧ s.clocks.uptime < 1) := by
  decide +kernel

theorem test_meets_ValveChanges :
    (let a := attempt .liningUp [1] none
     let s := pumping .lineup a .stopped (valveIn .opening (some 0)) []
     plantLaws s.plant = true ∧ s.powered = true ∧ s.plant.valves[0]? = some (valveIn .opening (some 0)) ∧ lineOn s.plant (limitLine 0 .openLimit) = false
       ∧ s.orders.runOwed = false ∧ (s.plant.attempts.filter fun b => b.valves.contains 0) = [a] ∧ attemptOf s.plant 1 = some a
       ∧ valveOpen s.plant 24 = true ∧ runningOn s.plant 1 = false)
      ∧ (let a := attempt .running [1] none
         let s := pumping .active a .running (valveIn .opened none) [0, 4, 8]
         plantLaws s.plant = true ∧ s.plant.valves[0]? = some (valveIn .opened none) ∧ lineOn s.plant (limitLine 0 .openLimit) = !false
           ∧ (limitChanged .openLimit false (valveIn .opened none)).state = .fault
           ∧ (s.plant.attempts.filter fun b => b.valves.contains 0) = [a] ∧ attemptOf s.plant 1 = some a ∧ (orderById s 1).isSome = true)
      ∧ (let a := attempt .liningUp [1] none
         let s := pumping .lineup a .stopped (valveIn .opening (some 0)) []
         due (valveIn .opening (some 0)).stroke s.clocks.uptime = true ∧ a.phase ≠ .takingDown)
      ∧ (let s := valved 28 (valveIn .opening (some 0)) []
         plantLaws s.plant = true ∧ s.plant.valves[28]? = some (valveIn .opening (some 0)) ∧ due (valveIn .opening (some 0)).stroke s.clocks.uptime = true
           ∧ lineOn s.plant (limitLine 28 .openLimit) = !true ∧ (limitChanged .openLimit true (valveIn .opening (some 0))).state ≠ .opening) := by
  decide +kernel

/-- XV that arrives in CHANGING and in FAULT, and that is lost in CROSSED (R104). -/
theorem test_meets_CrossoverChanges :
    (let s := withPlant fun p => { p with valves := modAt p.valves 28 (fun _ => valveIn .opening (some 9)), crossMode := .changing, crossTarget := .crossed }
     plantLaws s.plant = true ∧ lineOn s.plant (limitLine 28 .openLimit) = false ∧ (limitChanged .openLimit true (valveIn .opening (some 9))).state = .opened
       ∧ (limitEvent 28 .openLimit true s).plant.crossMode = .crossed ∧ (limitEvent 28 .openLimit true s).orders.runOwed = true)
      ∧ (let s := withPlant fun p => { p with valves := modAt p.valves 28 (fun _ => valveIn .opened none), lines := lit [36], crossMode := .crossed }
         plantLaws s.plant = true ∧ lineOn s.plant (limitLine 28 .openLimit) = true ∧ (limitChanged .openLimit false (valveIn .opened none)).state = .fault
           ∧ (limitEvent 28 .openLimit false s).plant.crossMode = .fault ∧ (limitEvent 28 .openLimit false s).plant.crossTarget = .crossed) := by
  decide +kernel

/-- Failures that find the order running and that find it STOPPING, in every phase (R95, R96, R97, R125). -/
theorem test_meets_Failures :
    (let a := attempt .running [1] none
     let s := pumping .active a .running (valveIn .opened none) [0, 4]
     plantLaws s.plant = true ∧ s.plant.pumps[0]? = some (pumpIn .running (some a.order)) ∧ runningOn s.plant 1 = true ∧ (pumpIn .running (some 1)).failures ≠ 3
       ∧ attemptOf s.plant a.order = some a ∧ some { order 1 .active with pumps := [1] } ∈ s.orders.slots
       ∧ (orderById (failAttempt s 1 .trip) 1).map (fun o => (o.state, o.reason)) = some (.stopping, some .trip))
      ∧ (let a := attempt .priming [1, 2] (some 30)
         let s := pumping .starting a .priming (valveIn .opened none) []
         attemptOf s.plant a.order = some a ∧ (orderById (failAttempt s 1 .trip) 1).map Order.reason = some (some .trip))
      ∧ (let a := attempt .takingDown [1] none
         let s := pumping .stopping a .stopping (valveIn .opened none) [0]
         attemptOf s.plant a.order = some a ∧ (order 1 .stopping).state ≠ .active)
      ∧ (let a := attempt .liningUp [1] none
         let s := pumping .lineup a .stopped (valveIn .opened none) []
         attemptOf s.plant a.order = some a ∧ a.phase = .liningUp) := by decide +kernel

theorem test_meets_ordersOk : OrdersOk (pumping .active (attempt .running [1] none) .running (valveIn .opened none) []).orders :=
  ordersOk_of (by decide +kernel) (by decide +kernel)

theorem test_meets_PumpsFollow :
    (plantLaws calm.plant = true ∧ calm.plant.pumps[3]? = some Pump.initial ∧ calm.orders.runOwed = false ∧ lineOn calm.plant 7 = !true ∧ lineOn calm.plant 3 = !true
        ∧ Pump.initial.state ≠ .priming)
      ∧ (let s := withPlant fun p => { p with pumps := modAt p.pumps 0 fun _ => pumpIn .withdrawn none, lines := lit [0] }
         plantLaws s.plant = true ∧ s.plant.pumps[0]? = some (pumpIn .withdrawn none) ∧ lineOn s.plant 0 = !false)
      ∧ (let s := withPlant fun p => { p with pumps := modAt p.pumps 0 fun _ => pumpIn .stopped (some 1), lines := lit [0] }
         plantLaws s.plant = true ∧ s.plant.pumps[0]? = some (pumpIn .stopped (some 1)) ∧ lineOn s.plant 0 = !false ∧ (pumpIn .stopped (some 1)).holder ≠ none)
      ∧ (let a := attempt .priming [1] (some 30)
         let s := pumping .starting a .priming (valveIn .opened none) [0]
         plantLaws s.plant = true ∧ s.plant.pumps[0]? = some (pumpIn .priming (some 1)) ∧ lineOn s.plant 4 = false ∧ runningOn s.plant 1 = true
           ∧ (s.plant.attempts.find? fun b => b.pumps.contains 1) = some a ∧ attemptOf s.plant 1 = some a ∧ (∀ m ∈ a.pumps, m = 1)
           ∧ (orderById s 1).map (stopCondition s) = some none)
      ∧ (let a := attempt .priming [1, 2] (some 30)
         let s := pumping .starting a .priming (valveIn .opened none) [0]
         plantLaws s.plant = true ∧ pumpState s 2 ≠ .running ∧ 2 ∈ a.pumps ∧ (s.plant.attempts.find? fun b => b.pumps.contains 1) = some a)
      ∧ (let s := withPlant fun p => { p with lines := lit [0] }
         plantLaws s.plant = true ∧ s.plant.pumps[0]? = some Pump.initial ∧ runningOn s.plant 1 = true)
      ∧ (let s := pumping .active (attempt .running [1] none) .running (valveIn .opened none) [0, 4]
         plantLaws s.plant = true ∧ s.plant.pumps[0]? = some (pumpIn .running (some 1)) ∧ runningOn s.plant 1 = true)
      ∧ (let s := pumping .stopping (attempt .takingDown [1] none) .stopping (valveIn .opened none) [0]
         plantLaws s.plant = true ∧ s.plant.pumps[0]? = some (pumpIn .stopping (some 1)) ∧ runningOn s.plant 1 = true) := by
  decide +kernel

theorem test_meets_PumpTimers :
    (let a := attempt .priming [1, 2] (some 0)
     let s := pumping .starting a .priming (valveIn .opened none) [0]
     plantLaws s.plant = true ∧ attemptOf s.plant 1 = some a ∧ a.prove = some 0 ∧ 0 ≤ s.clocks.uptime ∧ a.pumps.Nodup
       ∧ s.plant.pumps[1]? = some (pumpIn .priming (some 1)))
      ∧ (let s := pumping .starting (attempt .priming [1] (some 1)) .priming (valveIn .opened none) [0]
         attemptOf s.plant 1 = some (attempt .priming [1] (some 1)) ∧ s.clocks.uptime < 1)
      ∧ (let s := withPlant fun p => { p with pumps := modAt p.pumps 3 fun _ => pumpIn .stopping none }
         plantLaws s.plant = true ∧ s.plant.pumps[3]? = some (pumpIn .stopping none) ∧ (pumpIn .stopping none).stopTimer = some s.clocks.uptime) := by
  decide +kernel

/-- An attempt at its stops: the last pump or one of two, at a lost feedback and at a due stop timer, with and without running feedback (R98, R99). -/
theorem test_meets_TakeDowns :
    (let a := attempt .takingDown [1] none
     let s := pumping .stopping a .stopping (valveIn .opened none) [0]
     plantLaws s.plant = true ∧ s.plant.pumps[0]? = some (pumpIn .stopping (some 1)) ∧ runningOn s.plant 1 = true
       ∧ (pumpIn .stopping (some 1)).failures ≠ 3 ∧ (pumpIn .stopping (some 1)).holder = some a.order ∧ attemptOf s.plant a.order = some a
       ∧ (∀ m ∈ a.pumps, m ≠ 1 → pumpState s m = .stopped) ∧ (pumpIn .stopping (some 1)).stopTimer = some s.clocks.uptime ∧ 1 ∈ a.pumps)
      ∧ (let a := attempt .takingDown [3, 4] none
         let s := pumping .stopping a .stopping (valveIn .opened none) [2, 3]
         plantLaws s.plant = true ∧ s.plant.pumps[3]? = some (pumpIn .stopping (some 1)) ∧ runningOn s.plant 4 = true ∧ attemptOf s.plant a.order = some a
           ∧ pumpState s 3 = .stopping)
      ∧ (let a := attempt .running [1, 2] none
         let s := pumping .active a .running (valveIn .opened none) [0, 1]
         plantLaws s.plant = true ∧ attemptOf s.plant a.order = some a ∧ a.pumps.Nodup ∧ (∀ n ∈ a.pumps, 1 ≤ n ∧ n ≤ 4)
           ∧ runningOn s.plant 1 = true ∧ pumpState s 1 = .running ∧ pumpState (takeDown s a) 1 = .stopping)
      ∧ (let a := attempt .priming [3, 4] (some 30)
         let s := pumping .starting a .priming (valveIn .opened none) []
         let s' := { s with plant := { s.plant with pumps := modAt s.plant.pumps 3 fun p => { p with failures := 3 } } }
         plantLaws s'.plant = true ∧ attemptOf s'.plant a.order = some a ∧ runningOn s'.plant 4 = false
           ∧ pumpState (takeDown s' a) 3 = .stopped ∧ pumpState (takeDown s' a) 4 = .withdrawn) := by decide +kernel

/-- A release with a valve of one user, one that another order uses too, and one CLOSED already (R87, R89, R99). -/
theorem test_meets_Releases :
    (let a := attempt .takingDown [1, 4] none
     let s := pumping .stopping a .stopped { valveIn .opened none with users := 2 } [32]
     plantLaws s.plant = true ∧ (∀ n ∈ a.pumps, 1 ≤ n ∧ n ≤ 4) ∧ a.valves.Nodup ∧ a.valves = [24, 0]
       ∧ s.plant.valves[24]? = some (valveIn .opened none) ∧ (valveIn .opened none).users ≤ 1 ∧ s.plant.valves[28]? = some Valve.initial ∧ 28 ∉ a.valves
       ∧ (mainRec s.plant a.main).orders.filter (fun id => id != a.order) = [] ∧ Main.stbd ≠ a.main
       ∧ pumpState s 1 = .stopped ∧ runningOn s.plant 1 = false)
      ∧ (let a := attempt .takingDown [1] none
         let s := pumping .stopping a .withdrawn Valve.initial []
         plantLaws s.plant = true ∧ s.plant.valves[0]? = some Valve.initial ∧ Valve.initial.state = .closed ∧ pumpState s 1 = .withdrawn
           ∧ attemptOf (releaseAttempt s a).plant 1 = none) := by decide +kernel

theorem test_meets_PlantRequests :
    (Asked (asking calm .console (.prst 5)) .console 0 (.prst 5) ∧ PlantOk calm.plant ∧ calm.call ≠ .noProfile ∧ (4 : Int) < 5
        ∧ calm.plant.pumps[3]? = some Pump.initial)
      ∧ (let s := asking (withPlant fun p => { p with pumps := modAt p.pumps 0 fun _ => pumpIn .withdrawn none }) .console (.prst 1)
         Asked s .console 0 (.prst 1) ∧ s.plant.pumps[0]? = some (pumpIn .withdrawn none) ∧ runningOn s.plant 1 = false)
      ∧ (Asked (asking calm .console (.xovr (some 1))) .console 0 (.xovr (some 1)) ∧ calm.plant.crossMode = .straight
          ∧ (∀ p ∈ calm.plant.pumps, p.state = .stopped ∧ p.holder = none))
      ∧ Asked (asking calm .console (.xovr (some 2))) .console 0 (.xovr (some 2))
      ∧ (withPlant fun p => { p with crossMode := .changing }).plant.crossMode = .changing
      ∧ (Asked (asking calm .console (.gang 1 1)) .console 0 (.gang 1 1) ∧ ganged calm.plant .b = false)
      ∧ Asked (asking calm .console (.gang 2 0)) .console 0 (.gang 2 0)
      ∧ (let s := pumping .active (attempt .running [1] none) .running (valveIn .opened none) []
         1 ∈ groupPumps .a ∧ s.plant.pumps[0]? = some (pumpIn .running (some 1))) :=
  ⟨⟨asked _ _ _ rfl, calm_plantOk, by decide +kernel⟩, ⟨asked _ _ _ rfl, by decide +kernel⟩, ⟨asked _ _ _ rfl, by decide +kernel⟩,
    asked _ _ _ rfl, by decide +kernel, ⟨asked _ _ _ rfl, by decide +kernel⟩, asked _ _ _ rfl, by decide +kernel⟩

/-! ### Witnesses: orders -/

/-- An ORDR for tank 0. -/
def fill (oi : Int) : OrdrFields := { oi := oi, tk := 0, ac := 0, pr := 3, rt := 7, dt := none, mf := some 0, tl := some 5000, tm := none }

/-- A TRANSFER from tank 0. -/
def transferTo (d : Int) : OrdrFields := { fill 255 with ac := 2, dt := some d, mf := none }

theorem test_meets_Ordr :
    (Asked (asking calm .console (.ordr (fill 255))) .console 0 (.ordr (fill 255)) ∧ calm.call = .inCall ∧ OrdersOk calm.orders)
      ∧ (({ fill 1 with tm := some 0 } : OrdrFields).tl.isSome = ({ fill 1 with tm := some 0 } : OrdrFields).tm.isSome
          ∧ (({ fill 1 with ac := 2 } : OrdrFields).dt.isSome ≠ decide (({ fill 1 with ac := 2 } : OrdrFields).ac = 2))
          ∧ (fill 1).tl.isSome ≠ (fill 1).tm.isSome ∧ (fill 1).dt.isSome = decide ((fill 1).ac = 2)
          ∧ ¬(1 ≤ (fill 0).oi) ∧ ¬((fill 256).oi ≤ 255) ∧ ¬(({ fill 1 with tk := 24 } : OrdrFields).tk ≤ 23) ∧ ((23 : Nat) ≤ 23))
      ∧ (some (order 255 .queued) ∈ (ordered (order 255 .queued)).orders.slots ∧ (order 255 .queued).id = 255)
      ∧ (∀ x ∈ List.replicate 16 (some (order 1 .queued)), ∃ o, x = some o ∧ terminalState o.state = false)
      ∧ ((none : Option Order) ∈ calm.orders.slots ∧ ∀ o, (none : Option Order) = some o → terminalState o.state = true)
      ∧ (tankData calm 3 = none ∧ mainOf calm 2 ≠ mainOf calm 0 ∧ mainOf calm 1 = mainOf calm 0 ∧ (calm.tanks[1]?).map Tank.gauge = some .unmapped
          ∧ (calm.tanks[0]?).map Tank.gauge = some .normal ∧ tankData calm 0 ≠ none)
      ∧ ((order 2 .queued).tank = 0 ∧ terminalState (order 2 .queued).state = false)
      ∧ (heldBy [{ valid := true, base := 0, mask := 31 }] 0 = true ∧ heldBy calm.orders.windows 0 = false)
      ∧ (derive .discharge (tank .port (some 0)) (Tank.initial (tank .port (some 0))) none (.level 5000) = none
          ∧ (derive .fill (tank .port (some 0)) (Tank.initial (tank .port (some 0))) none (.level 5000)).isSome = true) := by
  refine ⟨⟨asked _ _ _ rfl, rfl, ordersOk_of (by decide +kernel) (by decide +kernel)⟩, by decide +kernel, ⟨List.mem_cons_self, rfl⟩,
    fun x h => ⟨_, List.eq_of_mem_replicate h, rfl⟩, ⟨by decide +kernel, fun o h => by cases h⟩, by decide +kernel, by decide, by decide +kernel, by decide +kernel⟩

/-- An MF, a WV and an LM that are neither 0 nor 1 pass the tests of their rules (R111, R133, R169). -/
theorem test_other_codes_are_taken :
    (ordrNumbers { fill 1 with mf := some 2 }).isSome = true ∧ (hwinParts 0 (some 2) none none).isSome = true
      ∧ rcfgShape { rk := 0, ru := none, ch := none, lm := some 2, ll := none, ic := [] } = true := by decide

/-- End masses of one tank and of two (R73, R115). -/
theorem test_meets_EndMasses :
    (order 1 .queued).dest = none ∧ endOverrides (order 1 .queued) = [(0, 500)]
      ∧ endOverrides { order 1 .queued with action := .transfer, dest := some 1, endDest := some 70 } = [(0, 500), (1, 70)] := by decide

theorem test_meets_OrderTargets :
    let d := tank .port (some 0)
    let r := { Tank.initial d with level := 6000, mass := massAt d.points 6000 1025 }
    ((saturate d.minLevel d.maxLevel 10001).toNat = 10000 ∧ (saturate d.minLevel d.maxLevel 99).toNat = 100)
      ∧ (5999 < r.level ∧ r.level < 6001)
      ∧ (let room := massAt d.points d.maxLevel 1025 - massAt d.points 9000 1025
         room < r.mass - massAt d.points 100 1025 ∧ (saturate d.minLevel d.maxLevel (levelFor d 1025 ((r.mass : Int) - room))).toNat < r.level)
      ∧ (let full := massAt d.points d.maxLevel 1025
         massAt d.points d.maxLevel 1025 - full = 0 ∧ r.level ≤ (saturate d.minLevel d.maxLevel (levelFor d 1025 ((r.mass : Int) - 0))).toNat) := by
  decide +kernel

/-- A window over every tank. -/
def allTanks : Window := { valid := true, base := 0, mask := 0 }

/-- An ACTIVE order with its stall window. -/
def stalling (level expiry : Nat) : State :=
  { ordered { order 255 .active with stall := some { expiry := expiry, baseline := 1000 } } with
    tanks := { Tank.initial (tank .port (some 0)) with level := level } :: (ship.tanks.drop 1).map Tank.initial }

theorem test_meets_OrdersStop :
    (Asked (asking (ordered (order 255 .suspended)) .console (.ocan 255)) .console 0 (.ocan (order 255 .suspended).id)
        ∧ (ordered (order 255 .suspended)).call = .inCall ∧ OrdersOk (ordered (order 255 .suspended)).orders
        ∧ some (order 255 .suspended) ∈ (ordered (order 255 .suspended)).orders.slots)
      ∧ (∀ o, some o ∈ calm.orders.slots → (0 : Int) ≠ o.id)
      ∧ OrdersOk (pumping .active (attempt .running [1] none) .running (valveIn .opened none) [0]).orders
      ∧ (Asked (asking (ordered (order 1 .done)) .console (.orel 1)) .console 0 (.orel (order 1 .done).id) ∧ terminalState (order 1 .done).state = true
          ∧ terminalState (order 1 .stopping).state = false)
      ∧ ((stalling 1019 0).clocks.uptime = 0 ∧ levelOf (stalling 1019 0) 0 - 1000 < (stalling 1019 0).settings.sm
          ∧ (stalling 1020 0).settings.sm ≤ levelOf (stalling 1020 0) 0 - 1000 ∧ (stalling 1020 1).clocks.uptime < 1)
      ∧ (OrdersOk (stalling 1019 0).orders ∧ some { order 255 .active with stall := some { expiry := 0, baseline := 1000 } } ∈ (stalling 1019 0).orders.slots) := by
  refine ⟨⟨asked _ _ _ rfl, rfl, ordersOk_of (by decide +kernel) (by decide +kernel), List.mem_cons_self⟩, fun _ h => (calm_no_order h).elim, test_meets_ordersOk,
    ⟨asked _ _ _ rfl, rfl, rfl⟩, by decide +kernel, ordersOk_of (by decide +kernel) (by decide +kernel), List.mem_cons_self⟩

/-- A stop of an order in each phase of its attempt and without one (R98, R125). -/
theorem test_meets_StopsByPhase :
    (let o := order 1 .lineup
     OrdersOk (ordered o).orders ∧ some o ∈ (ordered o).orders.slots ∧ o.state = .lineup ∧ attemptOf (ordered o).plant o.id = none)
      ∧ (∀ x ∈ [(OrderState.lineup, attempt .liningUp [1] none, PumpState.stopped), (.starting, attempt .priming [1] (some 30), .priming),
            (.active, attempt .running [1] none, .running), (.active, attempt .takingDown [1] none, .stopping)],
          let s := pumping x.1 x.2.1 x.2.2 (valveIn .opened none) [0]
          some { order 1 x.1 with pumps := [1] } ∈ s.orders.slots ∧ attemptOf s.plant 1 = some x.2.1)
      ∧ (order 1 .queued).state ≠ .lineup ∧ OrdersOk (ordered (order 255 .queued)).orders :=
  ⟨⟨ordersOk_of (by decide +kernel) (by decide +kernel), List.mem_cons_self, rfl, by decide +kernel⟩, by decide +kernel, by decide,
    ordersOk_of (by decide +kernel) (by decide +kernel)⟩

/-- Orders at their released report, by stop reason, with and without an attempt left (R126). -/
theorem test_meets_Released :
    (∀ r ∈ [Reason.target, .destFull, .cancel, .hull, .preempted, .noGauge, .stall, .lineupFail, .startFail, .trip],
        let o := { order 1 .stopping with reason := some r, retries := 7, attempts := 6 }
        some o ∈ (ordered o).orders.slots ∧ o.state = .stopping ∧ o.attempts + 1 ≤ o.retries ∧ heldBy (ordered o).orders.windows o.tank = false)
      ∧ (let o := { order 1 .stopping with reason := some .trip, retries := 7, attempts := 7 }
         OrdersOk (ordered o).orders ∧ some o ∈ (ordered o).orders.slots ∧ o.retries < o.attempts + 1)
      ∧ (calm.hull.stop = .clear ∧ ({ calm with hull := { calm.hull with stop := .stopped } } : State).hull.stop = .stopped)
      ∧ (heldBy [allTanks] 0 = true ∧ ([] : List Nat) = [] ∧ [1] ≠ ([] : List Nat)) :=
  ⟨by decide +kernel, ⟨ordersOk_of (by decide +kernel) (by decide +kernel), List.mem_cons_self, by decide⟩, by decide +kernel⟩

/-- A QUEUED order cancelled at once holds the reason CANCEL (R110, R130). -/
theorem test_cancelled_order_keeps_its_reason :
    let t := ocan 0 1 (asking (ordered { order 1 .suspended with reason := some .hull }) .console (.ocan 1))
    (orderById t 1).map (fun o => (o.state, o.reason)) = some (.cancelled, some .cancel) := by decide +kernel

/-- Two feedbacks of one sample that become absent: the first frees pump 1 and the run of that event starts order 1 with it, before pump 2's is dealt with (R85, R116). -/
theorem test_each_input_change_has_its_run :
    let falling : InputLine := { InputLine.quiet with raw := true, debounced := true }
    let s : State :=
      { ordered (order 1 .queued) with
        plant := { calm.plant with lines := modAt (modAt calm.plant.lines 0 fun _ => falling) 1 fun _ => falling }
        settings := { Settings.default with db := 0 } }
    (orderById s 1).map Order.state = some .queued ∧ offered s .a = []
      ∧ (orderById (sampleLine s 0) 1).map (fun o => (o.state, o.pumps)) = some (.lineup, [1])
      ∧ (sampleLine s 0).orders.runOwed = false ∧ lineOn (sampleLine s 0).plant 1 = true := by decide +kernel

theorem test_meets_Hwin :
    (Asked (asking (ordered (order 1 .suspended)) .console (.hwin 3 (some 1) (some 23) (some 31))) .console 0 (.hwin (3 : Nat) (some 1) (some 23) (some 31))
        ∧ (ordered (order 1 .suspended)).call = .inCall ∧ OrdersOk (ordered (order 1 .suspended)).orders
        ∧ (ordered (order 1 .suspended)).orders.windows[3]? = some Window.initial)
      ∧ Asked (asking calm .console (.hwin 4 none none none)) .console 0 (.hwin 4 none none none)
      ∧ 18 < ((upTo 19).filter fun t => heldBy (modAt calm.orders.windows 0 fun _ => allTanks) t).length
      ∧ ((upTo 18).filter fun t => heldBy (modAt calm.orders.windows 0 fun _ => allTanks) t).length ≤ 18
      ∧ ({ order 1 .suspended with reason := some .hull } : Order).reason = some .hull
      ∧ ({ order 1 .suspended with reason := some .held } : Order).reason = some .held
      ∧ Asked (asking calm .console (.hwin 0 (some 2) none none)) .console 0 (.hwin (0 : Nat) (some 2) none none) :=
  ⟨⟨asked _ _ _ rfl, rfl, ordersOk_of (by decide +kernel) (by decide +kernel), rfl⟩, asked _ _ _ rfl, by decide +kernel, by decide +kernel, rfl, rfl,
    asked _ _ _ rfl⟩

theorem test_meets_Arbiter :
    let s := ordered (order 1 .queued)
    let o := order 1 .queued
    (OrdersOk s.orders ∧ PlantOk s.plant ∧ some o ∈ s.orders.slots)
      ∧ (startTaken s o [1] = true ∧ startTaken (withPlant fun p => { p with crossMode := .changing }) o [1] = false
          ∧ (lineup o.action .port o.tank o.dest).all (fun v => !valveOpen s.plant v && !limitOn s.plant v .openLimit) = true
          ∧ (lineup o.action .port o.tank o.dest).Nodup)
      ∧ (servingGroup s.plant.crossMode (mainOf s 0) = some .a ∧ (mainRec s.plant .port).mode = .idle ∧ offered s .a = [1]
          ∧ offered (withPlant fun p => { p with gangedA := true }) .a = [1, 2]
          ∧ offered (withPlant fun p => { p with lines := lit [0] }) .a = [2] ∧ offered (withPlant fun p => { p with lines := lit [0, 1] }) .a = []
          ∧ bandless.hull.live = none) :=
  ⟨⟨ordersOk_of (by decide +kernel) (by decide +kernel), calm_plantOk, List.mem_cons_self⟩, by decide +kernel⟩

/-- An order of priority 3 for tank 2's main, and an ACTIVE one of priority 1 that holds pump 1. -/
def urgent : Order := { order 2 .queued with tank := 1, priority := 3, rank := 2 }

/-- The call with an ACTIVE order on pump 1, an urgent QUEUED one and a SUSPENDED one with reason PREEMPTED. -/
def crowded : State :=
  let s := pumping .active (attempt .running [1] none) .running (valveIn .opened none) [0, 4]
  { s with
    plant := { s.plant with pumps := modAt s.plant.pumps 1 fun _ => pumpIn .running (some 3), gangedA := true }
    orders := { s.orders with
      runOwed := true
      slots := some { order 1 .active with pumps := [1] } :: some urgent
        :: some { order 3 .suspended with reason := some .preempted, tank := 2 } :: List.replicate 13 none } }

/-- One run of the arbiter: the urgent order is passed over and takes the ACTIVE one as its victim, the SUSPENDED one returns to QUEUED and calls for a further run (R117, R119). -/
theorem test_arbiter_run :
    (ordersList (arbiterRun { crowded with orders := { crowded.orders with runOwed := false } })).map (fun o => (o.id, o.state, o.reason))
        = [(1, .stopping, some .preempted), (2, .queued, none), (3, .queued, some .preempted)]
      ∧ (settleArbiter crowded).orders.runOwed = false := by decide +kernel

theorem test_meets_ArbiterRuns :
    (OrdersOk crowded.orders ∧ (∀ o, o ∈ [urgent] ↔ some o ∈ crowded.orders.slots ∧ o.state = .queued)
        ∧ [urgent].Pairwise (fun a b => b.priority < a.priority ∨ (a.priority = b.priority ∧ a.rank < b.rank)))
      ∧ (crowded.orders.runOwed = true ∧ (settleArbiter crowded).orders.runOwed = false ∧ calm.orders.runOwed = false)
      ∧ (servingGroup crowded.plant.crossMode (mainOf crowded urgent.tank) = some .a ∧ mayPreempt crowded urgent = true
          ∧ some { order 1 .active with pumps := [1] } ∈ crowded.orders.slots ∧ 1 ∈ groupPumps .a)
      ∧ (let o := { order 3 .suspended with reason := some .preempted, tank := 2 }
         some o ∈ crowded.orders.slots ∧ o.state = .suspended ∧ o.reason = some .preempted) := by
  refine ⟨⟨ordersOk_of (by decide +kernel) (by decide +kernel), ?_, List.pairwise_singleton _ _⟩, by decide +kernel⟩
  intro o
  constructor
  · intro h
    rw [List.mem_singleton.1 h]
    decide +kernel
  · rintro ⟨h, hs⟩
    rcases List.mem_cons.1 h with h | h
    · cases h; cases hs
    · rcases List.mem_cons.1 h with h | h
      · cases h; exact List.mem_singleton.2 rfl
      · rcases List.mem_cons.1 h with h | h
        · cases h; cases hs
        · cases List.eq_of_mem_replicate h

/-! ### Witnesses: the pour plan -/

/-- The call with a plan of one step, a gate preview and an outstanding report. -/
def gated (st : Step) (p : GatePreview) (o : Option Nat) : State :=
  { calm with pour := { calm.pour with plan := [st], preview := p, outstanding := o } }

theorem test_meets_PlanWrites :
    (let s := asking (planned (stepIn .planned)) .console (.plan 2 1 60000 [⟨255, 100⟩, ⟨1, 0⟩] (some 3))
     Asked s .console 0 (.plan (2 : Nat) (1 : Nat) (60000 : Nat) [⟨255, 100⟩, ⟨1, 0⟩] ((some 3 : Option Nat).map Int.ofNat)) ∧ s.call = .inCall ∧ PourOk s.pour
       ∧ (holdData s 1).map HoldData.capacity = some 60000 ∧ holdData s 0 = none ∧ holdData s 2 = none ∧ 2 = s.pour.plan.length + 1)
      ∧ (4 < (List.replicate 5 (⟨1, 0⟩ : Companion)).length ∧ (List.replicate 4 (⟨1, 0⟩ : Companion)).length ≤ 4
          ∧ ([⟨255, 100⟩, ⟨1, 0⟩].map Companion.order).Nodup ∧ ¬([⟨1, 100⟩, ⟨1, 0⟩].map Companion.order).Nodup)
      ∧ (¬(1 ≤ (0 : Int)) ∧ ¬((49 : Int) ≤ 48) ∧ ¬((60001 : Int) ≤ 60000) ∧ ¬((4 : Int) ≤ 3) ∧ 100 < (⟨1, 101⟩ : Companion).required)
      ∧ (stepIn .planned ∈ (planned (stepIn .planned)).pour.plan ∧ (stepIn .planned).number = 1 ∧ (stepIn .planned).state = .planned
          ∧ (stepIn .pouring).state ≠ .planned)
      ∧ (Asked (asking (planned (stepIn .planned)) .console (.pclr none)) .console 0 (.pclr none)
          ∧ (planned (stepIn .planned)).pour.plan = [] ++ [stepIn .planned] ∧ (∀ x ∈ [stepIn .planned], x.state = .planned)
          ∧ ∀ y, ([] : List Step).getLast? = some y → y.state ≠ .planned)
      ∧ (Asked (asking (planned (stepIn .planned)) .console (.pclr (some 1))) .console 0 (.pclr (some 1))
          ∧ (planned (stepIn .planned)).pour.plan = [] ++ stepIn .planned :: [] ∧ ¬((2 : Int) ≤ ([stepIn .planned].length : Int))) :=
  ⟨⟨asked _ _ _ rfl, rfl, planned_pourOk _ rfl, by decide +kernel⟩, by decide, by decide, ⟨List.mem_cons_self, by decide⟩,
    ⟨asked _ _ _ rfl, rfl, by decide, fun y h => by cases h⟩, asked _ _ _ rfl, rfl, by decide⟩

theorem test_meets_StepsAndHolds :
    (let s := asking (planned (stepIn .blocked)) .console (.sskp 1)
     Asked s .console 0 (.sskp (stepIn .blocked).number) ∧ s.call = .inCall ∧ PourOk s.pour ∧ stepIn .blocked ∈ s.pour.plan
       ∧ ¬((0 : Int) ≥ 1) ∧ ¬((2 : Int) ≤ s.pour.plan.length))
      ∧ (let s := asking (planned (stepIn .waiting)) .terminal (.scan 1)
         Asked s .terminal 0 (.scan (stepIn .waiting).number) ∧ currentStep s = some (stepIn .waiting))
      ∧ (let s := asking (planned (stepIn .halted)) .terminal (.lstp 1)
         Asked s .terminal 0 (.lstp (stepIn .halted).number) ∧ currentStep s = some (stepIn .halted))
      ∧ (∀ y, currentStep calm = some y → (1 : Int) ≠ y.number)
      ∧ (let s := asking (planned (stepIn .pouring)) .console (.hcor 1 2000000)
         Asked s .console 0 (.hcor (1 : Nat) (2000000 : Nat)) ∧ s.call = .inCall ∧ (holdData s 1).isSome = true ∧ holdData s 9 = none
           ∧ currentStep s = some (stepIn .pouring) ∧ (stepIn .pouring).hold = 1 ∧ ¬((2000001 : Int) ≤ 2000000))
      ∧ (∀ y, currentStep calm = some y → y.hold = 1 → y.state ≠ .pouring ∧ y.state ≠ .halted ∧ y.state ≠ .settling) :=
  ⟨⟨asked _ _ _ rfl, rfl, planned_pourOk _ rfl, List.mem_cons_self, by decide⟩, ⟨asked _ _ _ rfl, rfl⟩, ⟨asked _ _ _ rfl, rfl⟩,
    fun y h => (by cases h), ⟨asked _ _ _ rfl, rfl, by decide +kernel⟩, fun y h => (by cases h)⟩

theorem test_meets_Sreq :
    (let s := asking (planned (stepIn .planned)) .terminal (.sreq 1)
     Asked s .terminal 0 (.sreq (stepIn .planned).number) ∧ s.call = .inCall ∧ currentStep s = some (stepIn .planned)
       ∧ s.pour.outstanding = none ∧ s.hull.stop = .clear ∧ s.hull.live ≠ none ∧ s.term.state = .up
       ∧ firstUnmet s (stepIn .planned) = none ∧ s.pour.preview = .none)
      ∧ firstUnmet (gated (stepIn .blocked) .none (some 1)) (stepIn .blocked) = some .report
      ∧ firstUnmet calm { stepIn .planned with companions := [⟨1, 100⟩] } = some .ballast
      ∧ firstUnmet bandless (stepIn .planned) = some .hull
      ∧ (gated (stepIn .planned) .discard none).pour.preview ≠ .none
      ∧ (let y := { stepIn .evaluating with holdTimer := some 0 }
         let s := gated y (.forStep 1) none
         s.powered = true ∧ stepByNumber s 1 = some y ∧ due y.holdTimer s.clocks.uptime = true ∧ due (some 1) s.clocks.uptime = false) :=
  ⟨⟨asked _ _ _ rfl, by decide +kernel⟩, by decide +kernel⟩

/-- A WAITING step at a recheck: a check unmet, every check met with the gate free and with a discarded preview outstanding, and a plan without one (R145). -/
theorem test_meets_Recheck :
    (let s := gated (stepIn .waiting) .none (some 1)
     s.pour.plan = [] ++ stepIn .waiting :: [] ∧ (stepIn .waiting).state = .waiting ∧ firstUnmet s (stepIn .waiting) = some .report)
      ∧ firstUnmet (gated (stepIn .waiting) .none none) (stepIn .waiting) = none
      ∧ (firstUnmet (gated (stepIn .waiting) .discard none) (stepIn .waiting) = none ∧ (gated (stepIn .waiting) .discard none).pour.preview ≠ .none)
      ∧ (let y := { stepIn .waiting with number := 2 }
         ([stepIn .done, y] : List Step) = [stepIn .done] ++ y :: [] ∧ ∀ z ∈ [stepIn .done], z.state ≠ .waiting)
      ∧ (∀ y ∈ (planned (stepIn .pouring)).pour.plan, y.state ≠ .waiting) := by decide +kernel

/-- The overrides of a gate preview with a companion ACTIVE and one DONE (R73, R143). -/
theorem test_meets_GatePreview :
    (let s := ordered (order 7 .active)
     let y := { stepIn .waiting with companions := [⟨7, 0⟩] }
     (holdRec s y.hold).isSome = true ∧ orderById s 7 = some (order 7 .active) ∧ gateOverrides s y = [(24, 1000), (0, 500)])
      ∧ (let s := ordered (order 7 .done)
         orderById s 7 = some (order 7 .done) ∧ gateOverrides s { stepIn .waiting with companions := [⟨7, 0⟩] } = [(24, 1000)]) := by decide +kernel

theorem test_meets_Gate :
    (let y := { stepIn .evaluating with replyPending := some 0 }
     let s := gated y (.forStep 1) none
     s.pour.preview = .forStep 1 ∧ stepByNumber s 1 = some y ∧ y.number = 1 ∧ y.state = .evaluating
       ∧ firstUnmet { s with pour := { s.pour with preview := .none } } y = none ∧ y.replyPending = some 0)
      ∧ (let s := gated (stepIn .evaluating) (.forStep 1) (some 1)
         firstUnmet { s with pour := { s.pour with preview := .none } } (stepIn .evaluating) = some .report ∧ (stepIn .evaluating).replyPending = none)
      ∧ (let s := gated (stepIn .evaluating) .discard none
         s.pour.preview = .discard ∧ (s.pour.plan.find? fun z => z.state = .evaluating) = some (stepIn .evaluating))
      ∧ (∀ y ∈ (gated (stepIn .planned) .discard none).pour.plan, y.state ≠ .evaluating)
      ∧ (holdRec calm (stepIn .planned).hold = some Hold.initial) := by decide +kernel

theorem test_meets_Forced :
    (let s := asking (planned (stepIn .blocked)) .console (.sfrc 1)
     Asked s .console 0 (.sfrc (stepIn .blocked).number) ∧ s.call = .inCall ∧ PourOk s.pour ∧ currentStep s = some (stepIn .blocked)
       ∧ s.pour.outstanding = none ∧ (s.hull.stop = .clear ∧ s.hull.live ≠ none ∧ s.term.state = .up))
      ∧ (let s := asking (gated (stepIn .planned) .none (some 1)) .console (.sfrc 1); Asked s .console 0 (.sfrc 1) ∧ s.pour.outstanding ≠ none)
      ∧ ¬(bandless.hull.live ≠ none)
      ∧ currentStep (planned (stepIn .halted)) = some (stepIn .halted) ∧ (stepIn .halted).overshootMark = false
      ∧ (currentStep (planned (stepIn .pouring)) = some (stepIn .pouring) ∧ (stepIn .pouring).state = .pouring)
      ∧ (∀ y, currentStep calm = some y → (1 : Int) ≠ y.number ∧ y.state ≠ .pouring) := by
  refine ⟨⟨asked _ _ _ rfl, rfl, planned_pourOk _ rfl, by decide +kernel⟩, ⟨asked _ _ _ rfl, by decide +kernel⟩, by decide +kernel, rfl, rfl,
    ⟨rfl, rfl⟩, fun y h => by cases h⟩

theorem test_meets_Tallies :
    (let s := asking (planned (stepIn .pouring)) .terminal (.taly 1 1050)
     Asked s .terminal 0 (.taly (stepIn .pouring).hold (1050 : Nat)) ∧ s.call = .inCall ∧ currentStep s = some (stepIn .pouring)
       ∧ (stepIn .pouring).base = some 0 ∧ holdRec s 1 = some Hold.initial ∧ PourOk s.pour ∧ SettingsOk s.settings ∧ s.term.state ≠ .quiet
       ∧ ¬(((stepIn .pouring).planned : Int) * (100 + s.settings.oa) / 100 < 1050)
       ∧ (((stepIn .pouring).planned : Int) * (100 + s.settings.oa) / 100 < 1051))
      ∧ (let y := stepIn .halted
         let s := asking (planned y) .terminal (.taly 1 301)
         currentStep s = some y ∧ ¬((y.tallyAtHalt.getD 0 : Int) + s.settings.ro < 300)
           ∧ ((y.tallyAtHalt.getD 0 : Int) + s.settings.ro < 301 ∧ y.runOnRaised = false))
      ∧ ({ planned (stepIn .pouring) with term := { TermLink.initial with state := .quiet } } : State).term.state = .quiet
      ∧ ¬((2000001 : Int) ≤ 2000000)
      ∧ (∀ y, currentStep calm = some y → y.state ≠ .pouring ∧ y.state ≠ .halted ∧ (1 : Int) ≠ y.number)
      ∧ (let s := asking (planned (stepIn .halted)) .terminal (.sfin 1 2000000)
         Asked s .terminal 0 (.sfin (stepIn .halted).number (2000000 : Nat)) ∧ currentStep s = some (stepIn .halted) ∧ s.settings.si ≠ 0)
      ∧ ({ calm with settings := { Settings.default with si := 0 } } : State).settings.si = 0
      ∧ (let s : State := { asking (planned (stepIn .pouring)) .terminal (.sfin 1 0) with term := { TermLink.initial with state := .quiet } }
         Asked s .terminal 0 (.sfin (stepIn .pouring).number (0 : Nat)) ∧ s.term.state = .quiet)
      ∧ (let y := { stepIn .settling with settleTimer := some 0 }
         stepByNumber (planned y) 1 = some y ∧ y.state = .settling ∧ due y.settleTimer (planned y).clocks.uptime = true
           ∧ due (some 1) (planned y).clocks.uptime = false) :=
  ⟨⟨asked _ _ _ rfl, rfl, rfl, rfl, rfl, planned_pourOk _ rfl, calm_settingsOk, by decide +kernel⟩, by decide +kernel, by decide, by decide,
    fun y h => (by cases h), ⟨asked _ _ _ rfl, by decide +kernel⟩, rfl, ⟨asked _ _ _ rfl, rfl⟩, by decide +kernel⟩

/-! ### Witnesses: the terminal link -/

/-- The call with a link record. -/
def linked (x : TermLink) : State := { calm with term := x }

theorem test_meets_Link :
    (Asked (asking calm .terminal .tatt) .terminal 0 .tatt ∧ calm.term.state = .up)
      ∧ (Asked (asking (linked TermLink.initial) .terminal .tatt) .terminal 0 .tatt ∧ (linked TermLink.initial).term.state = .detached)
      ∧ (Asked (asking (linked { TermLink.initial with state := .lost }) .terminal .tatt) .terminal 0 .tatt
          ∧ (linked { TermLink.initial with state := .lost }).term.state = .lost)
      ∧ (Asked (asking (planned (stepIn .pouring)) .terminal .tdet) .terminal 0 .tdet
          ∧ ∃ y, currentStep (planned (stepIn .pouring)) = some y ∧ (y.state = .pouring ∨ y.state = .halted))
      ∧ (Asked (asking calm .terminal .tdet) .terminal 0 .tdet ∧ ∀ y, currentStep calm = some y → y.state ≠ .pouring ∧ y.state ≠ .halted)
      ∧ (due calm.term.quietTimer calm.clocks.uptime = false)
      ∧ (let s := linked { TermLink.initial with state := .quiet, quietTimer := some 0, count := 2 }
         due s.term.quietTimer s.clocks.uptime = true ∧ s.term.count < 3 ∧ s.term.state ≠ .up)
      ∧ (let s := linked { TermLink.initial with state := .quiet, quietTimer := some 0, count := 3 }
         due s.term.quietTimer s.clocks.uptime = true ∧ 3 ≤ s.term.count)
      ∧ (let s := linked { TermLink.initial with state := .lost, kept := List.replicate 3 (.halt 1 4) }; s.term.kept.length < 4)
      ∧ (List.replicate 4 (Unsolicited.halt 1 4) = [.halt 1 4, .halt 1 4, .halt 1 4, .halt 1 4])
      ∧ (∀ r c w, calm.terminal.tx ≠ some { frame := .rprt r c, wire := w })
      ∧ (let q := report .departure .clear .sending
         let s : State := { calm with
           call := .closing, reports := { calm.reports with queue := [q] }, terminal := { portWith .tdet with tx := some { frame := .rprt q 0, wire := [] } } }
         Asked s .terminal 0 .tdet ∧ s.terminal.tx = some { frame := .rprt q 0, wire := [] } ∧ (∃ x ∈ s.reports.queue, x.terminalFlag = .sending)
           ∧ s.call = .closing ∧ s.reports.queue = [q] ∧ q.kind = .departure ∧ q.consoleFlag = .clear ∧ (report .departure .pending .sending).consoleFlag ≠ .clear)
      ∧ (calm.call ≠ .closing ∧ (∀ q ∈ calm.reports.queue, q.terminalFlag ≠ .sending) ∧ (report .step .clear .sending).terminalFlag ≠ .clear
          ∧ (report .step .clear .clear).terminalFlag = .clear ∧ AttentionOk calm.attention) :=
  ⟨⟨asked _ _ _ rfl, rfl⟩, ⟨asked _ _ _ rfl, rfl⟩, ⟨asked _ _ _ rfl, rfl⟩, ⟨asked _ _ _ rfl, _, rfl, Or.inl rfl⟩,
    ⟨asked _ _ _ rfl, fun y h => (by cases h)⟩, by decide, by decide, by decide, by decide, rfl, (fun r c w h => by cases h),
    ⟨⟨rfl, rfl⟩, by decide +kernel⟩, by decide, (fun q h => by cases h), by decide, rfl, attentionOk_initial⟩

/-- The change to QUIET at the overshoot limit, above it, and without a pour (R156). -/
theorem test_meets_EstimateEntry :
    (let s := planned { stepIn .pouring with lastTally := some 1050 }
     let y := { stepIn .pouring with lastTally := some 1050 }
     currentStep s = some y ∧ y.base = some 0 ∧ holdRec s y.hold = some Hold.initial ∧ SettingsOk s.settings
       ∧ ((1050 : Int) ≤ (y.planned : Int) * (100 + s.settings.oa) / 100) ∧ (y.planned : Int) * (100 + s.settings.oa) / 100 < 1051)
      ∧ (∀ y, currentStep (planned (stepIn .settling)) = some y → y.state ≠ .pouring ∧ y.state ≠ .halted)
      ∧ (stepIn .halted).state = .halted := by
  refine ⟨⟨rfl, rfl, rfl, calm_settingsOk, by decide +kernel⟩, fun y h => ?_, rfl⟩
  rw [planned_only h]
  decide

/-! ### Witnesses: reports and attention -/

/-- RCFG fields at the ends of their ranges. -/
def config : RcfgFields := { rk := 3, ru := some 2, ch := some 15, lm := some 1, ll := some 64, ic := [0x0DFF] }

theorem test_meets_ReportRequests :
    (Asked (asking calm .console (.rcfg config)) .console 0 (.rcfg config) ∧ config.lm = some 1 ∧ (config.lm = some 1 ↔ config.ll.isSome = true)
        ∧ config.ic.length ≤ 40 ∧ config.rk = reportCode .departure ∧ config.ru = (some Route.both).map routeCode
        ∧ config.ch = (some (some 15)).map overrideCode ∧ config.ll = (some 64).map Int.ofNat ∧ config.ic = [0x0DFF].map Int.ofNat
        ∧ (∀ x ∈ config.ic, codeOk x = true))
      ∧ (¬(({ config with ll := none } : RcfgFields).lm = some 1 ↔ ({ config with ll := none } : RcfgFields).ll.isSome = true)
          ∧ 40 < (List.replicate 41 (0 : Int)).length)
      ∧ (¬((4 : Int) ≤ 3) ∧ ¬((65 : Int) ≤ 64) ∧ (¬((16 : Int) ≤ 15) ∧ (16 : Int) ≠ 255) ∧ ([0, 0] : List Int) ≠ [0] ∧ codeOk 0 = false)
      ∧ (Asked (asking calm .console .rreq) .console 0 .rreq ∧ calm.call = .inCall ∧ calm.reports.counter = some 0 ∧ calm.reports.queue.length < 8)
      ∧ (65534 ≤ 65534 ∧ 65533 < 65534)
      ∧ (let r := report .survey .pending .clear
         List.replicate 8 r = r :: List.replicate 7 r ∧ (List.replicate 7 r).length = 7 ∧ r.consoleFlag = .pending)
      ∧ (let f : RcfgFields := { rk := 0, ru := none, ch := none, lm := some 2, ll := none, ic := [] }
         Asked (asking calm .console (.rcfg f)) .console 0 (.rcfg f) ∧ (f.lm = some 1 ↔ f.ll.isSome = true)) :=
  ⟨⟨asked _ _ _ rfl, by decide +kernel⟩, by decide, by decide +kernel, ⟨asked _ _ _ rfl, by decide +kernel⟩, by decide, by decide +kernel, asked _ _ _ rfl, by decide⟩

/-- The call with n reports in the queue and a counter. -/
def queued (n : Nat) (counter : Option Nat) : State :=
  { calm with reports := { calm.reports with queue := List.replicate n (report .survey .pending .clear), counter := counter } }

/-- Triggers with serials left and none, with room and without, of a profile in force (R172 to R175). -/
theorem test_meets_Triggers :
    (ReportKind.step ≠ .departure ∧ (queued 0 none).reports.counter = none ∧ 65534 ≤ 65534 ∧ (65533 : Nat) < 65534)
      ∧ (queued 7 (some 65533)).reports.queue.length < 8
      ∧ ((queued 8 (some 65533)).reports.queue = report .survey .pending .clear :: List.replicate 7 (report .survey .pending .clear)
          ∧ (List.replicate 7 (report .survey .pending .clear)).length = 7)
      ∧ calm.profile = .valid ship := by
  refine ⟨by decide +kernel, by decide +kernel, by decide +kernel, rfl⟩

/-- What the items of R170 read: declared and undeclared tanks and holds, a live result or none, pumps, a step or none. -/
theorem test_meets_Items :
    ((calm.tanks[2]?).isSome = true ∧ calm.tanks[3]? = none ∧ calm.tanks[23]? = none)
      ∧ ((holdData calm 1).isSome = true ∧ (calm.pour.holds[1 - 1]?).isSome = true ∧ holdData calm 9 = none)
      ∧ (bandless.hull.live = none ∧ calm.hull.live = some green) ∧ (calm.plant.pumps[4 - 1]?).isSome = true := by decide +kernel

/-- A STEP report of families 1 and 13: four codes of one tank and the step, expanded and laid out (R170 to R172). -/
theorem test_report_items :
    let s : State := { planned (stepIn .pouring) with
      reports := withSettings calm.reports .step { (settingsOf calm.reports .step) with content := [0x01FF, 0x0D01], lengthMode := .auto } }
    (compose s .step (some (stepIn .pouring)) 1).items.map Item.code = [0x0100, 0x0101, 0x0102, 0x0D01]
      ∧ (compose s .step (some (stepIn .pouring)) 1).truncated = false ∧ (compose s .step (some (stepIn .pouring)) 1).channel = 1 := by decide +kernel

/-- An attention unit in which condition n has a record. -/
def attending (n : Nat) (c : Condition) (mask : BitVec 14) : Attention :=
  { Attention.initial with conditions := modAt Attention.initial.conditions n fun _ => c, mask := mask }

theorem test_meets_Attention :
    (Asked (asking calm .console (.aenb 0x3FFF)) .console 0 (.aenb (0x3FFF : Nat)) ∧ AttentionOk calm.attention)
      ∧ Asked (asking calm .console (.aenb 0x4000)) .console 0 (.aenb 0x4000) ∧ ¬((0x4000 : Int) ≤ 0x3FFF)
      ∧ (Asked (asking calm .console (.aack [0, 13])) .console 0 (.aack ([0, 13].map Int.ofNat)) ∧ (∀ n ∈ [0, 13], n ≤ 13)
          ∧ calm.attention.conditions[13]? = some Condition.initial ∧ (∃ n, isLevel n = true) ∧ ∃ n, isLevel n = false)
      ∧ ¬((14 : Int) ≤ 13) :=
  ⟨⟨asked _ _ _ rfl, attentionOk_initial⟩, asked _ _ _ rfl, by decide, ⟨asked _ _ _ rfl, by decide, rfl, ⟨10, by decide⟩, ⟨11, by decide⟩⟩, by decide⟩

theorem test_meets_LevelCauses :
    (∀ n ∈ [0, 1, 5, 13], calm.attention.conditions[n]? = some Condition.initial) ∧ State.reset.hull = Hull.initial
      ∧ (∃ r : EvalResult, { calm with hull := { calm.hull with live := some { r with band := .red, tableLow := true } } }.hull.live.isSome = true) := by
  exact ⟨by decide +kernel, rfl, green, rfl⟩

theorem test_meets_Conditions :
    (calm.attention.conditions[13]? = some Condition.initial ∧ Condition.initial.pending = false ∧ enabled calm.attention 13 = true
        ∧ 13 ∉ calm.attention.owed ∧ Condition.initial.cause = false)
      ∧ (let c := { Condition.initial with pending := true, count := 255, first := some 1, latest := some 1 }
         (attending 13 c 0).conditions[13]? = some c ∧ c.pending = true ∧ enabled (attending 13 c 0) 13 = false)
      ∧ (let c := { Condition.initial with pending := true, count := 255, cause := true }
         (attending 10 c 0x3FFF).conditions[10]? = some c ∧ c.cause = true) := by decide +kernel

/-! ### Witnesses: the laws -/

/-- The calm ship keeps every law, and its step answers a next state. -/
theorem test_meets_StepsKeepLaws :
    (∃ t, step calm = .next t) ∧ SettingsOk calm.settings ∧ CallOk calm ∧ GaugeOk calm.gauge ∧ TanksOk calm.tanks ∧ EngineOk calm.engine
      ∧ HullOk calm.hull ∧ PlantOk calm.plant ∧ OrdersOk calm.orders ∧ PourOk calm.pour ∧ TermOk calm.term ∧ ReportsOk calm.reports
      ∧ AttentionOk calm.attention ∧ PortOk calm.console ∧ PortOk calm.terminal ∧ calm.orders.runOwed = false := by
  refine ⟨⟨_, rfl⟩, calm_settingsOk, ⟨⟨fun h => (by cases h), fun h => (by cases h)⟩, rfl⟩, ⟨rfl, ?_, fun r h => (by cases h)⟩, ?_, by unfold EngineOk; decide,
    ⟨rfl, fun h => (by cases h)⟩, calm_plantOk, ordersOk_of (by decide +kernel) (by decide +kernel), ⟨rfl, by decide, rfl⟩, by unfold TermOk; decide,
    ⟨by decide, by decide, by decide, ?_⟩, attentionOk_initial, ?_, ?_, rfl⟩
  · intro c h
    have hc := List.eq_of_mem_replicate h
    subst hc
    exact ⟨by decide, by decide, by decide, by decide, fun n h => by cases h⟩
  · have h : ∀ t ∈ calm.tanks, t.ring = [] ∧ t.score = 0 ∧ t.reinstatement = 0 ∧ t.source = .frozen ∧ (t.channel = none ↔ t.gauge = .unmapped)
        ∧ (t.gauge = .normal ∨ t.gauge = .unmapped) := by decide +kernel
    intro t ht
    obtain ⟨h1, h2, h3, h4, h5, h6⟩ := h t ht
    unfold TankOk
    rcases h6 with h6 | h6 <;> simp [h1, h2, h3, h4, h5, h6]
  · intro n h
    cases h
    decide
  · unfold PortOk ArrivalsDiffer; decide +kernel
  · unfold PortOk ArrivalsDiffer; decide +kernel

/-! ### Worked cases of the manual -/

/-- Tank 7 of section 3.5. -/
def tank7 : TankData :=
  { name := [], main := .port, lcg := 0, maxLevel := 17000, minLevel := 0, density := 1025, allowance := 40, channel := some 7,
    points := [⟨0, 0⟩, ⟨8000, 61800⟩, ⟨16000, 84300⟩, ⟨17200, 87900⟩] }

/-- Section 3.5: the codes 40,000, 40,010, 64,900 and 52,500, and the level for 7,000 t. -/
theorem test_readings_on_tank_7 :
    ([40000, 40010, 64900, 52500].map (classify Settings.default tank7 Channel.initial)) = [some 12824, some 12829, none, none]
      ∧ (let t := { Tank.initial tank7 with score := 16 }
         let a := goodReading tank7 12824 0 t
         let b := goodReading tank7 12829 0 a
         ((a.level, a.mass, a.score) = (12824, 7725, 15)) ∧ ((b.level, b.mass, b.score) = (12827, 7726, 14)) ∧ (badReading b).score = 22
           ∧ tankAllowance tank7 t = 80 ∧ tankAllowance tank7 a = 0)
      ∧ levelFor tank7 1025 7000 = 10309 ∧ massAt tank7.points 10309 1025 = 7000 := by decide +kernel

/-- A list over compartments with the given values at tank 2, tank 9, tank 20 and hold 5. -/
def across {α : Type} (z t2 t9 t20 h5 : α) : List α :=
  [z, z, t2, z, z, z, z, z, z, t9, z, z, z, z, z, z, z, z, z, z, t20, z, z, z, z, z, z, z, h5, z, z, z, z]

/-- A frame of section 4.10: frame 7, or one without loads. -/
def frame (sf0 bm0 s9 s28 b9 b28 : Int) : FrameData :=
  { position := 0, sf0 := sf0, bm0 := bm0, sfPos := 41000, sfNeg := 41000, hog := 2600000, sag := 2600000,
    kS := across 0 0 s9 0 s28, kB := across 0 0 b9 0 b28 }

/-- The inputs of section 4.10 with the allowance of tank 9, and the mass and allowance of hold 5. -/
def pour (a9 m28 a28 : Nat) : Inputs :=
  { mass := across 0 3500 1200 3550 m28
    allowance := across 0 0 a9 0 a28
    saturated := false
    profile := { ship with
      w0 := 38000
      x0 := 14500
      tanks := (across 0 1145 15000 25000 14600).take 24 |>.map fun x => { tank .port none with lcg := x }
      holds := (across 0 1145 15000 25000 14600).drop 24 |>.map fun x => { name := [], lcg := x, capacity := 60000 }
      frames := List.replicate 6 (frame 0 0 0 0 0 0) ++ [frame (-12400) 310000 (-3100) 2450 (-40) 95]
      rows := [⟨60000, 8200, 14480, 16200⟩, ⟨70000, 9400, 14410, 16900⟩, ⟨120000, 14900, 14120, 19800⟩] }
    dl := 18000
    tn := -50
    tx := 300
    uptime := 7214 }

/-- Section 4.10: a live evaluation during a pour. -/
theorem test_worked_evaluation :
    let r := evaluate true (pour 60 18000 0) 900
    [r.displacement, r.ballast, r.cargo, r.lcg, r.tMean, r.trim, r.tAft, r.tFwd] = [64250, 8250, 18000, 14390, 8710, 23, 8825, 8595]
      ∧ (r.draftUtil, r.trimUtil) = (490, 582)
      ∧ [r.sf, r.sfUtil, r.bm, r.bmUtil].map (fun xs => (xs[6]?).join) = [some 27980, some 686, some 1972000, some 759]
      ∧ (r.peak, r.peakSource, r.band) = (759, .bm 7, .green) ∧ (r.saturated, r.tableLow, r.tableHigh) = (false, false, false) := by decide +kernel

/-- Section 4.11: the same condition with uncertainty added. -/
theorem test_worked_uncertainty :
    let r := evaluate true (pour 120 18640 640) 900
    [r.displacement, r.lcg, r.tMean, r.trim, r.tAft, r.tFwd, r.draftUtil, r.trimUtil] = [64890, 14392, 8787, 21, 8892, 8682, 494, 594]
      ∧ [r.sf, r.sfUtil, r.bm, r.bmUtil].map (fun xs => (xs[6]?).join) = [some 29548, some 768, some 2032800, some 807]
      ∧ (r.peak, r.peakSource, r.band) = (807, .bm 7, .green) ∧ (evaluate true (pour 120 18640 640) 800).band = .amber := by decide +kernel

/-- Section 4.12: a preview beyond the table. -/
theorem test_worked_preview :
    let r := evaluate false (overrideAll (pour 60 18000 0) [(28, 150000)]) 900
    [r.displacement, r.lcg, r.trim, r.tAft, r.tFwd, r.draftUtil, r.trimUtil] = [196250, 14531, -407, 12865, 16935, 940, 3040] ∧ r.tableHigh = true
      ∧ [r.sf, r.sfUtil, r.bm, r.bmUtil].map (fun xs => (xs[6]?).join) = [some 351380, some 8574, some 14512000, some 5582]
      ∧ (r.peak, r.peakSource, r.band) = (8574, .sf 7, .red) ∧ r.saturated = false
      ∧ (overrideAll (pour 60 18000 0) [(28, 2500000)]).saturated = true := by decide +kernel

/-- Section 8.11: an estimate during a quiet period. -/
theorem test_worked_estimate :
    let y : Step := { stepIn .pouring with number := 6, planned := 20000, lastTally := some 11040 }
    let h : Hold := { mass := 11040, source := .estimate, latest := some ⟨11040, 14020⟩, previous := some ⟨11000, 14000⟩, estimate := some 11040 }
    [14020, 14052, 14082, 20000].map (fun u => estimateAt { planned y with clocks := { uptime := u, call := none } } y h) = [11040, 11104, 11164, 21000] := by
  decide +kernel

end Sys2Proof.Tests
end

section
/-! PROOFS. Requests and events: what a command makes of the slot it names (R21, R190; log 1, 24, 29). -/

namespace Sys2Proof.Machine

/-! ### Served requests -/

/-- A request that its slot hands over is dealt with by its owner (R190, step 5). -/
theorem serve_asked {l : Link} {k : Nat} {s : State} {r : Request} (h : Asked s l k r) (act : Request → State → State) :
    serve l k s act = .next (act r s) := by
  obtain ⟨hpower, hreq⟩ := h
  simp [serve, hpower, hreq]

/-- A slot whose request means nothing to the owner leaves the part as it is (log 1). -/
theorem serve_of_ignored {l : Link} {k : Nat} {s : State} {act : Request → State → State}
    (h : ∀ r, handed s l k = some r → act r s = s) : serve l k s act = .next s := by
  unfold serve
  cases hreq : handed s l k with
  | none => simp
  | some r => simp [h r hreq]

/-- A part without power serves no request (log 24). -/
theorem serve_unpowered {s : State} (h : s.powered = false) (l : Link) (k : Nat) (act : Request → State → State) :
    serve l k s act = .next s := by simp [serve, h]

/-- A part with power takes an event. -/
theorem event_powered {s : State} (h : s.powered = true) (act : State → State) : event s act = .next (act s) := by simp [event, h]

/-- A part without power takes no event (log 24). -/
theorem event_unpowered {s : State} (h : s.powered = false) (act : State → State) : event s act = .next s := by simp [event, h]

/-- Outside its call states a request is refused with STATE (R21). -/
theorem whenAdmitted_refused {admitted : CallState → Bool} {s : State} (h : admitted s.call = false) (l : Link) (k : Nat)
    (act : State → State) : whenAdmitted admitted l k s act = reply s l k .state [] := by simp [whenAdmitted, h, refuse]

/-- The requests of R21 that need a profile are not taken in NO_PROFILE. -/
theorem withProfile_eq_false {c : CallState} : withProfile c = false ↔ decide (c = .noProfile) = true := by cases c <;> decide

/-- The requests of R21 that need a call are taken in IN_CALL alone. -/
theorem inCallOnly_eq_false {c : CallState} : inCallOnly c = false ↔ (c != .inCall) = true := by cases c <;> decide

/-- A plant request is refused in NO_PROFILE with the plant view (R21, R106). -/
theorem whenPlantAdmitted_refused {s : State} (h : decide (s.call = .noProfile) = true) (k : Nat) (act : State → State) :
    whenPlantAdmitted k s act = reply s .console k .state (plantView s) := by
  simp [whenPlantAdmitted, withProfile_eq_false.2 h, replyPlant]

/-! ### The table of R21 -/

/-- The result fields of a refusal by the table of R21: the plant view for PRST, XOVR and GANG, none for the others (R106; log 49). -/
def refusalFields (r : Request) (s : State) : List (Field × Val) :=
  match r with
  | .prst _ | .xovr _ | .gang _ _ => plantView s
  | _ => []

/-- A command serves the request it stands for: refused in the call states that R21 names, and without effect on a request of another kind. -/
theorem exec_command (r : Request) (k : Nat) : ∃ act : Request → State → State,
    (∀ s, exec (r.command k) s = serve r.link k s act)
      ∧ (∀ s, refusedByCallState r s.call = true → act r s = reply s r.link k .state (refusalFields r s))
      ∧ ∀ r' s, r'.command k ≠ r.command k → act r' s = s := by
  cases r
  all_goals
    dsimp only [Request.command, Request.link, refusedByCallState]
    refine ⟨_, fun s => rfl, fun s hrefused => ?_, fun r' s hkind => ?_⟩
    rotate_left
    · split
      · exact absurd rfl hkind
      · rfl
  case tmap | gcal | dens | sndg | prev => exact whenAdmitted_refused (withProfile_eq_false.2 hrefused) _ _ _
  case prst | xovr | gang => exact whenPlantAdmitted_refused hrefused _ _
  case ordr | ocan | orel | hwin | plan | pclr | sfrc | sskp | hcor | rreq | sreq | taly | sfin | lstp | scan =>
    exact whenAdmitted_refused (inCallOnly_eq_false.2 hrefused) _ _ _
  all_goals exact absurd hrefused Bool.false_ne_true

/-! ### The turn of the profile store's requests -/

/-- What a slot hands over, in terms of the slot's own request (R12, R190; log 51). -/
theorem handed_own_iff {s : State} {l : Link} {k : Nat} {x : Slot} (hx : slotAt s l k = some x) :
    handed s l k = some x.request ↔ x.phase = .handed
      ∧ (toProfileStore x.request = true →
          ∀ j y, slotAt s l j = some y → y.phase = .handed → toProfileStore y.request = true → x.arrival ≤ y.arrival) := by
  rw [handed_eq_some]
  constructor
  · rintro ⟨y, hy, -, hphase, hturn⟩
    obtain rfl : y = x := Option.some.inj (hy.symm.trans hx)
    exact ⟨hphase, hturn⟩
  · rintro ⟨hphase, hturn⟩
    exact ⟨x, hx, rfl, hphase, hturn⟩

/-- Settles O5: every command serves one kind of request, and a slot hands over what `handed_own_iff` says. -/
theorem requestsAreAdmittedFromTheirSlot : Obligations.RequestsAreAdmittedFromTheirSlot := by
  refine ⟨fun r k s hasked hrefused => ?_, fun r k s hother => ?_, ?_⟩
  · obtain ⟨act, hexec, href, -⟩ := exec_command r k
    rw [hexec, serve_asked hasked, href s hrefused]
    cases r <;> rfl
  · obtain ⟨act, hexec, -, hignored⟩ := exec_command r k
    rw [hexec]
    exact serve_of_ignored fun r' hreq => hignored r' s (hother r' hreq)
  · intro store s l k x hx
    have hstore : ∀ r, store r ↔ toProfileStore r = true := fun r => by cases r <;> simp [store, toProfileStore]
    simp only [hstore]
    exact handed_own_iff hx

end Sys2Proof.Machine
end

section
/-! PROOFS. The second, the power loss and a part without power (R14, R22, R23, R101; log 21, 24). -/

namespace Sys2Proof.Machine

/-! ### What a setter changes -/

theorem setClocks_changesOnly {bs : List Block} (h : .clocks ∈ bs) (s : State) (x : Clocks) : ChangesOnly bs s (setClocks s x) := by
  intro b hb
  cases b
  case clocks => exact absurd h hb
  all_goals rfl

theorem setPlant_changesOnly {bs : List Block} (h : .plant ∈ bs) (s : State) (x : Plant) : ChangesOnly bs s (setPlant s x) := by
  intro b hb
  cases b
  case plant => exact absurd h hb
  all_goals rfl

theorem setProfile_changesOnly {bs : List Block} (h : .profile ∈ bs) (s : State) (x : ProfileState) : ChangesOnly bs s (setProfile s x) := by
  intro b hb
  cases b
  case profile => exact absurd h hb
  all_goals rfl

theorem setStored_changesOnly {bs : List Block} (h : .stored ∈ bs) (s : State) (x : StoredCopy) : ChangesOnly bs s (setStored s x) := by
  intro b hb
  cases b
  case stored => exact absurd h hb
  all_goals rfl

theorem setCall_changesOnly {bs : List Block} (h : .call ∈ bs) (s : State) (x : CallState) : ChangesOnly bs s (setCall s x) := by
  intro b hb
  cases b
  case call => exact absurd h hb
  all_goals rfl

theorem setTanks_changesOnly {bs : List Block} (h : .tanks ∈ bs) (s : State) (x : List Tank) : ChangesOnly bs s (setTanks s x) := by
  intro b hb
  cases b
  case tanks => exact absurd h hb
  all_goals rfl

/-! ### A part without power -/

/-- Every command but POWER_ON serves a request or is an event. -/
theorem exec_serve_or_event {c : Instr} (h : c ≠ .powerOn) :
    (∃ l k act, ∀ s, exec c s = serve l k s act) ∨ ∃ act, ∀ s, exec c s = event s act := by
  cases c
  case powerOn => exact absurd rfl h
  case popn | pdat | pcls | copn | cend | clks | setp | gcal | tmap | dens | sndg | gqry | prev | hqry | prst | xovr | gang | ordr
      | ocan | orel | oqry | hwin | plan | pclr | hcor | sreq | sfrc | sskp | scan | taly | sfin | lstp | tatt | tdet | sqry | rcfg
      | rreq | aenb | aack | aqry | wrst =>
    exact .inl ⟨_, _, _, fun _ => rfl⟩
  all_goals exact .inr ⟨_, fun _ => rfl⟩

/-- A part without power takes no command but POWER_ON (log 24). -/
theorem exec_unpowered {c : Instr} {s : State} (h : s.powered = false) (hc : c ≠ .powerOn) : exec c s = .next s := by
  rcases exec_serve_or_event hc with ⟨l, k, act, e⟩ | ⟨act, e⟩
  · rw [e, serve_unpowered h]
  · rw [e, event_unpowered h]

/-! ### A second -/

theorem exec_uptimeSecond {s : State} (h : s.powered = true) : exec .uptimeSecond s = .next (oneSecond s) := event_powered h _

theorem oneSecond_changesOnly (s : State) : ChangesOnly [.clocks, .plant] s (oneSecond s) :=
  (setClocks_changesOnly (by decide) s _).trans (setPlant_changesOnly (by decide) _ _)

/-- Below its end the uptime clock moves by one, and a set call clock with it (R22, R23). -/
theorem Clocks.tick_below {c : Clocks} (h : c.uptime < Config.clockMax) :
    c.tick = { uptime := c.uptime + 1, call := c.call.map fun n => min Config.callClockMax (n + 1) } := if_pos h

/-- At its end the uptime clock stands, and the call clock with it (R22, R23). -/
theorem Clocks.tick_atEnd {c : Clocks} (h : Config.clockMax ≤ c.uptime) : c.tick = c := if_neg (Nat.not_lt.2 h)

/-! ### A power loss -/

theorem exec_powerLoss {s : State} (h : s.powered = true) : exec .powerLoss s = .next (losePower s) := event_powered h _

/-- A load record whose write is under way (R14). -/
theorem writing_iff {s : State} : writing s = true ↔ ∃ r c, s.profile = .loading r ∧ r.closing = some c ∧ c.writing = true := by
  unfold writing
  cases s.profile with
  | empty => simp
  | valid p => simp
  | loading r => cases hc : r.closing <;> simp [hc]

/-- A power loss that cuts off the write leaves no validity mark (R14). -/
theorem losePower_writing {s : State} (h : writing s = true) :
    losePower s = { s with powered := false, stored := { s.stored with mark := false } } := by
  simp [losePower, h, setStored, setPowered]

/-- Any other power loss leaves the stored copy as it is (log 24). -/
theorem losePower_idle {s : State} (h : writing s = false) : losePower s = { s with powered := false } := by
  simp [losePower, h, setStored, setPowered]

/-- Settles O7. -/
theorem secondsAndPowerLoss : Obligations.SecondsAndPowerLoss := by
  refine ⟨⟨fun s hpower => ?_, fun s r c hpower hprofile hclosing hwriting => ?_, fun s hpower hidle => ?_⟩,
    fun c s hpower hc => exec_unpowered hpower hc⟩
  · refine ⟨oneSecond s, exec_uptimeSecond hpower, oneSecond_changesOnly s, Clocks.tick_below, Clocks.tick_atEnd, rfl, ?_, ?_⟩
    · simp [oneSecond]
    · intro i p hp
      simp [oneSecond, hp, Pump.tick, Config.clockMax]
  · rw [exec_powerLoss hpower, losePower_writing (writing_iff.2 ⟨r, c, hprofile, hclosing, hwriting⟩)]
  · have hnot : writing s = false := by
      refine Bool.eq_false_iff.2 fun hwriting => ?_
      obtain ⟨r, c, hprofile, hclosing, hc⟩ := writing_iff.1 hwriting
      rw [hidle r c hprofile hclosing] at hc
      exact Bool.false_ne_true hc
    rw [exec_powerLoss hpower, losePower_idle hnot]

end Sys2Proof.Machine
end

section
/-! PROOFS. Power-on, warm reset and the output lines (R15, R16, R24, R84). -/

namespace Sys2Proof.Machine

/-! ### Output lines -/

theorem startPosition_eq (n : Nat) : startPosition n = n - 1 := Nat.zero_add _

theorem commandPosition_eq (v : Nat) : commandPosition v = v + 4 := Nat.zero_add _

/-- A position above the valves' command lines is not used (R84). -/
theorem outputLevel_unused {s : State} {position : Nat} (h : s.plant.valves.length + 4 ≤ position) : outputLevel s position = false := by
  have habsent : s.plant.valves[position - 4]? = none := List.getElem?_eq_none (by omega)
  rw [outputLevel, if_neg (by omega), habsent, Option.map_none, Option.getD_none, Bool.and_false]

/-- Only the tank valves can be undeclared (R84). -/
theorem undeclaredValve_eq_false {s : State} {v : Nat} : undeclaredValve s v = false ↔ (v < 24 → tankData s v ≠ none) := by
  cases h : tankData s v <;> simp [undeclaredValve, h]

/-- A plant whose pumps and valves are all released asserts no output line (R84). -/
theorem outputLevel_released {s : State} (hpumps : ∀ p ∈ s.plant.pumps, p.startLine = false)
    (hvalves : ∀ w ∈ s.plant.valves, w.commandedOpen = false) (position : Nat) : outputLevel s position = false := by
  unfold outputLevel
  split
  · cases hp : s.plant.pumps[position]? with
    | none => rfl
    | some p => exact hpumps p (List.mem_of_getElem? hp)
  · cases hw : s.plant.valves[position - 4]? with
    | none => simp
    | some w => simp [hvalves w (List.mem_of_getElem? hw)]

/-! ### Resets -/

/-- The part restarted with a profile state and what a reset keeps of `s`. -/
def restartedFrom (s : State) (p : ProfileState) : State :=
  State.restarted p s.stored s.rates.consoleStraps s.rates.terminalStraps s.plant.lines s.pending

theorem exec_powerOn (s : State) : exec .powerOn s = .next (restartedFrom s (verified s.stored)) := rfl

/-- A restart gives every block its values after reset (R24). -/
theorem restartedFrom_afterReset (s : State) (p : ProfileState) : AfterReset s (restartedFrom s p) where
  powered := rfl
  clocks := rfl
  call := by cases p <;> rfl
  settings := rfl
  rates := rfl
  stored := rfl
  gauge := rfl
  tanks := by cases p <;> rfl
  engine := rfl
  hull := rfl
  lines := rfl
  pumps := rfl
  valves := rfl
  attempts := rfl
  mains := ⟨rfl, rfl⟩
  modes := ⟨rfl, rfl, rfl, rfl⟩
  orders := rfl
  pour := rfl
  term := rfl
  reports := rfl
  attention := rfl
  console := rfl
  terminal := rfl
  wrst := rfl
  pending := rfl

/-- A restart releases every output line (R24, R84, R107). -/
theorem AfterReset.released {s t : State} (h : AfterReset s t) (position : Nat) : outputLevel t position = false := by
  refine outputLevel_released (fun p hp => ?_) (fun w hw => ?_) position
  · rw [h.pumps] at hp
    rw [List.eq_of_mem_replicate hp]
    rfl
  · rw [h.valves] at hw
    rw [List.eq_of_mem_replicate hw]
    rfl

/-- A warm reset keeps a VALID profile (R16). -/
theorem exec_warmReset_valid {s : State} {p : Profile} (hpower : s.powered = true) (h : s.profile = .valid p) :
    exec .warmReset s = .next (restartedFrom s (.valid p)) := by
  refine (event_powered hpower _).trans ?_
  simp [warmReset, h, restartedFrom]

/-- A warm reset without a profile in force leaves EMPTY (R16). -/
theorem exec_warmReset_none {s : State} (hpower : s.powered = true) (h : profileOf s = none) :
    exec .warmReset s = .next (restartedFrom s .empty) := by
  refine (event_powered hpower _).trans ?_
  unfold profileOf at h
  cases hp : s.profile with
  | valid p => simp [hp] at h
  | empty => simp [warmReset, hp, restartedFrom]
  | loading r => simp [warmReset, hp, restartedFrom]

theorem profileOf_of_valid {s : State} {p : Profile} (h : s.profile = .valid p) : profileOf s = some p := by simp [profileOf, h]

theorem profileOf_eq_some {s : State} {p : Profile} (h : profileOf s = some p) : s.profile = .valid p := by
  unfold profileOf at h
  split at h
  · next q hq => rw [hq, Option.some.inj h]
  · cases h

/-- A copy without its mark or with another CRC gives no profile (R2, R15). -/
theorem verified_of_broken {c : StoredCopy} (h : c.mark = false ∨ crc32 c.bytes ≠ c.crc) : verified c = .empty := by
  have hbroken : intact c = false := by
    rcases h with h | h <;> simp [intact, h]
  simp [verified, hbroken]

/-- An intact copy gives the profile its sections parse into (R2, R15). -/
theorem verified_of_intact {c : StoredCopy} {secs : List Sec} (hmark : c.mark = true) (hcrc : crc32 c.bytes = c.crc)
    (hread : readSections c.bytes.length c.bytes = some secs) : verified c = .valid (profileFrom secs) := by
  simp [verified, intact, hmark, hcrc, hread]

/-- Settles O6. -/
theorem resetsRestartThePart : Obligations.ResetsRestartThePart := by
  refine ⟨fun s => ?_, fun c => verified_of_broken, fun c secs => verified_of_intact, fun s hpower => ?_, fun s n p h1 h4 hp => ?_,
    fun s v w hw => ?_, fun s position hvalves hposition => ?_⟩
  · have hreset := restartedFrom_afterReset s (verified s.stored)
    exact ⟨_, exec_powerOn s, hreset, rfl, hreset.released⟩
  · cases hprofile : profileOf s with
    | none =>
      have hreset := restartedFrom_afterReset s .empty
      refine ⟨_, exec_warmReset_none hpower hprofile, hreset, fun p hp => ?_, fun _ => rfl, hreset.released⟩
      rw [profileOf_of_valid hp] at hprofile
      cases hprofile
    | some p =>
      have hvalid := profileOf_eq_some hprofile
      have hreset := restartedFrom_afterReset s (.valid p)
      exact ⟨_, exec_warmReset_valid hpower hvalid, hreset, fun q hq => hvalid.symm.trans hq, nofun, hreset.released⟩
  · exact startPosition_eq n ▸ outputLevel_start s n p h1 h4 hp
  · rw [← commandPosition_eq, outputLevel_command s v w hw, Bool.and_eq_true, Bool.not_eq_true', undeclaredValve_eq_false, and_comm]
  · exact outputLevel_unused (by omega)

end Sys2Proof.Machine
end

section
/-! PROOFS. PDAT: the tests of R12 in their order, and its turn (log 1, 51). -/

namespace Sys2Proof.Machine

/-! ### Fields and sections -/

/-- A number outside its range names nothing. -/
theorem natIn_outside {lo hi : Nat} {x : Int} (h : ¬(lo ≤ x ∧ x ≤ hi)) : natIn lo hi x = none := by
  simp only [natIn, within, Bool.and_eq_true, decide_eq_true_eq, if_neg h]

/-- A number in its range names itself. -/
theorem natIn_inside {lo hi n : Nat} (hlo : lo ≤ n) (hhi : n ≤ hi) : natIn lo hi n = some n := by
  simp [natIn, within, hlo, hhi]

/-- A section is held under a name and index. -/
theorem secData_isSome {secs : List Sec} {n : SecName} {i : Nat} :
    (secData secs n i).isSome = true ↔ ∃ x ∈ secs, x.name = n ∧ x.index = i := by
  simp [secData]

/-! ### PDAT -/

/-- A PDAT whose turn has come is dealt with (R12). -/
theorem exec_pdat {s : State} {k : Nat} {sn : List Byte} {xi : Int} {sd : List Byte} (h : Asked s .console k (.pdat sn xi sd)) :
    exec (.pdat k) s = .next (pdat k sn xi sd s) := by
  rw [exec, execPdat, serve_asked h]

/-- A slot of the profile store hands nothing over while a request that arrived before is not dealt with (R12; log 51). -/
theorem handed_eq_none_of_earlier {s : State} {l : Link} {k j : Nat} {x y : Slot} (hx : slotAt s l k = some x)
    (hy : slotAt s l j = some y) (hxstore : toProfileStore x.request = true) (hystore : toProfileStore y.request = true)
    (hphase : y.phase = .handed) (hbefore : y.arrival < x.arrival) : handed s l k = none := by
  refine Option.eq_none_iff_forall_ne_some.2 fun r hr => ?_
  obtain ⟨x', hx', rfl, -, hturn⟩ := handed_eq_some.1 hr
  obtain rfl : x' = x := Option.some.inj (hx'.symm.trans hx)
  exact absurd (hturn hxstore j y hy hphase hystore) (Nat.not_le.2 hbefore)

/-- Without a load PDAT is refused with STATE (R12, test 1). -/
theorem pdat_notLoading {s : State} (h : ∀ r, s.profile ≠ .loading r) (k : Nat) (sn : List Byte) (xi : Int) (sd : List Byte) :
    pdat k sn xi sd s = reply s .console k .state [] := by
  cases hp : s.profile with
  | loading r => exact absurd hp (h r)
  | empty => simp [pdat, hp, refuse]
  | valid p => simp [pdat, hp, refuse]

section Loading

variable {s : State} {r : LoadRecord} (hload : s.profile = .loading r) (k : Nat) {sn : List Byte} {xi : Int} {sd : List Byte}
include hload

/-- PDAT is refused with BUSY while the load closes (R12, test 2). -/
theorem pdat_closing (h : r.closing ≠ none) : pdat k sn xi sd s = reply s .console k .busy [] := by
  simp [pdat, hload, Option.isSome_iff_ne_none.2 h, refuse]

variable (hopen : r.closing = none)
include hopen

/-- PDAT is refused with FORMAT for a name that is none (R12, test 3). -/
theorem pdat_noName (h : secOf sn = none) : pdat k sn xi sd s = reply s .console k .format [] := by
  simp [pdat, hload, hopen, h, refuse]

variable {n : SecName} (hname : secOf sn = some n)
include hname

/-- PDAT is refused with RANGE for an index that its name has not (R12, test 4). -/
theorem pdat_noIndex (h : ¬((indexRange n).1 ≤ xi ∧ xi ≤ (indexRange n).2)) : pdat k sn xi sd s = reply s .console k .range [] := by
  simp [pdat, hload, hopen, hname, natIn_outside h, refuse]

variable {i : Nat} (hlo : (indexRange n).1 ≤ i) (hhi : i ≤ (indexRange n).2)
include hlo hhi

/-- PDAT is refused with FORMAT for data of another length (R12, test 5). -/
theorem pdat_wrongLength (h : sdLengthOk n sd = false) : pdat k sn i sd s = reply s .console k .format [] := by
  simp [pdat, hload, hopen, hname, natIn_inside hlo hhi, h, refuse]

variable (hlength : sdLengthOk n sd = true)
include hlength

/-- PDAT is refused with CONFLICT for a section that is held already (R12, test 6). -/
theorem pdat_held (h : ∃ x ∈ r.sections, x.name = n ∧ x.index = i) : pdat k sn i sd s = reply s .console k .conflict [] := by
  simp [pdat, hload, hopen, hname, natIn_inside hlo hhi, hlength, secData_isSome.2 h, refuse]

/-- PDAT takes a new section in (R12, test 7). -/
theorem pdat_accepted (h : ∀ x ∈ r.sections, ¬(x.name = n ∧ x.index = i)) :
    pdat k sn i sd s = reply (setLoad s (r.add { name := n, index := i, data := sd })) .console k .ok
      [(.LL, .num (r.byteCount + (4 + sd.length) : Nat))] := by
  have hnew : (secData r.sections n i).isSome = false :=
    Bool.eq_false_iff.2 fun hheld => absurd (secData_isSome.1 hheld) (by simpa using h)
  simp only [pdat, hload, hopen, hname, natIn_inside hlo hhi, hlength, hnew, Option.isSome_none, Bool.not_true, Bool.false_eq_true, if_false]
  rfl

end Loading

/-- Settles O17. -/
theorem pdatTestsInOrder : Obligations.PdatTestsInOrder := by
  refine ⟨fun s k j x y hx hy hxpdat hypdat hphase hbefore => ?_, fun k s sn xi sd hasked => ?_⟩
  · obtain ⟨_, _, _, hxreq⟩ := hxpdat
    obtain ⟨_, _, _, hyreq⟩ := hypdat
    have hnone := handed_eq_none_of_earlier hx hy (by rw [hxreq]; rfl) (by rw [hyreq]; rfl) hphase hbefore
    rw [exec, execPdat]
    exact serve_of_ignored fun r hr => absurd (hnone.symm.trans hr) nofun
  · rw [exec_pdat hasked]
    refine ⟨fun h => by rw [pdat_notLoading h], fun r hload => ⟨fun h => by rw [pdat_closing hload k h], fun hopen => ?_⟩⟩
    refine ⟨fun h => by rw [pdat_noName hload k hopen h], fun n hname => ⟨fun h => by rw [pdat_noIndex hload k hopen hname h], ?_⟩⟩
    rintro i rfl hlo hhi
    refine ⟨fun h => by rw [pdat_wrongLength hload k hopen hname hlo hhi h], fun hlength => ⟨fun h => ?_, fun h => ?_⟩⟩
    · rw [pdat_held hload k hopen hname hlo hhi hlength h]
    · rw [pdat_accepted hload k hopen hname hlo hhi hlength h]
      rfl

end Sys2Proof.Machine
end

section
/-! PROOFS. POPN: a load opened, the profile withdrawn and the waiting PREVs answered (R11, R72; log 23, 38). -/

namespace Sys2Proof.Machine

/-! ### A reply and its port -/

/-- The reply that the owner of slot `k` composes for the request it holds (R17, R191). -/
def replyTo (call : CallState) (k : Nat) (oc : Oc) (fields : List (Field × Val)) (x : Slot) : Class1 :=
  .reply { slot := some k, tag := x.tag, kind := kindAscii x.kind, outcome := oc, callState := call, fields := fields }

theorem slotAt_setPort (s : State) (l : Link) (p : Port) (j : Nat) : slotAt (setPort s l p) l j = (p.slots[j]?).join := by
  simp [slotAt]

theorem slotAt_setPhase (s : State) (l : Link) (k j : Nat) (ph : SlotPhase) :
    slotAt (setPhase s l k ph) l j = (slotAt s l j).map fun x => if j = k then { x with phase := ph } else x := by
  rw [setPhase, slotAt_setPort, slotAt, modAt_getElem?]
  by_cases hjk : k = j
  · subst hjk
    rcases (portOf s l).slots[k]? with _ | _ | x <;> simp
  · rw [if_neg hjk]
    rcases (portOf s l).slots[j]? with _ | _ | x <;> simp [Ne.symm hjk]

theorem slotAt_place (s : State) (l : Link) (f : Class1) (j : Nat) : slotAt (place s l f) l j = slotAt s l j :=
  slotAt_setPort s l _ j

/-- A reply marks its own slot replied and leaves the others alone. -/
theorem slotAt_reply (s : State) (l : Link) (k j : Nat) (oc : Oc) (fs : List (Field × Val)) :
    slotAt (reply s l k oc fs) l j = (slotAt s l j).map fun x => if j = k then { x with phase := .replied } else x := by
  unfold reply
  cases hk : slotAt s l k with
  | some x => rw [slotAt_place, slotAt_setPhase]
  | none =>
    by_cases hjk : j = k
    · simp [hjk, hk]
    · simp [hjk]

/-- A reply is placed last in its link's queue; an empty slot gets none. -/
theorem queue_reply (s : State) (l : Link) (k : Nat) (oc : Oc) (fs : List (Field × Val)) :
    (portOf (reply s l k oc fs) l).queue = (portOf s l).queue ++ ((slotAt s l k).map (replyTo s.call k oc fs)).toList := by
  unfold reply
  cases hk : slotAt s l k with
  | none => simp
  | some x => simp [place, setPhase, replyTo]

/-! ### Answers to withdrawn PREVs -/

/-- The slot in which a console requester's PREV waits. -/
def Requester.consoleSlot : Requester → Option Nat
  | .console k => some k
  | _ => none

theorem answerWithdrawn_eq (s : State) (r : Requester) :
    answerWithdrawn s r = (r.consoleSlot.map fun k => reply s .console k .state []).getD s := by
  cases r <;> rfl

/-- Withdrawn PREVs answered one after the other: each slot among them is replied. -/
theorem slotAt_foldl_answerWithdrawn (rs : List Requester) (s : State) (j : Nat) :
    slotAt (rs.foldl answerWithdrawn s) .console j = (slotAt s .console j).map fun x =>
      { x with phase := if j ∈ rs.filterMap Requester.consoleSlot then .replied else x.phase } := by
  induction rs generalizing s with
  | nil => simp
  | cons r rs ih =>
    rw [List.foldl_cons, ih, answerWithdrawn_eq]
    cases hr : r.consoleSlot with
    | none => simp [hr]
    | some k =>
      simp only [Option.map_some, Option.getD_some, slotAt_reply, Option.map_map, List.filterMap_cons, hr, List.mem_cons]
      congr 1
      funext x
      by_cases hjk : j = k <;> simp [hjk]

/-- Withdrawn PREVs answered one after the other: their refusals are placed in that order, in the call state in force. -/
theorem queue_foldl_answerWithdrawn (rs : List Requester) (s : State) :
    (rs.foldl answerWithdrawn s).console.queue = s.console.queue
      ++ (rs.filterMap Requester.consoleSlot).filterMap fun j => (slotAt s .console j).map (replyTo s.call j .state []) := by
  induction rs generalizing s with
  | nil => simp
  | cons r rs ih =>
    rw [List.foldl_cons, ih, answerWithdrawn_eq]
    cases hr : r.consoleSlot with
    | none => simp [hr]
    | some k =>
      have hcall : (reply s .console k .state []).call = s.call := (reply_path s .console k .state []).changesOnly .call (by decide)
      have hqueue := queue_reply s .console k .state []
      have hslot : ∀ j, (slotAt (reply s .console k .state []) .console j).map (replyTo s.call j .state [])
          = (slotAt s .console j).map (replyTo s.call j .state []) := by
        intro j
        rw [slotAt_reply, Option.map_map]
        congr 1
        funext x
        by_cases hjk : j = k <;> simp [hjk, replyTo]
      simp only [Option.map_some, Option.getD_some, hcall, hslot, List.filterMap_cons, hr]
      rw [show (reply s .console k .state []).console.queue = _ from hqueue]
      cases slotAt s .console k <;> simp [portOf]

/-! ### The withdrawal -/

theorem foldl_answerWithdrawn_path (rs : List Requester) (s : State) : Path [.console] s (rs.foldl answerWithdrawn s) :=
  foldl_path answerWithdrawn_path rs s

/-- The state in which the withdrawn PREVs are answered: the load is open and the call state NO_PROFILE (log 23). -/
def withdrawn (s : State) : State := setEngine (setTanks (setCall (openLoad s) .noProfile) []) Engine.initial

theorem withdrawProfile_eq (s : State) :
    withdrawProfile s = resetHull ((previewRequesters s.engine).foldl answerWithdrawn (withdrawn s)) := rfl

theorem openLoad_changesOnly {bs : List Block} (hp : .profile ∈ bs) (hs : .stored ∈ bs) (s : State) : ChangesOnly bs s (openLoad s) :=
  (setProfile_changesOnly hp s _).trans (setStored_changesOnly hs _ _)

theorem withdrawn_changesOnly (s : State) : ChangesOnly [.profile, .stored, .call, .tanks, .engine] s (withdrawn s) :=
  (((openLoad_changesOnly (by decide) (by decide) s).trans (setCall_changesOnly (by decide) _ _)).trans
    (setTanks_changesOnly (by decide) _ _)).trans
    ((setEngine_path _ _ fun _ => by simp [EngineOk, Engine.initial]).changesOnly.mono (by decide))

theorem resetHull_hull (s : State) : (resetHull s).hull = Hull.initial := (reportHullCauses_path (setHull s Hull.initial)).changesOnly .hull (by decide)

/-- What the withdrawal of the profile does after the blocks are set: it answers the PREVs, resets the hull record and replies to POPN. -/
theorem answered_path (s : State) (k : Nat) :
    Path [.console, .hull, .attention] (withdrawn s) (reply (withdrawProfile s) .console k .ok []) :=
  ((foldl_answerWithdrawn_path _ _).andThen (resetHull_path _)).trans ((reply_path _ _ _ _ _).mono (by decide))

/-- The console port is not the hull supervisor's: a reset of the hull record leaves it alone. -/
theorem resetHull_console (s : State) : (resetHull s).console = s.console := (resetHull_path s).changesOnly .console (by decide)

theorem slotAt_withdrawProfile (s : State) (j : Nat) :
    slotAt (withdrawProfile s) .console j = (slotAt s .console j).map fun x =>
      { x with phase := if j ∈ (previewRequesters s.engine).filterMap Requester.consoleSlot then .replied else x.phase } := by
  rw [withdrawProfile_eq, slotAt, portOf, resetHull_console]
  exact slotAt_foldl_answerWithdrawn _ (withdrawn s) j

/-- After POPN its own slot is replied, and so are those of the withdrawn PREVs. -/
theorem slotAt_popn_withdraws (s : State) (k j : Nat) :
    slotAt (reply (withdrawProfile s) .console k .ok []) .console j = (slotAt s .console j).map fun x => { x with
      phase := if j = k ∨ j ∈ (previewRequesters s.engine).filterMap Requester.consoleSlot then .replied else x.phase } := by
  rw [slotAt_reply, slotAt_withdrawProfile, Option.map_map]
  congr 1
  funext x
  by_cases hjk : j = k <;> simp [hjk]

theorem queue_withdrawProfile (s : State) :
    (withdrawProfile s).console.queue = s.console.queue ++ ((previewRequesters s.engine).filterMap Requester.consoleSlot).filterMap fun j =>
      (slotAt s .console j).map (replyTo .noProfile j .state []) := by
  rw [withdrawProfile_eq, resetHull_console]
  exact queue_foldl_answerWithdrawn _ (withdrawn s)

theorem withdrawProfile_call (s : State) : (withdrawProfile s).call = .noProfile :=
  ((foldl_answerWithdrawn_path _ _).andThen (resetHull_path _) (ds := [.console, .hull, .attention])).changesOnly .call (by decide)

/-! ### POPN -/

theorem exec_popn {s : State} {k : Nat} (h : Asked s .console k .popn) : exec (.popn k) s = .next (popn k s) := by
  rw [exec, execPopn, serve_asked h]

/-- Without a profile in force or a load that closes POPN opens a load (R11). -/
theorem popn_opens {s : State} (h : s.profile = .empty ∨ ∃ r, s.profile = .loading r ∧ r.closing = none) (k : Nat) :
    popn k s = reply (openLoad s) .console k .ok [] := by
  rcases h with h | ⟨r, h, hopen⟩
  · simp [popn, h]
  · simp [popn, h, hopen]

/-- POPN is refused with BUSY while the load closes (R11). -/
theorem popn_closing {s : State} {r : LoadRecord} {c : Closing} (h : s.profile = .loading r) (hc : r.closing = some c) (k : Nat) :
    popn k s = reply s .console k .busy [] := by simp [popn, h, hc, refuse]

/-- POPN is refused with STATE in a call (R11). -/
theorem popn_inCall {s : State} {p : Profile} (h : s.profile = .valid p) (hcall : s.call ≠ .idle) (k : Nat) :
    popn k s = reply s .console k .state [] := by simp [popn, h, hcall, refuse]

/-- POPN withdraws a VALID profile in IDLE (R11). -/
theorem popn_withdraws {s : State} {p : Profile} (h : s.profile = .valid p) (hcall : s.call = .idle) (k : Nat) :
    popn k s = reply (withdrawProfile s) .console k .ok [] := by simp [popn, h, hcall]

/-- Settles O16. -/
theorem popnOpensALoad : Obligations.PopnOpensALoad := by
  refine ⟨fun k s hasked h => ?_, fun k s r c hasked h hc => ?_, fun k s p hasked h hcall => ?_, fun k s p hasked h hcall => ?_⟩
  · rw [exec_popn hasked, popn_opens h]
    rfl
  · rw [exec_popn hasked, popn_closing h hc]
  · rw [exec_popn hasked, popn_inCall h hcall]
  · rw [exec_popn hasked, popn_withdraws h hcall]
    have hpath := answered_path s k
    have hkeeps := hpath.changesOnly
    refine ⟨_, rfl, (withdrawn_changesOnly s |>.mono (by decide)).trans (hkeeps.mono (by decide)), hpath.profile,
      hkeeps .stored (by decide), hkeeps .call (by decide), hkeeps .tanks (by decide), hkeeps .engine (by decide), ?_, ?_, ?_⟩
    · exact ((reply_path _ .console k .ok []).changesOnly .hull (by decide)).trans (resetHull_hull _)
    · intro j x hx
      rw [slotAt_popn_withdraws, hx]
      rfl
    · intro sl hsl
      have hqueue := queue_reply (withdrawProfile s) .console k .ok []
      rw [slotAt_withdrawProfile, hsl, withdrawProfile_call] at hqueue
      refine hqueue.trans (congrArg (· ++ _) (queue_withdrawProfile s))

end Sys2Proof.Machine
end

section
/-! PROOFS. Bytes and frames read back, and a received frame dealt with in the order of R190 (R12, R188, R194; log 8, 10, 30, 51). -/

namespace Sys2Proof.Machine

/-! ### Numbers as bytes -/

@[simp] theorem natBytes_length (n x : Nat) : (natBytes n x).length = n := by
  induction n generalizing x with
  | zero => rfl
  | succ n ih => simp [natBytes, ih]

/-- The last byte read is the least significant (R194). -/
theorem natOfBytes_concat (bytes : List Byte) (b : Byte) : natOfBytes (bytes ++ [b]) = natOfBytes bytes * 256 + b.toNat := by
  simp [natOfBytes]

/-- A number written in `n` bytes is read back up to what they can hold (R194). -/
theorem natOfBytes_natBytes (n x : Nat) : natOfBytes (natBytes n x) = x % 256 ^ n := by
  induction n generalizing x with
  | zero => simp [natBytes, natOfBytes, Nat.mod_one]
  | succ n ih =>
    have hsplit : x % 256 ^ (n + 1) = x % 256 + 256 * (x / 256 % 256 ^ n) := by rw [Nat.pow_succ', Nat.mod_mul]
    rw [natBytes, natOfBytes_concat, ih, BitVec.toNat_ofNat, hsplit]
    omega

/-! ### A frame read back -/

/-- A CRC written in two bytes is read back (R194). -/
theorem crc_readBack (crc : Crc16) : BitVec.ofNat 16 (natOfBytes (natBytes 2 crc.toNat)) = crc := by
  rw [natOfBytes_natBytes, Nat.mod_eq_of_lt (show crc.toNat < 256 ^ 2 from crc.isLt), BitVec.ofNat_toNat, BitVec.setWidth_eq]

/-- A frame laid out byte by byte: start byte, length, kind, tag, body, CRC (R188, R194). -/
theorem frameBytes_eq {kind : List Byte} (tag : Byte) (body rest : List Byte) {a b c d : Byte} (hkind : kind = [a, b, c, d]) :
    frameBytes kind tag body ++ rest
      = 0x5A#8 :: BitVec.ofNat 8 (body.length / 256) :: BitVec.ofNat 8 body.length :: a :: b :: c :: d :: tag
        :: (body ++ (natBytes 2 (crc16 (natBytes 2 body.length ++ kind ++ [tag] ++ body)).toNat ++ rest)) := by
  subst hkind
  simp [frameBytes, natBytes]

/-- A frame is read back from the front of what follows it (R188, R194). -/
theorem readFrame_frameBytes {kind : List Byte} {body : List Byte} (hkind : kind.length = 4) (hbody : body.length ≤ 1024) (tag : Byte)
    (rest : List Byte) : readFrame (frameBytes kind tag body ++ rest) = .frame kind tag body rest := by
  obtain ⟨a, b, c, d, rfl⟩ : ∃ a b c d, kind = [a, b, c, d] := by
    match kind, hkind with
    | [a, b, c, d], _ => exact ⟨a, b, c, d, rfl⟩
  have hlength : natOfBytes [BitVec.ofNat 8 (body.length / 256), BitVec.ofNat 8 body.length] = body.length :=
    (natOfBytes_natBytes 2 body.length).trans (Nat.mod_eq_of_lt (by omega))
  have hcovered : natBytes 2 body.length ++ [a, b, c, d] ++ [tag] ++ body
      = BitVec.ofNat 8 (body.length / 256) :: BitVec.ofNat 8 body.length :: a :: b :: c :: d :: tag :: body := by simp [natBytes]
  have hfits : ¬Config.bodyMax < body.length := Nat.not_lt.2 hbody
  have hcrc : ∀ crc : Crc16, (natBytes 2 crc.toNat ++ rest).take 2 = natBytes 2 crc.toNat := fun crc => List.take_left' (by simp)
  have hrest : ∀ crc : Crc16, (natBytes 2 crc.toNat ++ rest).drop 2 = rest := fun crc => List.drop_left' (by simp)
  have hwhole : 10 + body.length ≤ (frameBytes [a, b, c, d] tag body ++ rest).length := by
    simp [frameBytes_eq tag body rest rfl]
    omega
  rw [readFrame, if_neg (by omega), frameBytes_eq tag body rest rfl, hcovered]
  rw [frameBytes_eq tag body rest rfl, hcovered] at hwhole
  simp only [List.drop_succ_cons, List.drop_zero, List.take_succ_cons, List.take_zero, hlength, if_neg hfits,
    Nat.add_comm _ body.length, List.take_left, List.drop_left, ← List.drop_drop, hcrc, hrest, crc_readBack, if_true, List.headD_cons]
  exact if_neg (by omega)

/-! ### A received frame -/

theorem setPort_setPort (s : State) (l : Link) (p q : Port) : setPort (setPort s l p) l q = setPort s l q := by cases l <;> rfl

theorem setPort_call (s : State) (l : Link) (p : Port) : (setPort s l p).call = s.call := by cases l <;> rfl

theorem lastByte_of_ne_nil {bytes : List Byte} (h : bytes ≠ []) (s : State) (r : Receiver) : lastByte s r bytes = s.clocks.uptime := by
  simp [lastByte, h, now]

theorem exec_frameReceived {s : State} (h : s.powered = true) (l : Link) (bytes : List Byte) :
    exec (.frameReceived l bytes) s = .next (collectIn l bytes s) := event_powered h _

/-- A listening part takes bytes in on the link. -/
theorem Listening.listens {s : State} {l : Link} (h : Listening s l) : listens s l = true := by
  have hwrst := h.2
  cases l <;> simp_all [Machine.listens]

section Received

variable {l : Link} {s : State} {bytes kind : List Byte} {tag : Byte} {body rest : List Byte}
  (hlisten : Listening s l) (hcollect : (portOf s l).rx.collecting = true) (hbytes : bytes ≠ [])
  (hframe : readFrame ((portOf s l).rx.bytes ++ bytes) = .frame kind tag body rest)
include hlisten hcollect hbytes hframe

/-- A frame that gets a port reply is answered while fewer than 8 wait (R190; log 8). -/
theorem exec_frameReceived_answered {oc : Oc} {fs : List (Field × Val)} (hdeal : dealWith s l kind tag body = .port oc fs)
    (hroom : portRepliesWaiting (portOf s l) < 8) :
    exec (.frameReceived l bytes) s = .next (setPort s l { portOf s l with
      rx := { collecting := false, bytes := rest, lastByteAt := s.clocks.uptime }
      queue := (portOf s l).queue ++ [.reply { slot := none, tag := tag, kind := kind, outcome := oc, callState := s.call, fields := fs }] }) := by
  simp [exec_frameReceived hlisten.1, collectIn, hlisten.listens, hcollect, lastByte_of_ne_nil hbytes, hframe, hdeal, Config.portReplyMax,
    hroom, portReply, place, huntOn, setRx, setPort_setPort, setPort_call]

/-- A frame that would need a ninth port reply is discarded like a damaged one (R188, R190; log 8). -/
theorem exec_frameReceived_ninth {oc : Oc} {fs : List (Field × Val)} (hdeal : dealWith s l kind tag body = .port oc fs)
    (hfull : 8 ≤ portRepliesWaiting (portOf s l)) :
    exec (.frameReceived l bytes) s = .next (setPort s l { portOf s l with
      rx := { collecting := false, bytes := ((portOf s l).rx.bytes ++ bytes).tail, lastByteAt := s.clocks.uptime } }) := by
  simp [exec_frameReceived hlisten.1, collectIn, hlisten.listens, hcollect, lastByte_of_ne_nil hbytes, hframe, hdeal, Config.portReplyMax,
    Nat.not_lt.2 hfull, huntOn, setRx]

/-- A request that finds a slot takes it (R190, step 5). -/
theorem exec_frameReceived_taken {k : Nat} {sl : Slot} (hdeal : dealWith s l kind tag body = .slot k sl) :
    exec (.frameReceived l bytes) s = .next (setPort s l { portOf s l with
      rx := { collecting := false, bytes := rest, lastByteAt := s.clocks.uptime }
      slots := modAt (portOf s l).slots k fun _ => some sl }) := by
  simp [exec_frameReceived hlisten.1, collectIn, hlisten.listens, hcollect, lastByte_of_ne_nil hbytes, hframe, hdeal, takeSlot, huntOn,
    setRx, setPort_setPort]

end Received

/-! ### The order of R190 -/

section Dealt

variable {l : Link} {s : State} {kind : List Byte} (tag : Byte) {body : List Byte}

theorem dealWith_unknown (h : kindOf l kind = none) : dealWith s l kind tag body = .port .unknown [] := by simp [dealWith, h]

variable {k : Kind} (hkind : kindOf l kind = some k)
include hkind

theorem dealWith_busy (h : freeSlot (portOf s l) = none) : dealWith s l kind tag body = .port .busy [] := by simp [dealWith, hkind, h]

variable {n : Nat} (hfree : freeSlot (portOf s l) = some n)
include hfree

theorem dealWith_lost (h : l = .terminal ∧ s.term.state = .lost ∧ k ≠ .TATT) :
    dealWith s l kind tag body = .port .state [(.LS, .num 3)] := by
  obtain ⟨rfl, hlost, htatt⟩ := h
  simp [dealWith, hkind, hfree, hlost, htatt, linkCode]

variable (hlink : ¬(l = .terminal ∧ s.term.state = .lost ∧ k ≠ .TATT))
include hlink

theorem dealWith_format (h : parseBody k body = none) : dealWith s l kind tag body = .port .format [] := by
  have hgo : (l = .terminal && s.term.state = .lost && k != .TATT) = false := by simpa [and_assoc] using hlink
  simp [dealWith, hkind, hfree, hgo, h]

theorem dealWith_slot {r : Request} (h : parseBody k body = some r) :
    dealWith s l kind tag body
      = .slot n { request := r, kind := k, tag := tag, phase := .handed, arrival := nextArrival (portOf s l) } := by
  have hgo : (l = .terminal && s.term.state = .lost && k != .TATT) = false := by simpa [and_assoc] using hlink
  simp [dealWith, hkind, hfree, hgo, h]

end Dealt

/-- Settles O12: the frame is read back from the collected bytes, and `dealWith` goes through the tests of R190 in their order. -/
theorem receivedFrameIsDealtWith : Obligations.ReceivedFrameIsDealtWith := by
  intro l s bytes kind tag body rest hlisten hcollect hbytes hcollected hkindLength hbody rx answered
  have hframe : readFrame ((portOf s l).rx.bytes ++ bytes) = .frame kind tag body rest := by
    rw [hcollected, readFrame_frameBytes hkindLength hbody]
  have hanswered : ∀ oc fs, dealWith s l kind tag body = .port oc fs → answered oc fs := fun oc fs hdeal =>
    ⟨exec_frameReceived_answered hlisten hcollect hbytes hframe hdeal, exec_frameReceived_ninth hlisten hcollect hbytes hframe hdeal⟩
  refine ⟨fun h => hanswered _ _ (dealWith_unknown tag h), fun k hkind => ⟨fun h => hanswered _ _ (dealWith_busy tag hkind h), ?_⟩⟩
  intro n hfree
  refine ⟨fun h => hanswered _ _ (dealWith_lost tag hkind hfree h), fun hlink => ?_⟩
  refine ⟨fun h => hanswered _ _ (dealWith_format tag hkind hfree hlink h), fun r hr => ?_⟩
  refine ⟨nextArrival (portOf s l), fun j x hx => ?_, ?_⟩
  · exact arrival_lt_nextArrival (List.mem_of_getElem? (Option.join_eq_some_iff.1 hx))
  · exact exec_frameReceived_taken hlisten hcollect hbytes hframe (dealWith_slot tag hkind hfree hlink hr)

end Sys2Proof.Machine
end

section
/-! PROOFS. Stored sections read back (R3, R15). -/

namespace Sys2Proof.Machine

/-- A section name is read back from its three letters (R3). -/
theorem secOf_secAscii (n : SecName) : secOf (secAscii n) = some n := by cases n <;> decide

/-- A one-byte field is its byte (R3). -/
theorem natOfBytes_singleton (b : Byte) : natOfBytes [b] = b.toNat := by simp [natOfBytes]

/-- The length read from section data of an allowed length is that length, whatever follows (R3). -/
theorem storedLength_append {n : SecName} {d : List Byte} (h : sdLengthOk n d = true) (rest : List Byte) :
    storedLength n (d ++ rest) = d.length := by
  cases n
  case snd =>
    cases d with
    | nil => cases h
    | cons c d =>
      simp only [sdLengthOk, Bool.and_eq_true, decide_eq_true_eq] at h
      simp [storedLength, fieldU, natOfBytes_singleton, h.2]
  all_goals exact (of_decide_eq_true h).symm

/-- A section at the front of stored bytes is read off (R3). -/
theorem readSections_sectionBytes {x : Sec} (hlength : sdLengthOk x.name x.data = true) (hindex : x.index ≤ 255) (fuel : Nat)
    (rest : List Byte) : readSections (fuel + 1) (sectionBytes x ++ rest) = (readSections fuel rest).map (x :: ·) := by
  obtain ⟨a, b, c, habc⟩ : ∃ a b c, secAscii x.name = [a, b, c] := by cases x.name <;> exact ⟨_, _, _, rfl⟩
  have hbytes : sectionBytes x ++ rest = a :: b :: c :: BitVec.ofNat 8 x.index :: (x.data ++ rest) := by
    simp [sectionBytes, habc, natBytes]
  have hname : secOf [a, b, c] = some x.name := habc ▸ secOf_secAscii x.name
  have hindexByte : (BitVec.ofNat 8 x.index).toNat = x.index := by
    rw [BitVec.toNat_ofNat]
    exact Nat.mod_eq_of_lt (by omega)
  simp [hbytes, readSections, hname, storedLength_append hlength, hindexByte]

/-- Stored sections are read back with any fuel that counts them (R3, R15). -/
theorem readSections_flatMap {secs : List Sec} (h : ∀ x ∈ secs, sdLengthOk x.name x.data = true ∧ x.index ≤ 255) {fuel : Nat}
    (hfuel : secs.length ≤ fuel) : readSections fuel (secs.flatMap sectionBytes) = some secs := by
  induction secs generalizing fuel with
  | nil => cases fuel <;> rfl
  | cons x secs ih =>
    obtain ⟨hx, hsecs⟩ := List.forall_mem_cons.1 h
    cases fuel with
    | zero => cases hfuel
    | succ fuel => rw [List.flatMap_cons, readSections_sectionBytes hx.1 hx.2, ih hsecs (Nat.le_of_succ_le_succ hfuel), Option.map_some]

/-- Each section takes at least one byte, so the bytes count the sections. -/
theorem length_le_flatMap_sectionBytes (secs : List Sec) : secs.length ≤ (secs.flatMap sectionBytes).length := by
  induction secs with
  | nil => simp
  | cons x secs ih =>
    simp only [List.length_cons, List.flatMap_cons, List.length_append, sectionBytes, natBytes_length]
    omega

/-- Settles O10, by induction on the stored sections. -/
theorem storedSectionsReadBack : Obligations.StoredSectionsReadBack := fun secs h =>
  readSections_flatMap h (length_le_flatMap_sectionBytes secs)

end Sys2Proof.Machine
end

section
/-! PROOFS. PCLS, the end of the checks and the end of the write (R13, R14, R17; log 19). -/

namespace Sys2Proof.Machine

/-! ### PCLS -/

theorem exec_pcls {s : State} {k : Nat} {cr : Crc32} (h : Asked s .console k (.pcls cr)) : exec (.pcls k) s = .next (pcls k cr s) := by
  rw [exec, execPcls, serve_asked h]

/-- Without a load PCLS is refused with STATE (R13). -/
theorem pcls_notLoading {s : State} (h : ∀ r, s.profile ≠ .loading r) (k : Nat) (cr : Crc32) :
    pcls k cr s = reply s .console k .state [] := by
  cases hp : s.profile with
  | loading r => exact absurd hp (h r)
  | empty => simp [pcls, hp, refuse]
  | valid p => simp [pcls, hp, refuse]

/-- PCLS is refused with BUSY while the load closes (R13). -/
theorem pcls_closing {s : State} {r : LoadRecord} (hload : s.profile = .loading r) (h : r.closing ≠ none) (k : Nat) (cr : Crc32) :
    pcls k cr s = reply s .console k .busy [] := by
  simp [pcls, hload, Option.isSome_iff_ne_none.2 h, refuse]

/-- PCLS of an open load sets the closing flag, and its reply waits (R13). -/
theorem pcls_open {s : State} {r : LoadRecord} (hload : s.profile = .loading r) (h : r.closing = none) (k : Nat) (cr : Crc32) :
    pcls k cr s = hold (setLoad s { r with closing := some { slot := k, cr := cr, writing := false } }) .console k := by
  simp [pcls, hload, h]

/-! ### The checks -/

theorem exec_profileChecksComplete {s : State} (h : s.powered = true) : exec .profileChecksComplete s = .next (checksEnd s) :=
  event_powered h _

section Checks

variable {s : State} {r : LoadRecord} {c : Closing} (hload : s.profile = .loading r) (hclosing : r.closing = some c)
  (hwriting : c.writing = false)
include hload hclosing hwriting

/-- Another CRC ends the load with PROFILE_CRC (R13). -/
theorem checksEnd_wrongCrc (h : ~~~r.crc ≠ c.cr) :
    checksEnd s = reply (failLoad s) .console c.slot .profileCrc [(.CR, .raw (natBytes 4 (~~~r.crc).toNat))] := by
  simp [checksEnd, hload, hclosing, hwriting, crc32Finish, h]

/-- A section that fails ends the load with PROFILE (R13). -/
theorem checksEnd_failed (hcrc : ~~~r.crc = c.cr) {n : SecName} {i : Nat} (h : firstFailure r.sections = some (n, i)) :
    checksEnd s = reply (failLoad s) .console c.slot .profile [(.SN, .raw (secAscii n)), (.XI, .num i)] := by
  simp [checksEnd, hload, hclosing, hwriting, crc32Finish, hcrc, h]

/-- A load that passes begins the write (R13). -/
theorem checksEnd_passed (hcrc : ~~~r.crc = c.cr) (h : firstFailure r.sections = none) :
    checksEnd s = setLoad s { r with closing := some { c with writing := true } } := by
  simp [checksEnd, hload, hclosing, hwriting, crc32Finish, hcrc, h]

end Checks

/-! ### The write -/

theorem exec_nonVolatileWriteComplete {s : State} (h : s.powered = true) (back : List Byte) :
    exec (.nonVolatileWriteComplete back) s = .next (writeEnd back s) := event_powered h _

section Write

variable {s : State} {r : LoadRecord} {c : Closing} (hload : s.profile = .loading r) (hclosing : r.closing = some c)
  (hwriting : c.writing = true)
include hload hclosing hwriting

/-- A copy that reads back with another CRC leaves EMPTY and no mark (R14). -/
theorem writeEnd_wrongCrc {back : List Byte} (h : crc32 back ≠ c.cr) :
    writeEnd back s = reply (failLoad (setStored s { mark := false, bytes := back, count := r.byteCount, crc := c.cr }))
      .console c.slot .profileCrc [] := by
  simp [writeEnd, hload, hclosing, hwriting, h]

/-- A copy that reads back right makes the profile VALID; PCLS is answered before the profile is announced (R14; log 19). -/
theorem writeEnd_good {back : List Byte} (h : crc32 back = c.cr) :
    writeEnd back s = announceProfile (reply
      (setProfile (setStored s { mark := true, bytes := back, count := r.byteCount, crc := c.cr }) (.valid (profileFrom r.sections)))
      .console c.slot .ok []) := by
  simp [writeEnd, hload, hclosing, hwriting, h]

end Write

/-- A reply's port comes of its own port and the call state. -/
theorem reply_port_congr {s t : State} {l : Link} (hport : portOf s l = portOf t l) (hcall : s.call = t.call) (k : Nat) (oc : Oc)
    (fs : List (Field × Val)) : portOf (reply s l k oc fs) l = portOf (reply t l k oc fs) l := by
  unfold reply slotAt
  rw [hport]
  cases (portOf t l).slots[k]?.join with
  | none => exact hport
  | some x => simp [place, setPhase, hport, hcall]

/-- The announcement of a profile sets call state, tank table and hull record and reports the hull's causes (R14, R47, R83). -/
theorem announceProfile_changesOnly (s : State) : ChangesOnly [.call, .tanks, .hull, .attention] s (announceProfile s) :=
  ((setCall_changesOnly (by decide) s _).trans (setTanks_changesOnly (by decide) _ _)).trans
    ((resetHull_path _).changesOnly.mono (by decide))

theorem announceProfile_call (s : State) : (announceProfile s).call = .idle := (resetHull_path _).changesOnly .call (by decide)

theorem announceProfile_tanks (s : State) : (announceProfile s).tanks = tanksOf s.profile := (resetHull_path _).changesOnly .tanks (by decide)

theorem announceProfile_hull (s : State) : (announceProfile s).hull = Hull.initial := resetHull_hull _

/-- What the end of a good write makes of the part (R14, R17; log 19). -/
theorem writtenProfile_spec (s : State) (p : Profile) (x : StoredCopy) (k : Nat) :
    let t := announceProfile (reply (setProfile (setStored s x) (.valid p)) .console k .ok [])
    ChangesOnly [.profile, .stored, .call, .tanks, .hull, .attention, .console] s t ∧ t.profile = .valid p ∧ t.stored = x ∧ t.call = .idle
      ∧ t.tanks = p.tanks.map Tank.initial ∧ t.hull = Hull.initial ∧ Replied s t .console k .ok [] := by
  intro t
  have hset : ChangesOnly [.profile, .stored] s (setProfile (setStored s x) (.valid p)) :=
    (setStored_changesOnly (by decide) s x).trans (setProfile_changesOnly (by decide) _ _)
  have hreply := (reply_path (setProfile (setStored s x) (.valid p)) .console k .ok []).changesOnly
  have hannounce := announceProfile_changesOnly (reply (setProfile (setStored s x) (.valid p)) .console k .ok [])
  have hprofile : (reply (setProfile (setStored s x) (.valid p)) .console k .ok []).profile = .valid p := hreply .profile (by decide)
  refine ⟨((hset.mono (by decide)).trans (hreply.mono (by decide))).trans (hannounce.mono (by decide)),
    (hannounce .profile (by decide)).trans hprofile, (hannounce .stored (by decide)).trans (hreply .stored (by decide)),
    announceProfile_call _, ?_, announceProfile_hull _, ?_⟩
  · rw [announceProfile_tanks, hprofile]
    rfl
  · exact (hannounce .console (by decide)).trans (reply_port_congr (s := setProfile (setStored s x) (.valid p)) (t := s)
      (l := .console) rfl rfl k .ok [])

end Sys2Proof.Machine
end

section
/-! PROOFS. The structural checks of R13 and the fields of the profile in force (R3 to R9). -/

namespace Sys2Proof.Machine

/-! ### Ranges -/

theorem inRange_iff {lo hi x : Nat} : inRange lo hi x = true ↔ lo ≤ x ∧ x ≤ hi := by simp [inRange]

theorem within_iff {lo hi x : Int} : within lo hi x = true ↔ lo ≤ x ∧ x ≤ hi := by simp [within]

/-- The name bytes are ASCII characters (R5, R7). -/
theorem nameOk_iff {d : List Byte} : nameOk d = true ↔ ∀ b ∈ d.take 4, 0x20 ≤ b.toNat ∧ b.toNat ≤ 0x7E := by
  simp [nameOk, inRange_iff]

/-! ### The own checks of each section -/

/-- GEN is sound in the ranges of R4. -/
theorem genOk_iff {d : List Byte} : genOk d = true ↔ 1 ≤ fieldU d 0 4 ∧ fieldU d 0 4 ≤ 150000 ∧ fieldU d 4 4 ≤ 40000
    ∧ 1 ≤ fieldU d 8 1 ∧ fieldU d 8 1 ≤ 24 ∧ 1 ≤ fieldU d 9 1 ∧ fieldU d 9 1 ≤ 9 ∧ 1 ≤ fieldU d 10 1 ∧ fieldU d 10 1 ≤ 12
    ∧ 2 ≤ fieldU d 11 1 ∧ fieldU d 11 1 ≤ 16 := by
  simp [genOk, countsOf, inRange_iff, and_assoc]

/-- TNK is sound in the ranges of R5, on a channel that no tank before it has. -/
theorem tnkOk_iff {secs : List Sec} {i : Nat} {d : List Byte} : tnkOk secs i d = true ↔
    (∀ b ∈ d.take 4, 0x20 ≤ b.toNat ∧ b.toNat ≤ 0x7E) ∧ fieldU d 4 1 ≤ 1 ∧ fieldU d 5 4 ≤ 40000 ∧ 1 ≤ fieldU d 9 2
      ∧ fieldU d 9 2 ≤ 30000 ∧ fieldU d 11 2 < fieldU d 9 2 ∧ 1000 ≤ fieldU d 13 2 ∧ fieldU d 13 2 ≤ 1050 ∧ fieldU d 15 2 ≤ 2000
      ∧ (fieldU d 17 1 ≤ 31 ∨ fieldU d 17 1 = 255)
      ∧ (fieldU d 17 1 = 255 ∨ ∀ j, j < i → fieldU (dataOr secs .tnk j) 17 1 ≠ fieldU d 17 1) := by
  simp [tnkOk, nameOk_iff, inRange_iff, and_assoc]

/-- The sounding points rise exactly when each next one does (R6). -/
theorem pointsRise_iff {ps : List SndPoint} :
    pointsRise ps = true ↔ ps.IsChain fun p q => p.level < q.level ∧ p.volume ≤ q.volume := by
  induction ps with
  | nil => simp [pointsRise]
  | cons p ps ih =>
    cases ps with
    | nil => simp [pointsRise]
    | cons q ps => simp [pointsRise, ih, List.isChain_cons_cons]

/-- The sounding points of SND data, numbered from 0 (R6). -/
theorem pointsOf_eq (d : List Byte) :
    pointsOf d = (List.range (fieldU d 0 1)).map fun j => { level := fieldU d (1 + 6 * j) 2, volume := fieldU d (3 + 6 * j) 4 } := by
  simp [pointsOf]

/-- SND with at least one point is sound in the ranges of R6: from level 0, rising, and up to the tank's greatest level. -/
theorem sndOk_iff {secs : List Sec} {i : Nat} {d : List Byte} (h : 1 ≤ fieldU d 0 1) : sndOk secs i d = true ↔
    (∀ j, j < fieldU d 0 1 → fieldU d (1 + 6 * j) 2 ≤ 30000 ∧ fieldU d (3 + 6 * j) 4 ≤ 1000000) ∧ fieldU d 1 2 = 0
      ∧ (∀ j, j + 1 < fieldU d 0 1 → fieldU d (1 + 6 * j) 2 < fieldU d (1 + 6 * (j + 1)) 2
          ∧ fieldU d (3 + 6 * j) 4 ≤ fieldU d (3 + 6 * (j + 1)) 4)
      ∧ fieldU (dataOr secs .tnk i) 9 2 ≤ fieldU d (1 + 6 * (fieldU d 0 1 - 1)) 2 := by
  have hlast : (List.range (fieldU d 0 1)).getLast? = some (fieldU d 0 1 - 1) := by
    rw [List.getLast?_range, if_neg (by omega)]
  have hhead : (List.range (fieldU d 0 1)).head? = some 0 := by
    rw [List.head?_range, if_neg (by omega)]
  simp [sndOk, pointsOf_eq, inRange_iff, pointsRise_iff, List.isChain_map, List.isChain_range, hhead, hlast, and_assoc, Nat.lt_sub_iff_add_lt]

/-- HLD is sound in the ranges of R7. -/
theorem hldOk_iff {d : List Byte} : hldOk d = true ↔ (∀ b ∈ d.take 4, 0x20 ≤ b.toNat ∧ b.toNat ≤ 0x7E) ∧ fieldU d 4 4 ≤ 40000
    ∧ 1 ≤ fieldU d 8 4 ∧ fieldU d 8 4 ≤ 150000 := by
  simp [hldOk, nameOk_iff, inRange_iff, and_assoc]

/-- FRM is sound in the ranges of R7, behind the frame before it. -/
theorem frmOk_iff {secs : List Sec} {i : Nat} {d : List Byte} : frmOk secs i d = true ↔
    fieldU d 0 4 ≤ 40000 ∧ -99999999 ≤ fieldS d 4 4 ∧ fieldS d 4 4 ≤ 99999999 ∧ -999999999 ≤ fieldS d 8 4 ∧ fieldS d 8 4 ≤ 999999999
      ∧ 1 ≤ fieldU d 12 4 ∧ fieldU d 12 4 ≤ 99999999 ∧ 1 ≤ fieldU d 16 4 ∧ fieldU d 16 4 ≤ 99999999
      ∧ 1 ≤ fieldU d 20 4 ∧ fieldU d 20 4 ≤ 999999999 ∧ 1 ≤ fieldU d 24 4 ∧ fieldU d 24 4 ≤ 999999999
      ∧ (2 ≤ i → fieldU (dataOr secs .frm (i - 1)) 0 4 < fieldU d 0 4) := by
  have hfirst : (i ≤ 1 ∨ fieldU (dataOr secs .frm (i - 1)) 0 4 < fieldU d 0 4)
      ↔ (2 ≤ i → fieldU (dataOr secs .frm (i - 1)) 0 4 < fieldU d 0 4) := by omega
  simp [frmOk, inRange_iff, within_iff, and_assoc, hfirst]

/-- HYD is sound in the ranges of R9, above the row before it. -/
theorem hydOk_iff {secs : List Sec} {i : Nat} {d : List Byte} : hydOk secs i d = true ↔
    1 ≤ fieldU d 0 4 ∧ fieldU d 0 4 ≤ 400000 ∧ fieldU d 4 2 ≤ 30000 ∧ fieldU d 6 4 ≤ 40000 ∧ 1 ≤ fieldU d 10 4 ∧ fieldU d 10 4 ≤ 2000000
      ∧ (1 ≤ i → fieldU (dataOr secs .hyd (i - 1)) 0 4 < fieldU d 0 4) := by
  have hfirst : (i = 0 ∨ fieldU (dataOr secs .hyd (i - 1)) 0 4 < fieldU d 0 4)
      ↔ (1 ≤ i → fieldU (dataOr secs .hyd (i - 1)) 0 4 < fieldU d 0 4) := by omega
  simp [hydOk, inRange_iff, and_assoc, hfirst]

/-- KSF and KBM are sound when every undeclared tank and hold has coefficient 0 (R8). -/
theorem coefficientsOk_iff {c : Counts} {d : List Byte} : coefficientsOk c d = true ↔
    (∀ t, t < 24 → c.tanks ≤ t → fieldS d (2 * t) 2 = 0) ∧ ∀ h, 1 ≤ h → h ≤ 9 → c.holds < h → fieldS d (2 * (23 + h)) 2 = 0 := by
  simp only [coefficientsOk, upTo_eq_range, List.all_eq_true, List.mem_range, Bool.or_eq_true, decide_eq_true_eq, compartmentDeclared]
  constructor
  · intro hall
    refine ⟨fun t ht hundeclared => ?_, fun h h1 h9 hundeclared => ?_⟩
    · have ht' := hall t (by omega)
      rw [if_pos ht, decide_eq_true_eq] at ht'
      exact ht'.resolve_left (by omega)
    · have hh := hall (23 + h) (by omega)
      rw [if_neg (by omega), decide_eq_true_eq] at hh
      exact hh.resolve_left (by omega)
  · rintro ⟨htanks, hholds⟩ k hk
    by_cases htank : k < 24
    · rw [if_pos htank, decide_eq_true_eq]
      exact (Nat.lt_or_ge k c.tanks).imp_right (htanks k htank)
    · obtain ⟨h, rfl⟩ : ∃ h, k = 23 + h := ⟨k - 23, by omega⟩
      rw [if_neg htank, decide_eq_true_eq, Nat.add_sub_cancel_left]
      exact (le_or_gt h c.holds).imp_right (hholds h (by omega) (by omega))

/-! ### The order of the checks -/

/-- A section held under a name and index has the length of that name, where every section has its own. -/
theorem sdLengthOk_of_secData {secs : List Sec} (h : ∀ x ∈ secs, sdLengthOk x.name x.data = true) {n : SecName} {i : Nat} {d : List Byte}
    (hd : secData secs n i = some d) : sdLengthOk n d = true := by
  obtain ⟨x, hx, rfl⟩ := Option.map_eq_some_iff.1 hd
  have hname := List.find?_some hx
  rw [Bool.and_eq_true, decide_eq_true_eq] at hname
  exact hname.1 ▸ h x (List.mem_of_find?_eq_some hx)

/-- SND data of an allowed length have a point (R3). -/
theorem points_pos {d : List Byte} (h : sdLengthOk .snd d = true) : 1 ≤ fieldU d 0 1 := by
  cases d with
  | nil => cases h
  | cons c d =>
    simp only [sdLengthOk, Bool.and_eq_true, decide_eq_true_eq] at h
    simp only [fieldU, List.drop_zero, List.take_succ_cons, List.take_zero, natOfBytes_singleton]
    omega

/-- The check at a name and index passes exactly when a declared section is present and sound and an undeclared one absent (R13). -/
theorem checkAt_iff {secs : List Sec} {c : Counts} {n : SecName} {i : Nat} : checkAt secs c n i = true ↔
    (declared c n i = true → ∃ d, secData secs n i = some d ∧ ownOk secs c n i d = true) ∧ (¬declared c n i = true → secData secs n i = none) := by
  unfold checkAt
  cases secData secs n i with
  | none => cases declared c n i <;> simp
  | some d => cases declared c n i <;> simp

/-- The checks stop at the first name and index, GEN 0 before all others, whose check does not pass (R4, R13). -/
theorem firstFailure_eq_find? (secs : List Sec) :
    firstFailure secs = ((SecName.gen, 0) :: checkOrder).find? fun x => !checkAt secs (countsOf (dataOr secs .gen 0)) x.1 x.2 := by
  unfold firstFailure dataOr
  cases hgen : secData secs .gen 0 with
  | none => simp [checkAt, hgen, declared]
  | some g => cases hok : genOk g <;> simp [checkAt, hgen, declared, ownOk, hok]

theorem firstFailure_eq_none_iff {secs : List Sec} : firstFailure secs = none
    ↔ ∀ x ∈ (SecName.gen, 0) :: checkOrder, checkAt secs (countsOf (dataOr secs .gen 0)) x.1 x.2 = true := by
  rw [firstFailure_eq_find?, List.find?_eq_none]
  simp

theorem firstFailure_eq_some {secs : List Sec} {before after : List (SecName × Nat)} {x : SecName × Nat}
    (horder : (SecName.gen, 0) :: checkOrder = before ++ x :: after)
    (hbefore : ∀ y ∈ before, checkAt secs (countsOf (dataOr secs .gen 0)) y.1 y.2 = true)
    (hx : ¬checkAt secs (countsOf (dataOr secs .gen 0)) x.1 x.2 = true) : firstFailure secs = some x := by
  rw [firstFailure_eq_find?, List.find?_eq_some_iff_append]
  exact ⟨by simpa using hx, before, after, horder, by simpa using hbefore⟩

end Sys2Proof.Machine
end

section
/-! PROOFS. A load closed: the fields of the profile in force, and the whole of R13 and R14. -/

namespace Sys2Proof.Machine

/-! ### The profile in force -/

/-- The profile in force has as many tanks, holds, frames and rows as GEN declares (R4). -/
theorem profileFrom_lengths (secs : List Sec) :
    (profileFrom secs).tanks.length = fieldU (dataOr secs .gen 0) 8 1 ∧ (profileFrom secs).holds.length = fieldU (dataOr secs .gen 0) 9 1
      ∧ (profileFrom secs).frames.length = fieldU (dataOr secs .gen 0) 10 1
      ∧ (profileFrom secs).rows.length = fieldU (dataOr secs .gen 0) 11 1 := by
  simp [profileFrom, countsOf]

theorem profileFrom_tanks {secs : List Sec} {i : Nat} (h : i < fieldU (dataOr secs .gen 0) 8 1) :
    (profileFrom secs).tanks[i]? = some (tankOf (dataOr secs .tnk i) (dataOr secs .snd i)) := by
  simp [profileFrom, countsOf, h]

theorem profileFrom_holds {secs : List Sec} {h : Nat} (h1 : 1 ≤ h) (hh : h ≤ fieldU (dataOr secs .gen 0) 9 1) :
    (profileFrom secs).holds[h - 1]? = some (holdOf (dataOr secs .hld h)) := by
  have hlt : h - 1 < fieldU (dataOr secs .gen 0) 9 1 := by omega
  simp [profileFrom, countsOf, hlt, Nat.sub_add_cancel h1]

theorem profileFrom_frames {secs : List Sec} {f : Nat} (h1 : 1 ≤ f) (hf : f ≤ fieldU (dataOr secs .gen 0) 10 1) :
    (profileFrom secs).frames[f - 1]? = some (frameOf (dataOr secs .frm f) (dataOr secs .ksf f) (dataOr secs .kbm f)) := by
  have hlt : f - 1 < fieldU (dataOr secs .gen 0) 10 1 := by omega
  simp [profileFrom, countsOf, hlt, Nat.sub_add_cancel h1]

theorem profileFrom_rows {secs : List Sec} {i : Nat} (h : i < fieldU (dataOr secs .gen 0) 11 1) :
    (profileFrom secs).rows[i]? = some (rowOf (dataOr secs .hyd i)) := by
  simp [profileFrom, countsOf, h]

/-- The coefficients of a KSF or KBM section, numbered from 0 (R8). -/
theorem coefficients_eq (d : List Byte) : coefficients d = (List.range 33).map fun c => fieldS d (2 * c) 2 := rfl

/-- Settles O18: PCLS, the end of the checks and the end of the write case by case, then the checks section by section. -/
theorem loadClosesByCheckAndWrite : Obligations.LoadClosesByCheckAndWrite := by
  refine ⟨fun k s cr hasked => ?_, fun s r c hpower hload hclosing hwriting => ?_,
    fun s r c back hpower hload hclosing hwriting => ?_, ?_⟩
  · rw [exec_pcls hasked]
    refine ⟨fun h => by rw [pcls_notLoading h], fun r hload => ⟨fun h => by rw [pcls_closing hload h], fun hopen => ?_⟩⟩
    rw [pcls_open hload hopen]
    rfl
  · rw [exec_profileChecksComplete hpower]
    refine ⟨fun h => ?_, fun hcrc => ⟨fun n i h => ?_, fun h => ?_⟩⟩
    · rw [checksEnd_wrongCrc hload hclosing hwriting h]
      rfl
    · rw [checksEnd_failed hload hclosing hwriting hcrc h]
      rfl
    · rw [checksEnd_passed hload hclosing hwriting hcrc h]
      rfl
  · rw [exec_nonVolatileWriteComplete hpower]
    refine ⟨fun h => ?_, fun h => ?_⟩
    · rw [writeEnd_wrongCrc hload hclosing hwriting h]
      rfl
    · rw [writeEnd_good hload hclosing hwriting h]
      exact ⟨_, rfl, writtenProfile_spec s _ _ _⟩
  · intro secs hsecs held data u sg gen declaredIn sound passes run order
    have horder : order = (SecName.gen, 0) :: checkOrder := by decide
    have hdeclared : ∀ n i, declaredIn n i ↔ declared (countsOf (dataOr secs .gen 0)) n i = true := by
      intro n i
      cases n
      case hld | frm | ksf | kbm => exact (Bool.and_eq_true_iff.trans (and_congr decide_eq_true_iff decide_eq_true_iff)).symm
      all_goals exact decide_eq_true_iff.symm
    have hsound : ∀ n i d, held n i = some d → (sound n i d ↔ ownOk secs (countsOf (dataOr secs .gen 0)) n i d = true) := by
      intro n i d hd
      cases n
      case gen => exact genOk_iff.symm
      case tnk => exact tnkOk_iff.symm
      case snd => exact (sndOk_iff (points_pos (sdLengthOk_of_secData hsecs hd))).symm
      case hld => exact hldOk_iff.symm
      case frm => exact frmOk_iff.symm
      case ksf | kbm => exact (coefficientsOk_iff (c := countsOf (dataOr secs .gen 0)) (d := d)).symm
      case hyd => exact hydOk_iff.symm
    have hpasses : ∀ x, passes x ↔ checkAt secs (countsOf (dataOr secs .gen 0)) x.1 x.2 = true := by
      intro x
      rw [checkAt_iff]
      exact and_congr (imp_congr (hdeclared _ _) (exists_congr fun d => and_congr_right (hsound _ _ d)))
        (imp_congr (not_congr (hdeclared _ _)) Iff.rfl)
    obtain ⟨htanks, hholds, hframes, hrows⟩ := profileFrom_lengths secs
    refine ⟨?_, fun before after x hsplit hbefore hx => ?_, rfl, rfl, htanks, hholds, hframes, hrows,
      fun i hi => ?_, fun h h1 hh => ?_, fun f h1 hf => ?_, fun i hi => ?_⟩
    · rw [horder, firstFailure_eq_none_iff]
      exact forall_congr' fun x => imp_congr_right fun _ => (hpasses x).symm
    · exact firstFailure_eq_some (horder ▸ hsplit) (fun y hy => (hpasses y).1 (hbefore y hy)) (mt (hpasses x).2 hx)
    · rw [profileFrom_tanks hi, tankOf, pointsOf_eq]
      rfl
    · rw [profileFrom_holds h1 hh]
      rfl
    · rw [profileFrom_frames h1 hf, frameOf, coefficients_eq, coefficients_eq]
      rfl
    · rw [profileFrom_rows hi]
      rfl

end Sys2Proof.Machine
end

section
/-! PROOFS. What each request makes of the part (R21, R190). -/

namespace Sys2Proof.Machine

/-! ### The effect of a request -/

/-- What the owner makes of the request that slot `k` hands over. -/
def requestEffect (k : Nat) : Request → State → State
  | .popn => popn k
  | .pdat sn xi sd => pdat k sn xi sd
  | .pcls cr => pcls k cr
  | .copn => copn k
  | .cend => cend k
  | .clks cl => clks k cl
  | .setp vs => setp k vs
  | .tmap tk gc => fun s => whenAdmitted withProfile .console k s (tmap k tk gc)
  | .gcal gc zc gn ofs => fun s => whenAdmitted withProfile .console k s (gcal k gc zc gn ofs)
  | .dens tk dn => fun s => whenAdmitted withProfile .console k s (dens k tk dn)
  | .sndg tk lv => fun s => whenAdmitted withProfile .console k s (sndg k tk lv)
  | .gqry tk gc => gqry k tk gc
  | .prev fields => fun s => whenAdmitted withProfile .console k s (prev k fields)
  | .hqry => fun s => reply s .console k .ok (hullFields s)
  | .prst pu => fun s => whenPlantAdmitted k s (prst k pu)
  | .xovr xm => fun s => whenPlantAdmitted k s (xovr k xm)
  | .gang ga gm => fun s => whenPlantAdmitted k s (gang k ga gm)
  | .ordr f => fun s => whenAdmitted inCallOnly .console k s (ordr k f)
  | .ocan oi => fun s => whenAdmitted inCallOnly .console k s (ocan k oi)
  | .orel oi => fun s => whenAdmitted inCallOnly .console k s (orel k oi)
  | .oqry oi => oqry k oi
  | .hwin wn wv wb wm => fun s => whenAdmitted inCallOnly .console k s (hwin k wn wv wb wm)
  | .plan st hd pt cp hc => fun s => whenAdmitted inCallOnly .console k s (plan k st hd pt cp hc)
  | .pclr st => fun s => whenAdmitted inCallOnly .console k s (pclr k st)
  | .sfrc st => fun s => whenAdmitted inCallOnly .console k s (sfrc k st)
  | .sskp st => fun s => whenAdmitted inCallOnly .console k s (sskp k st)
  | .hcor hd ms => fun s => whenAdmitted inCallOnly .console k s (hcor k hd ms)
  | .rreq => fun s => whenAdmitted inCallOnly .console k s (rreq k)
  | .rcfg f => rcfg k f
  | .aenb em => aenb k em
  | .aack cn => aack k cn
  | .aqry => fun s =>
    reply s .console k .ok (rvNum s.attention.mask.toNat :: (upTo 14).flatMap (conditionFields s.attention))
  | .wrst => fun s => reply (setWrstPending s true) .console k .ok []
  | .tatt => tatt k
  | .tdet => tdet k
  | .sreq st => fun s => whenAdmitted inCallOnly .terminal k s (sreq k st)
  | .taly hd ty => fun s => whenAdmitted inCallOnly .terminal k s (taly k hd ty)
  | .sfin st fn => fun s => whenAdmitted inCallOnly .terminal k s (sfin k st fn)
  | .lstp st => fun s => whenAdmitted inCallOnly .terminal k s (lstp k st)
  | .scan st => fun s => whenAdmitted inCallOnly .terminal k s (scan k st)
  | .sqry st => sqry k st

/-- A command serves its slot: a request of its kind has its effect, any other none (log 1). -/
theorem exec_serves (r : Request) (k : Nat) : ∃ act : Request → State → State,
    (∀ s, exec (r.command k) s = serve r.link k s act) ∧ act r = requestEffect k r
      ∧ ∀ r' s, (r'.command k = r.command k ∧ act r' s = requestEffect k r' s) ∨ act r' s = s := by
  cases r
  all_goals
    refine ⟨_, fun s => rfl, rfl, fun r' s => ?_⟩
    split
    · exact .inl ⟨rfl, rfl⟩
    · exact .inr rfl

/-- A request that is handed over has its effect (R190, step 5). -/
theorem exec_asked {s : State} {r : Request} {k : Nat} (h : Asked s r.link k r) : exec (r.command k) s = .next (requestEffect k r s) := by
  obtain ⟨act, hexec, hact, -⟩ := exec_serves r k
  rw [hexec, serve_asked h, hact]

end Sys2Proof.Machine
end

section
/-! PROOFS. What a command may change: the pieces it is listed with, and the laws of settings, call, gauges, tanks, engine and hull (R24 to R26, R30, R35, R45, R70, R78). -/

namespace Sys2Proof.Machine

/-! ### Setters -/

theorem setPowered_changesOnly {bs : List Block} (h : .powered ∈ bs) (s : State) (x : Bool) : ChangesOnly bs s (setPowered s x) := by
  intro b hb
  cases b
  case powered => exact absurd h hb
  all_goals rfl

theorem setSettings_changesOnly {bs : List Block} (h : .settings ∈ bs) (s : State) (x : Settings) : ChangesOnly bs s (setSettings s x) := by
  intro b hb
  cases b
  case settings => exact absurd h hb
  all_goals rfl

theorem setOrders_changesOnly {bs : List Block} (h : .orders ∈ bs) (s : State) (x : Orders) : ChangesOnly bs s (setOrders s x) := by
  intro b hb
  cases b
  case orders => exact absurd h hb
  all_goals rfl

theorem setPour_changesOnly {bs : List Block} (h : .pour ∈ bs) (s : State) (x : Pour) : ChangesOnly bs s (setPour s x) := by
  intro b hb
  cases b
  case pour => exact absurd h hb
  all_goals rfl

theorem setReports_changesOnly {bs : List Block} (h : .reports ∈ bs) (s : State) (x : Reports) : ChangesOnly bs s (setReports s x) := by
  intro b hb
  cases b
  case reports => exact absurd h hb
  all_goals rfl

theorem setAttention_changesOnly {bs : List Block} (h : .attention ∈ bs) (s : State) (x : Attention) :
    ChangesOnly bs s (setAttention s x) := by
  intro b hb
  cases b
  case attention => exact absurd h hb
  all_goals rfl

theorem setWrstPending_changesOnly {bs : List Block} (h : .wrstPending ∈ bs) (s : State) (x : Bool) :
    ChangesOnly bs s (setWrstPending s x) := by
  intro b hb
  cases b
  case wrstPending => exact absurd h hb
  all_goals rfl

theorem setPending_changesOnly {bs : List Block} (h : .pending ∈ bs) (s : State) (x : List Instr) : ChangesOnly bs s (setPending s x) := by
  intro b hb
  cases b
  case pending => exact absurd h hb
  all_goals rfl

theorem setPort_changesOnly {bs : List Block} {l : Link} (h : portBlock l ∈ bs) (s : State) (p : Port) :
    ChangesOnly bs s (setPort s l p) := by
  intro b hb
  cases l <;> cases b
  case console.console => exact absurd h hb
  case terminal.terminal => exact absurd h hb
  all_goals rfl

/-! ### Changes that keep the laws -/

/-- `t` comes of `s` by a change of the listed pieces that keeps the laws of settings, call, gauges, tanks, engine and hull. -/
structure Preserves (bs : List Block) (s t : State) : Prop where
  changes : ChangesOnly bs s t
  settings : SettingsOk s.settings → SettingsOk t.settings
  call : CallOk s → CallOk t
  gauge : GaugeOk s.gauge → GaugeOk t.gauge
  tanks : TanksOk s.tanks → TanksOk t.tanks
  engine : EngineOk s.engine → EngineOk t.engine
  hull : HullOk s.hull → HullOk t.hull

theorem Preserves.refl (bs : List Block) (s : State) : Preserves bs s s := ⟨ChangesOnly.refl bs s, id, id, id, id, id, id⟩

theorem Preserves.trans {bs : List Block} {s t u : State} (p : Preserves bs s t) (q : Preserves bs t u) : Preserves bs s u where
  changes := p.changes.trans q.changes
  settings h := q.settings (p.settings h)
  call h := q.call (p.call h)
  gauge h := q.gauge (p.gauge h)
  tanks h := q.tanks (p.tanks h)
  engine h := q.engine (p.engine h)
  hull h := q.hull (p.hull h)

theorem Preserves.mono {bs cs : List Block} {s t : State} (p : Preserves bs s t) (h : bs ⊆ cs) : Preserves cs s t :=
  { p with changes := p.changes.mono h }

/-- A path keeps the laws of its pieces. -/
theorem Path.preserves {bs : List Block} {s t : State} (p : Path bs s t) : Preserves bs s t :=
  ⟨p.changesOnly, fun h => p.settings ▸ h, p.callOk, p.gaugeOk, p.tanksOk, p.engineOk, p.hullOk⟩

/-- The laws are about these pieces alone. -/
def lawBlocks : List Block := [.settings, .call, .profile, .gauge, .tanks, .engine, .hull]

/-- The law of the call concerns call state, profile and tank table (R17, R45). -/
theorem CallOk.congr {s t : State} (hcall : t.call = s.call) (hprofile : t.profile = s.profile)
    (htanks : t.tanks.length = s.tanks.length) (h : CallOk s) : CallOk t := by
  have hof : profileOf t = profileOf s := by rw [profileOf, hprofile, profileOf]
  rw [CallOk, hcall, htanks, hof]
  exact h

/-- A change of other pieces keeps the laws. -/
theorem ChangesOnly.preserves {bs : List Block} {s t : State} (h : ChangesOnly bs s t) (hbs : ∀ b ∈ lawBlocks, b ∉ bs := by decide) :
    Preserves bs s t where
  changes := h
  settings := Eq.mpr (congrArg _ (h .settings (hbs _ (by decide))))
  call := CallOk.congr (h .call (hbs _ (by decide))) (h .profile (hbs _ (by decide))) (congrArg _ (h .tanks (hbs _ (by decide))))
  gauge := Eq.mpr (congrArg _ (h .gauge (hbs _ (by decide))))
  tanks := Eq.mpr (congrArg _ (h .tanks (hbs _ (by decide))))
  engine := Eq.mpr (congrArg _ (h .engine (hbs _ (by decide))))
  hull := Eq.mpr (congrArg _ (h .hull (hbs _ (by decide))))

/-- Between two states without a profile in force the load record may change. -/
theorem setProfile_preserves {s : State} {x : ProfileState} (h : profileOf s = none) (hx : profileOf (setProfile s x) = none) :
    Preserves [.profile] s (setProfile s x) where
  changes := setProfile_changesOnly (by decide) s x
  settings := id
  call := fun ⟨hcall, htanks⟩ => ⟨iff_of_true (hcall.2 h) hx, by rw [hx]; rw [h] at htanks; exact htanks⟩
  gauge := id
  tanks := id
  engine := id
  hull := id

/-- A call state other than NO_PROFILE may follow another. -/
theorem setCall_preserves {s : State} {x : CallState} (h : s.call ≠ .noProfile) (hx : x ≠ .noProfile) :
    Preserves [.call] s (setCall s x) where
  changes := setCall_changesOnly (by decide) s x
  settings := id
  call := fun ⟨hcall, htanks⟩ => ⟨by rw [setCall_call, iff_false_left hx]; exact (iff_false_left h).1 hcall, htanks⟩
  gauge := id
  tanks := id
  engine := id
  hull := id

/-! ### The values after reset -/

theorem SettingsOk.default : SettingsOk Settings.default := ⟨by decide, by decide, by decide⟩

theorem GaugeOk.initial : GaugeOk Gauge.initial := by
  refine ⟨List.length_replicate, fun c hc => ?_, nofun⟩
  rw [List.eq_of_mem_replicate hc]
  exact ⟨by decide, by decide, by decide, by decide, nofun⟩

/-- A tank record at its initial values keeps its law (R47). -/
theorem TankOk.initial (d : TankData) : TankOk (Tank.initial d) := by
  cases h : d.channel <;> simp [TankOk, Tank.initial, h]

theorem TanksOk.initial (ds : List TankData) : TanksOk (ds.map Tank.initial) := by
  intro t ht
  obtain ⟨d, -, rfl⟩ := List.mem_map.1 ht
  exact TankOk.initial d

theorem EngineOk.initial : EngineOk Engine.initial := Nat.zero_le 4

/-- After a reset the call is IDLE with a profile in force and NO_PROFILE without one (R17, R24). -/
theorem AfterReset.callOk {s t : State} (h : AfterReset s t) : CallOk t := by
  rw [CallOk, h.call, h.tanks]
  cases profileOf t <;> simp

/-- A restart sets every piece but the stored copy and the queue, and its values keep the laws (R24). -/
theorem restartedFrom_preserves (s : State) (p : ProfileState) : Preserves resetBlocks s (restartedFrom s p) where
  changes := by
    intro b hb
    cases b
    case stored | pending => rfl
    all_goals exact absurd (by decide) hb
  settings _ := SettingsOk.default
  call _ := (restartedFrom_afterReset s p).callOk
  gauge _ := GaugeOk.initial
  tanks _ := by
    rw [(restartedFrom_afterReset s p).tanks]
    cases profileOf (restartedFrom s p) with
    | none => exact fun _ ht => absurd ht List.not_mem_nil
    | some q => exact TanksOk.initial q.tanks
  engine _ := EngineOk.initial
  hull _ := HullOk.initial

theorem warmReset_preserves (s : State) : Preserves resetBlocks s (warmReset s) := restartedFrom_preserves s _

end Sys2Proof.Machine
end

section
/-! PROOFS. What the requests of call control, gauging and the hull engine change (R18 to R46, R70, R74, R82). -/

namespace Sys2Proof.Machine

/-! ### Call control -/

theorem whenAdmitted_path {bs : List Block} {l : Link} {s : State} {act : State → State} (hl : portBlock l ∈ bs) (h : Path bs s (act s))
    (admitted : CallState → Bool) (k : Nat) : Path bs s (whenAdmitted admitted l k s act) :=
  Path.ite h ((refuse_path s l k .state).mono (List.cons_subset.2 ⟨hl, List.nil_subset _⟩))

theorem whenAdmitted_preserves {bs : List Block} {l : Link} {s : State} {act : State → State} (hl : portBlock l ∈ bs)
    (h : Preserves bs s (act s)) (admitted : CallState → Bool) (k : Nat) : Preserves bs s (whenAdmitted admitted l k s act) := by
  unfold whenAdmitted
  split
  · exact h
  · exact (refuse_path s l k .state).preserves.mono (List.cons_subset.2 ⟨hl, List.nil_subset _⟩)

theorem whenPlantAdmitted_path {bs : List Block} {s : State} {act : State → State} (hl : .console ∈ bs) (h : Path bs s (act s)) (k : Nat) :
    Path bs s (whenPlantAdmitted k s act) :=
  Path.ite h ((reply_path s .console k .state _).mono (List.cons_subset.2 ⟨hl, List.nil_subset _⟩))

/-- What opening a call sets after the call state (R18, R27, R83, R157, R180). -/
theorem openCall_path (s : State) : Path [.reports, .pour, .gauge, .hull, .attention] (setCall s .inCall) (openCall s) := by
  unfold openCall
  refine Path.trans ?_ ((resetHull_path _).mono (by decide))
  refine Path.trans ?_ ((setGauge_path _ _ (by intro h; exact h)).mono (by decide))
  refine Path.trans ?_ ((setPour_path _ _ (by intro h; exact h)).mono (by decide))
  refine Path.trans ?_ ((setPour_path _ _ (by intro h; exact ⟨h.1, h.2.1, by simp⟩)).mono (by decide))
  exact (setReports_path _ _ (by intro h; exact ⟨h.1, Nat.zero_le _, Nat.zero_le _, fun n hn => by cases hn; decide⟩)).mono (by decide)

theorem copn_preserves (k : Nat) (s : State) : Preserves (touches (.copn k)) s (copn k s) := by
  unfold copn
  split
  · next hidle =>
    have hcall : Preserves (touches (.copn k)) s (setCall s .inCall) := (setCall_preserves (by rw [hidle]; decide) (by decide)).mono (by simp [touches])
    have hopen := (openCall_path s).andThen (liveRequest_path _ false) (ds := [.call, .reports, .pour, .gauge, .hull, .attention, .engine, .console])
    exact hcall.trans (hopen.trans ((reply_path _ .console k .ok []).mono (by decide))).preserves
  · exact (refuse_path s .console k .state).preserves.mono (by simp [touches, portBlock])

/-- A transmission that is marked goes on: the slots and the queue of its port are kept (R180). -/
theorem unmarkSending_path (l : Link) (s : State) : Path [portBlock l] s (unmarkSending l s) := by
  unfold unmarkSending
  split
  · exact Path.ite (setPort_path s l _ fun h => h) (.refl s)
  · exact .refl s

/-- The DEPARTURE trigger concerns the report builder and what the two ports transmit (R19, R180). -/
theorem triggerDeparture_path (s : State) : Path [.reports, .console, .terminal] s (triggerDeparture s) := by
  have hports : Path [.console, .terminal] s (unmarkSending .terminal (unmarkSending .console s)) :=
    (unmarkSending_path .console s).andThen (unmarkSending_path .terminal _)
  have hreports : (unmarkSending .terminal (unmarkSending .console s)).reports = s.reports := hports.changesOnly .reports (by decide)
  refine Path.trans (hports.mono (by decide)) (Path.mono (setReports_path _ _ fun h => ?_) (by decide))
  rw [hreports] at h
  refine ⟨?_, h.2.1, h.2.2.1, nofun⟩
  dsimp only
  split
  · exact Nat.zero_le _
  · exact Nat.succ_le_succ (Nat.zero_le 7)

theorem answerSreq_path (s : State) (st : Step) : Path [.terminal] s (answerSreq s st) := by
  unfold answerSreq
  split
  · exact refuse_path s .terminal _ _
  · exact .refl s

theorem PourOk.initial : PourOk Pour.initial := ⟨rfl, Nat.zero_le _, rfl⟩

theorem endPour_path (s : State) : Path [.pour, .terminal] s (endPour s) :=
  Path.andThen (foldl_path answerSreq_path s.pour.plan s) (setPour_path _ Pour.initial fun _ => PourOk.initial)

/-- The held flags cleared: the tank records keep their law, and their number (R132). -/
theorem clearHeld_path (s : State) : Path [.tanks] s (setTanks s (s.tanks.map fun t => { t with held := false })) :=
  .one (by decide) (.tanks s _ (fun h t ht => by
    obtain ⟨x, hx, rfl⟩ := List.mem_map.1 ht
    exact h x hx) (by simp))

theorem endOrders_preserves (s : State) : Preserves [.orders, .tanks] s (endOrders s) :=
  ((setOrders_changesOnly (bs := [.orders]) (by decide) s _).preserves.mono (by decide)).trans
    ((clearHeld_path _).preserves.mono (by decide))

theorem AttentionOk.initial : AttentionOk Attention.initial := by
  refine ⟨by decide, by decide, by decide, fun n c hc => ?_⟩
  rw [List.eq_of_mem_replicate (List.mem_of_getElem? hc)]
  cases h : isLevel n <;> simp [ConditionOk, Condition.initial, h]

theorem endTerminal_path (s : State) : Path [.term] s (endTerminal s) := setTerm_path s _ fun h => ⟨by simp, h.2⟩

/-- What the call end does once the order engine is cleared (R19, R20). -/
theorem endCall_tail_path (s : State) :
    Path [.attention, .engine, .console, .hull, .term, .reports, .call, .gauge] s
      (closingCheck (endTerminal (resetHull (abandonEngine (setAttention s Attention.initial))))) := by
  refine Path.trans ?_ ((closingCheck_path _).mono (by decide))
  refine Path.trans ?_ ((endTerminal_path _).mono (by decide))
  refine Path.trans ?_ ((resetHull_path _).mono (by decide))
  refine Path.trans ?_ ((abandonEngine_path _).mono (by decide))
  exact Path.one (by decide) (.attention s _ fun _ => AttentionOk.initial)

theorem endCall_preserves {s : State} (h : s.call = .inCall) : Preserves (touches (.cend 0)) s (endCall s) := by
  have hcall : Preserves (touches (.cend 0)) s (setCall s .closing) := (setCall_preserves (by rw [h]; decide) (by decide)).mono (by decide)
  have hreport := (triggerDeparture_path (setCall s .closing)).andThen (endPour_path _) (ds := touches (.cend 0))
  exact ((hcall.trans hreport.preserves).trans ((endOrders_preserves _).mono (by decide))).trans
    ((endCall_tail_path _).preserves.mono (by decide))

theorem cend_preserves (k : Nat) (s : State) : Preserves (touches (.cend k)) s (cend k s) := by
  have href : ∀ oc, Preserves (touches (.cend 0)) s (refuse s .console k oc) := fun oc =>
    (refuse_path s .console k oc).preserves.mono (by decide)
  unfold cend
  split
  · exact href _
  · next hcall =>
    split
    · exact href _
    · exact (endCall_preserves (by simpa using hcall)).trans ((reply_path _ .console k .ok []).preserves.mono (by decide))

theorem clks_preserves (k : Nat) (cl : Int) (s : State) : Preserves [.clocks, .console] s (clks k cl s) := by
  unfold clks
  split
  · exact (refuse_path s .console k _).preserves.mono (by decide)
  · exact (setClocks_changesOnly (by decide) s _).preserves.trans ((reply_path _ .console k _ _).preserves.mono (by decide))

/-! ### Settings -/

/-- A setting read after one was put in (R26). -/
theorem getSetting_putSetting {f g : Field} (hf : f ∈ settingFields) (hg : g ∈ settingFields) (x : Settings) (v : Int) :
    getSetting (putSetting x f v) g = if g = f then v else getSetting x g := by
  fin_cases hf <;> fin_cases hg <;> rfl

/-- A field that names no setting puts nothing in. -/
theorem putSetting_of_not_mem {f : Field} (h : f ∉ settingFields) (x : Settings) (v : Int) : putSetting x f v = x := by
  cases f
  case SC | SW | SM | SL | VT | PV | PS | DB | SI | HP | QT | OA | RO | WT | RS | DL | TN | TX | RA | RB => exact absurd (by decide) h
  all_goals rfl

theorem saturate_within {lo hi : Int} (h : lo ≤ hi) (x : Int) : within lo hi (saturate lo hi x) = true := by
  rw [within_iff]
  unfold saturate
  split
  · exact ⟨le_rfl, h⟩
  · split <;> omega

theorem clampSetting_within {f : Field} (h : f ∈ settingFields) (v : Int) :
    within (settingRange f).1 (settingRange f).2 (clampSetting f v) = true := by
  refine saturate_within ?_ _
  fin_cases h <;> decide

/-- A clamped DB is a multiple of 10 (R26). -/
theorem clampSetting_db (v : Int) : clampSetting .DB v % 10 = 0 := by
  show saturate 0 2550 (v / 10 * 10) % 10 = 0
  unfold saturate
  split
  · rfl
  · split <;> omega

/-- Values in range, but for the trim window (R25). -/
def InRanges (x : Settings) : Prop :=
  (∀ f ∈ settingFields, within (settingRange f).1 (settingRange f).2 (getSetting x f) = true) ∧ getSetting x .DB % 10 = 0

theorem InRanges.putSetting {x : Settings} (h : InRanges x) (f : Field) (v : Int) : InRanges (putSetting x f (clampSetting f v)) := by
  by_cases hf : f ∈ settingFields
  · refine ⟨fun g hg => ?_, ?_⟩
    · rw [getSetting_putSetting hf hg]
      split
      · next e => exact e ▸ clampSetting_within hf v
      · exact h.1 g hg
    · rw [getSetting_putSetting hf (by decide)]
      split
      · next e => exact e ▸ clampSetting_db v
      · exact h.2
  · rw [putSetting_of_not_mem hf]
    exact h

theorem InRanges.putAll {x : Settings} (h : InRanges x) (vs : List (Field × Int)) : InRanges (putAll x vs) := by
  induction vs generalizing x with
  | nil => exact h
  | cons fv vs ih => exact ih (h.putSetting fv.1 fv.2)

/-- SETP changes settings and engine, and the settings keep their law (R25, R26). -/
theorem setp_preserves (k : Nat) (vs : List (Field × Int)) (s : State) : Preserves [.settings, .engine, .console] s (setp k vs s) := by
  unfold setp
  dsimp only
  by_cases hwindow : (putAll s.settings vs).tx ≤ (putAll s.settings vs).tn
  · rw [if_pos hwindow]
    exact (refuse_path s .console k .range).preserves.mono (by decide)
  · rw [if_neg hwindow]
    have hset : Preserves [.settings, .engine, .console] s (setSettings s (putAll s.settings vs)) :=
      { changes := setSettings_changesOnly (by decide) s _
        settings := fun h =>
          have hin : InRanges (putAll s.settings vs) := InRanges.putAll ⟨h.1, h.2.1⟩ vs
          ⟨hin.1, hin.2, not_le.1 hwindow⟩
        call := id, gauge := id, tanks := id, engine := id, hull := id }
    refine (hset.trans ?_).trans ((reply_path _ .console k _ _).preserves.mono (by simp [portBlock]))
    split
    · exact (liveRequest_path _ _).preserves.mono (by decide)
    · exact .refl _ _

end Sys2Proof.Machine
end

section
/-! PROOFS. What the gauging and hull commands change (R27 to R46, R49, R74, R77, R82). -/

namespace Sys2Proof.Machine

/-! ### Rounds and conversions -/

theorem scanTick_path (s : State) : Path [.gauge, .pour, .engine] s (scanTick s) := by
  have htimer : Path [.gauge, .pour, .engine] s (setGauge s { s.gauge with timer := some (expiryAfter s s.settings.sc) }) :=
    Path.mono (setGauge_path s _ fun h => h) (by decide)
  unfold scanTick
  exact Path.ite (Path.ite (htimer.trans (startRound_path _)) htimer) (.refl s)

/-- A 16-bit code is recorded in its channel (R28, R30). -/
theorem recordCode_path (s : State) (ch : Nat) {code : Nat} (h : code ≤ 65535) :
    Path [.gauge] s (setGauge s { s.gauge with channels := modAt s.gauge.channels ch fun c => { c with lastRaw := some code } }) :=
  setGauge_path s _ fun ⟨hlength, hchannels, hround⟩ =>
    ⟨by simpa using hlength, forall_modAt hchannels fun _ _ ⟨hzero, hgain, hgain', hoffset, _⟩ =>
      ⟨hzero, hgain, hgain', hoffset, fun _ hn => by cases hn; exact h⟩, hround⟩

/-- A round that goes on stands at the next channel of its list (R28). -/
theorem nextConversion_path (s : State) (r : Round) (h : r.position + 1 < r.channels.length) :
    Path [.gauge] s (setGauge s { s.gauge with round := some { r with position := r.position + 1 } }) :=
  setGauge_path s _ fun ⟨hlength, hchannels, _⟩ => ⟨hlength, hchannels, fun _ hr => by cases hr; exact h⟩

theorem conversion_path {code : Nat} (h : code ≤ 65535) (s : State) : Path ([.gauge, .tanks] ++ ballastBlocks) s (conversion code s) := by
  unfold conversion
  split
  · exact .refl s
  · next r _ =>
    split
    · exact .refl s
    · next ch _ =>
      refine Path.trans ?_ ((settleArbiter_path _).mono (by decide))
      refine Path.trans ((recordCode_path s ch h).mono (by decide)) ?_
      have hgo : ∀ u, Path ([.gauge, .tanks] ++ ballastBlocks) u (if r.position + 1 < r.channels.length then
          setGauge u { u.gauge with round := some { r with position := r.position + 1 } } else endRound u) := by
        intro u
        split
        · next hnext => exact (nextConversion_path u r hnext).mono (by decide)
        · exact (endRound_path u).mono (by decide)
      dsimp only [setGauge_tanks]
      cases tankOnChannel s.tanks ch with
      | some t => exact Path.trans ((reading_path _ t ch code).mono (by decide)) (hgo _)
      | none => exact hgo _

/-! ### GCAL and TMAP -/

/-- The channel of a GCAL that passes its tests, and what the tests say of its fields (R31). -/
theorem gcalTests_eq_some {gc : Int} {gn ofs : Option Int} {ch : Nat} (h : gcalTests gc gn ofs = some ch) :
    gc = ch ∧ ch ≤ 31 ∧ gn ≠ some 0 ∧ ∀ v, ofs = some v → within (-5000) 5000 v = true := by
  unfold gcalTests at h
  split at h
  · cases h
  · next c hc =>
    split at h
    · cases h
    · next hgain =>
      split at h
      · cases h
      · next hoffset =>
        cases h
        simp only [channelNamed, natUpTo] at hc
        split at hc
        · next hin =>
          rw [within_iff] at hin
          cases hc
          refine ⟨by omega, by omega, hgain, fun v hv => ?_⟩
          simpa [hv] using hoffset
        · cases hc

theorem zeroCodeOf_le (zc : Int) : zeroCodeOf zc ≤ 65535 := by
  unfold zeroCodeOf natUpTo
  split
  · next h =>
    rw [within_iff] at h
    rw [Option.getD_some]
    omega
  · exact Nat.le_of_lt_succ (Config.otherZeroCode zc).isLt

theorem gainOf_range (gn : Int) : 1 ≤ gainOf gn ∧ gainOf gn ≤ 65535 := by
  unfold gainOf natIn
  split
  · next h =>
    rw [within_iff] at h
    rw [Option.getD_some]
    omega
  · exact ⟨Nat.le_add_left 1 _, (Config.otherGain gn).isLt⟩

/-- The calibration that an accepted GCAL puts in keeps the channel's law (R30, R31). -/
theorem ChannelOk.calibrated {c : Channel} (h : ChannelOk c) (zc gn : Option Int) {ofs : Option Int}
    (hofs : ∀ v, ofs = some v → within (-5000) 5000 v = true) :
    ChannelOk (calibrated (zc.map zeroCodeOf) (gn.map gainOf) ofs c) := by
  obtain ⟨hzero, hgain, hgain', hoffset, hraw⟩ := h
  refine ⟨?_, ?_, ?_, ?_, hraw⟩
  · cases zc with
    | none => exact hzero
    | some z => exact zeroCodeOf_le z
  · cases gn with
    | none => exact hgain
    | some g => exact (gainOf_range g).1
  · cases gn with
    | none => exact hgain'
    | some g => exact (gainOf_range g).2
  · cases ofs with
    | none => exact hoffset
    | some v => exact hofs v rfl

theorem calibrate_path (s : State) (ch : Nat) (zc gn : Option Int) {ofs : Option Int}
    (hofs : ∀ v, ofs = some v → within (-5000) 5000 v = true) : Path [.gauge] s
      (setGauge s { s.gauge with channels := modAt s.gauge.channels ch (calibrated (zc.map zeroCodeOf) (gn.map gainOf) ofs) }) :=
  setGauge_path s _ fun ⟨hlength, hchannels, hround⟩ =>
    ⟨by simpa using hlength, forall_modAt hchannels fun _ _ hc => hc.calibrated zc gn hofs, hround⟩

theorem recalibrate_path (ch : Nat) (zc gn : Option Int) {ofs : Option Int} (hofs : ∀ v, ofs = some v → within (-5000) 5000 v = true) (s : State) :
    Path ([.gauge, .tanks] ++ ballastBlocks) s (recalibrate ch (zc.map zeroCodeOf) (gn.map gainOf) ofs s) := by
  unfold recalibrate
  refine Path.trans ?_ ((liveRequest_path _ _).mono (by decide))
  refine Path.trans ?_ ((restartRound_path _).mono (by decide))
  refine Path.trans ((calibrate_path s ch zc gn hofs).mono (by decide)) ?_
  dsimp only
  split
  · refine Path.trans ?_ ((gaugeChange_path _ _).mono (by decide))
    exact Path.mono (modTank_path _ _ fun _ _ h => h.emptyRing) (by decide)
  · exact .refl _

theorem gcal_path (k : Nat) (gc : Int) (zc gn ofs : Option Int) (s : State) :
    Path ([.gauge, .tanks, .console] ++ ballastBlocks) s (gcal k gc zc gn ofs s) := by
  unfold gcal
  split
  · exact (refuse_path s .console k _).mono (by decide)
  · next ch h =>
    refine Path.trans ?_ ((reply_path _ .console k _ _).mono (by simp [portBlock]))
    refine Path.trans ?_ ((settleArbiter_path _).mono (by decide))
    exact (recalibrate_path ch zc gn (gcalTests_eq_some h).2.2.2 s).mono (by decide)

theorem changeMap_path (t : Nat) (c : Option Nat) (s : State) : Path ([.gauge, .tanks] ++ ballastBlocks) s (changeMap t c s) := by
  unfold changeMap
  refine Path.trans ?_ ((liveRequest_path _ _).mono (by decide))
  refine Path.trans ?_ ((restartRound_path _).mono (by decide))
  have hmap : Path ([.gauge, .tanks] ++ ballastBlocks) s (gaugeChange (modTank s t (remap c)) t) :=
    (modTank_path s t fun _ _ h => h.remap c).andThen (gaugeChange_path _ _)
  exact Path.ite (hmap.trans ((gaugeLost_path _ _).mono (by decide))) hmap

theorem tmap_path (k : Nat) (tk gc : Int) (s : State) : Path ([.gauge, .tanks, .console] ++ ballastBlocks) s (tmap k tk gc s) := by
  have href : ∀ oc fs u, Path ([.gauge, .tanks, .console] ++ ballastBlocks) u (reply u .console k oc fs) := fun oc fs u =>
    (reply_path u .console k oc fs).mono (by decide)
  unfold tmap
  split
  · next t c _ _ =>
    refine Path.ite (href _ _ s) (Path.ite (href _ _ s) ?_)
    refine Path.trans ?_ (href _ _ _)
    exact (changeMap_path t c s).andThen (settleArbiter_path _)
  · exact href _ _ s

/-! ### DENS and SNDG -/

/-- A tank's level and density may change while its ring and gauge state stay, with a source that agrees with them (R38, R43). -/
theorem retank_path (s : State) (t : Nat) {f : Tank → Tank} (hf : ∀ r, s.tanks[t]? = some r → TankOk r → TankOk (f r)) :
    Path [.tanks] s (retank s t f) := by
  unfold retank
  split
  · exact modTank_path s t hf
  · exact .refl s

theorem dens_path (k : Nat) (tk dn : Int) (s : State) : Path [.tanks, .engine, .console] s (dens k tk dn s) := by
  unfold dens
  split
  · exact (refuse_path s .console k _).mono (by decide)
  · next t _ =>
    refine Path.trans ?_ ((reply_path _ .console k _ _).mono (by simp [portBlock]))
    refine Path.trans ?_ ((liveRequest_path _ _).mono (by decide))
    exact Path.mono (retank_path s t (by intro _ _ h; exact h)) (by decide)

/-- A sounding by hand belongs to a tank whose gauge is not in use: its ring is empty (R42, R43). -/
theorem TankOk.sounded {t : Tank} (h : TankOk t) (hg : gaugeInUse t.gauge = false) (level : Nat) :
    TankOk { t with level := level, source := .manual } := by
  obtain ⟨hlength, hscore, hback, hchannel, hnormal, hsuspect, hwithdrawn, -, hring, -⟩ := h
  have hempty : t.ring = [] := by
    by_contra hne
    rw [hring hne] at hg
    cases hg
  exact ⟨hlength, hscore, hback, hchannel, hnormal, hsuspect, hwithdrawn, by simp [hempty], hring, fun _ => hg⟩

theorem sndg_path (k : Nat) (tk lv : Int) (s : State) : Path [.tanks, .engine, .console] s (sndg k tk lv s) := by
  have href : ∀ oc fs u, Path [.tanks, .engine, .console] u (reply u .console k oc fs) := fun oc fs u =>
    (reply_path u .console k oc fs).mono (by decide)
  unfold sndg
  split
  · exact href _ _ s
  · next t _ =>
    split
    · exact href _ _ s
    · next hg =>
      split
      · exact href _ _ s
      · refine Path.trans ?_ (href _ _ _)
        refine Path.trans (Path.mono (retank_path s t fun r hr h => h.sounded ?_ _) (by decide)) ((liveRequest_path _ _).mono (by decide))
        rw [show tankRec s t = some r from hr] at hg
        simpa using hg

theorem gqry_path (k : Nat) (tk gc : Option Int) (s : State) : Path [.console] s (gqry k tk gc s) := by
  unfold gqry
  split
  · split
    · exact reply_path s .console k _ _
    · exact refuse_path s .console k _
  · split
    · exact reply_path s .console k _ _
    · exact refuse_path s .console k _
  · exact refuse_path s .console k _

/-! ### The hull engine -/

theorem liveComplete_path (s : State) : Path ([.hull, .reports, .term, .terminal] ++ ballastBlocks) s (liveComplete s) := by
  unfold liveComplete
  split
  · refine Path.trans ?_ ((settleArbiter_path _).mono (by decide))
    exact (takeLiveResult_path s _ _).andThen (finishEvaluation_path _ _)
  · exact .refl s

theorem answerOrdr_path (s : State) (o : Order) (oc : Oc) (fs : List (Field × Val)) : Path [.console] s (answerOrdr s o oc fs) := by
  unfold answerOrdr
  split
  · exact reply_path s .console _ _ _
  · exact .refl s

/-- An admission ends with the order dropped or queued under the next rank (R115). -/
theorem admissionResult_preserves (s : State) (id : Nat) (r : EvalResult) (reference : Option Int) :
    Preserves [.orders, .pour, .engine, .console] s (admissionResult s id r reference) := by
  have hset : ∀ x, Preserves [.orders, .pour, .engine, .console] s (setOrders s x) := fun x =>
    (setOrders_changesOnly (bs := [.orders]) (by decide) s x).preserves.mono (by decide)
  have hanswer : ∀ u o oc fs, Preserves [.orders, .pour, .engine, .console] u (answerOrdr u o oc fs) := fun u o oc fs =>
    (answerOrdr_path u o oc fs).preserves.mono (by decide)
  unfold admissionResult
  split
  · exact .refl _ s
  · split
    · exact .refl _ s
    · split
      · exact (hset _).trans (hanswer _ _ _ _)
      · split
        · exact (hset _).trans (hanswer _ _ _ _)
        · refine Preserves.trans ?_ (hanswer _ _ _ _)
          refine Preserves.trans (hset { s.orders with rank := s.orders.rank + 1 }) ?_
          exact (queueOrder_path _ id (by intro _; exact ⟨fun h => h, rfl⟩)).preserves.mono (by decide)

theorem handPreview_preserves (s : State) (q : Requester) (r : EvalResult) (reference : Option Int) :
    Preserves ([.term, .terminal, .console] ++ ballastBlocks) s (handPreview s q r reference) := by
  cases q with
  | order id => exact (admissionResult_preserves s id r reference).mono (by decide)
  | gate _ => exact (gateResult_path s r.band).preserves.mono (by decide)
  | console k => exact (reply_path s .console k _ _).preserves.mono (by decide)

theorem previewComplete_preserves (s : State) : Preserves ([.term, .terminal, .console] ++ ballastBlocks) s (previewComplete s) := by
  unfold previewComplete
  split
  · refine Preserves.trans ?_ ((settleArbiter_path _).preserves.mono (by decide))
    refine Preserves.trans ?_ ((finishEvaluation_path _ _).preserves.mono (by decide))
    exact handPreview_preserves s _ _ _
  · exact .refl _ s

theorem hasRoom_hold (s : State) (l : Link) (k : Nat) (e : PreviewEntry) : hasRoom (hold s l k) e = hasRoom s e := by
  have hengine : (hold s l k).engine = s.engine := (hold_path s l k).changesOnly .engine (by cases l <;> decide)
  rw [hasRoom, hengine, hasRoom]

theorem prev_path (k : Nat) (fields : List PrevField) (s : State) : Path [.engine, .console] s (prev k fields s) := by
  have href : ∀ oc, Path [.engine, .console] s (refuse s .console k oc) := fun oc => (refuse_path s .console k oc).mono (by decide)
  unfold prev
  split
  · exact href _
  · split
    · exact href _
    · split
      · exact href _
      · dsimp only
        split
        · next hroom => exact (hold_path s .console k).andThen (placePreview_path _ (by rw [hasRoom_hold]; exact hroom))
        · exact href _

end Sys2Proof.Machine
end

section
/-! PROOFS. What the plant and order commands change (R85 to R133). -/

namespace Sys2Proof.Machine

/-! ### Input lines -/

/-- A change of the plant that may set its input lines. -/
theorem setPlant_preserves (s : State) (x : Plant) : Preserves ballastBlocks s (setPlant s x) :=
  ((setPlant_changesOnly (bs := [.plant]) (by decide) s x).preserves).mono (by decide)

theorem limitEvent_path (v : Nat) (l : Limit) (x : Bool) (s : State) : Path ballastBlocks s (limitEvent v l x s) :=
  changeValve_path s v fun _ h => h.limitChanged l x

theorem tripPump_path (s : State) (n : Nat) : Path ballastBlocks s (tripPump s n) := by
  unfold tripPump
  refine Path.trans ((stopPump_path s n).mono (by decide)) ?_
  dsimp only
  split
  · exact failAttempt_path _ _ _
  · exact .refl _

theorem stoppedPump_path (s : State) (n : Nat) : Path ballastBlocks s (stoppedPump s n) := by
  unfold stoppedPump
  refine Path.trans ((stopPump_path s n).mono (by decide)) ?_
  dsimp only
  split
  · exact checkRelease_path _ _
  · exact .refl _

theorem runningEvent_path (n : Nat) (x : Bool) (s : State) : Path ballastBlocks s (runningEvent n x s) := by
  unfold runningEvent
  split
  · exact checkProven_path s n
  · split
    · exact tripPump_path s n
    · exact stoppedPump_path s n
    · exact Path.ite ((pumpNotice_path s).mono (by decide)) (.refl s)
    · exact .refl s
    · exact .refl s

theorem provenEvent_path (n : Nat) (x : Bool) (s : State) : Path ballastBlocks s (provenEvent n x s) :=
  Path.ite (checkProven_path s n) (.refl s)

/-- A debounced change of a line and what the controller does with it (R85). -/
theorem lineChange_preserves {act : State → State} (h : ∀ u, Path ballastBlocks u (act u)) (i : Nat) (x : Bool) (s : State) :
    Preserves ballastBlocks s (lineChange i x act s) := by
  unfold lineChange
  split
  · exact (setPlant_preserves s _).trans ((h _).trans (settleArbiter_path _)).preserves
  · exact .refl _ s

theorem lineEvent_path (i : Nat) (x : Bool) (s : State) : Path ballastBlocks s (lineEvent i x s) := by
  unfold lineEvent
  exact Path.ite (runningEvent_path _ x s) (Path.ite (provenEvent_path _ x s) (Path.ite (limitEvent_path _ _ x s) (limitEvent_path _ _ x s)))

theorem sampleLine_preserves (s : State) (i : Nat) : Preserves ballastBlocks s (sampleLine s i) := by
  unfold sampleLine
  split
  · exact .refl _ s
  · next l _ =>
    have hsample := setPlant_preserves s { s.plant with lines := modAt s.plant.lines i fun _ => l.sample s.settings.db }
    dsimp only
    split
    · exact hsample
    · exact hsample.trans ((lineEvent_path i _ _).trans (settleArbiter_path _)).preserves

/-- A refresh of the chain keeps the laws (R85). -/
theorem refreshChain_preserves (s : State) : Preserves ballastBlocks s (refreshChain s) := by
  unfold refreshChain
  generalize upTo 66 = lines
  induction lines generalizing s with
  | nil => exact .refl _ s
  | cons i lines ih => exact (sampleLine_preserves s i).trans (ih _)

/-! ### Timers -/

theorem strokeExpired_path (v : Nat) (s : State) : Path ballastBlocks s (strokeExpired v s) := by
  unfold strokeExpired
  split
  · exact (changeValve_path s v fun _ h => h.strokeExpired).trans (settleArbiter_path _)
  · exact .refl s

theorem countFailure_path (s : State) (n : Nat) : Path ballastBlocks s (countFailure s n) :=
  Path.ite (Path.mono (modPumpS_path s n fun _ _ h => h) (by decide)) (.refl s)

theorem proveExpired_path (id : Nat) (s : State) : Path ballastBlocks s (proveExpired id s) := by
  unfold proveExpired
  split
  · split
    · exact ((foldl_path countFailure_path _ s).trans (failAttempt_path _ id _)).trans (settleArbiter_path _)
    · exact .refl s
  · exact .refl s

theorem stopExpired_path (n : Nat) (s : State) : Path ballastBlocks s (stopExpired n s) := by
  unfold stopExpired
  split
  · split
    · refine Path.trans ((withdrawPump_path s n).mono (by decide)) (Path.trans ?_ (settleArbiter_path _))
      split
      · exact checkRelease_path _ _
      · exact .refl _
    · exact .refl s
  · exact .refl s

/-! ### PRST, XOVR and GANG -/

theorem replyPlant_path (s : State) (k : Nat) (oc : Oc) : Path (.console :: ballastBlocks) s (replyPlant s k oc) :=
  (reply_path s .console k oc _).mono (by decide)

/-- A WITHDRAWN pump has its start line released, so it may be STOPPED (R90, R100). -/
theorem restorePump_path {s : State} {n : Nat} (h : pumpState s n = .withdrawn) : Path ballastBlocks s (restorePump s n) := by
  obtain ⟨x, -, hx, hstate⟩ := pumpState_rec h (by decide)
  have hpump : Path [.plant] s (modPumpS s n fun x => { x with state := .stopped, failures := 0 }) :=
    modPumpS_path s n fun y hy hk => by
      obtain rfl : x = y := Option.some.inj (hx.symm.trans hy)
      unfold PumpOk at hk ⊢
      rw [hk, hstate]
      rfl
  exact (hpump.andThen (pumpNotice_path _) (ds := ballastBlocks)).trans (settleArbiter_path _)

theorem prst_path (k : Nat) (pu : Int) (s : State) : Path (.console :: ballastBlocks) s (prst k pu s) := by
  unfold prst
  split
  · exact replyPlant_path s k _
  · split
    · exact replyPlant_path s k _
    · next hstate =>
      split
      · exact replyPlant_path s k _
      · exact ((restorePump_path (by simpa using hstate)).mono (by decide)).trans (replyPlant_path _ k _)

theorem beginCrossover_path (s : State) (t : CrossTarget) : Path ballastBlocks s (beginCrossover s t) := by
  unfold beginCrossover
  refine Path.trans ?_ (settleArbiter_path _)
  refine Path.trans ?_ ((commandXv_path _ t).mono (by decide))
  exact Path.mono (setPlant_path s _ (by intro h; exact h) rfl) (by decide)

theorem xovr_path (k : Nat) (xm : Option Int) (s : State) : Path (.console :: ballastBlocks) s (xovr k xm s) := by
  unfold xovr
  split
  · exact replyPlant_path s k _
  · split
    · exact replyPlant_path s k _
    · next t _ =>
      exact Path.ite (replyPlant_path s k _) (Path.ite (replyPlant_path s k _) (Path.ite (replyPlant_path s k _)
        (((beginCrossover_path s t).mono (by decide)).trans (replyPlant_path _ k _))))

theorem setGang_path (s : State) (g : Group) (x : Bool) : Path [.plant] s (setPlant s (setGang s.plant g x)) := by
  cases g
  · exact setPlant_path s _ (fun h => h) rfl
  · exact setPlant_path s _ (fun h => h) rfl

theorem gang_path (k : Nat) (ga gm : Int) (s : State) : Path (.console :: ballastBlocks) s (gang k ga gm s) := by
  unfold gang
  split
  · next g x _ _ =>
    refine Path.ite (replyPlant_path s k _) (Path.ite (replyPlant_path s k _) (Path.trans ?_ (replyPlant_path _ k _)))
    refine Path.trans ?_ ((settleArbiter_path _).mono (by decide))
    exact (setGang_path s g x).andThen (pumpNotice_path _)
  · exact replyPlant_path s k _

/-! ### Orders -/

/-- The order table set: an order entered, dropped or released. -/
theorem setOrders_preserves (s : State) (x : Orders) : Preserves [.orders] s (setOrders s x) :=
  (setOrders_changesOnly (by decide) s x).preserves

theorem enterAdmission_preserves (s : State) (k i : Nat) (o : Order) (h : hasRoom s (admissionEntry o) = true) :
    Preserves [.orders, .engine, .console] s (enterAdmission s k i o) := by
  unfold enterAdmission
  refine Preserves.trans ((setOrders_preserves s { s.orders with slots := modAt s.orders.slots i fun _ => some o }).mono (by decide))
    (Path.preserves ?_)
  exact (hold_path _ .console k).andThen (placePreview_path _ (by rw [hasRoom_hold]; exact h))

theorem ordr_preserves (k : Nat) (f : OrdrFields) (s : State) : Preserves [.orders, .engine, .console] s (ordr k f s) := by
  have href : ∀ oc, Preserves [.orders, .engine, .console] s (refuse s .console k oc) := fun oc =>
    (refuse_path s .console k oc).preserves.mono (by decide)
  unfold ordr
  split
  · exact href _
  · split
    · next hroom => exact enterAdmission_preserves s k _ _ hroom
    · exact href _

theorem stallExpired_path (id : Nat) (s : State) : Path (.tanks :: ballastBlocks) s (stallExpired id s) := by
  unfold stallExpired
  split
  · exact .refl s
  · next o _ =>
    split
    · exact .refl s
    · split
      · split
        · refine Path.trans ?_ ((settleArbiter_path _).mono (by decide))
          exact Path.trans ((stopOrder_path s id .stall).mono (by decide)) (badEvent_path _ _)
        · exact Path.mono (modOrder_path s id (by intro _; exact ⟨fun h => h, rfl⟩)) (by decide)
      · exact .refl s

theorem ocan_path (k : Nat) (oi : Int) (s : State) : Path (.console :: ballastBlocks) s (ocan k oi s) := by
  have href : ∀ u oc fs, Path (.console :: ballastBlocks) u (reply u .console k oc fs) := fun u oc fs =>
    (reply_path u .console k oc fs).mono (by decide)
  unfold ocan
  split
  · exact href s _ _
  · next o _ =>
    have hcancelled : Path (.console :: ballastBlocks) s
        (moveOrder s o.id fun o => { o with state := .cancelled, reason := some .cancel, ended := some (now s) }) :=
      Path.mono (moveOrder_path s o.id (by intro _; exact ⟨fun h => h, rfl⟩)) (by decide)
    have hstopped : Path (.console :: ballastBlocks) s (settleArbiter (stopOrder s o.id .cancel)) :=
      Path.mono ((stopOrder_path s o.id .cancel).trans (settleArbiter_path _)) (by decide)
    split
    · exact hcancelled.trans (href _ _ _)
    · exact hcancelled.trans (href _ _ _)
    · exact hstopped.trans (href _ _ _)
    · exact hstopped.trans (href _ _ _)
    · exact hstopped.trans (href _ _ _)
    all_goals exact href s _ _

theorem orel_preserves (k : Nat) (oi : Int) (s : State) : Preserves [.orders, .console] s (orel k oi s) := by
  have href : ∀ u oc, Preserves [.orders, .console] u (reply u .console k oc []) := fun u oc =>
    (reply_path u .console k oc []).preserves.mono (by decide)
  unfold orel
  split
  · exact href s _
  · split
    · exact ((setOrders_preserves s _).mono (by decide)).trans (href _ _)
    · exact href s _

theorem oqry_path (k : Nat) (oi : Option Int) (s : State) : Path [.console] s (oqry k oi s) := by
  unfold oqry
  split
  · exact reply_path s .console k _ _
  · split
    · exact reply_path s .console k _ _
    · exact refuse_path s .console k _

/-! ### Hold-off windows -/

theorem mirrorHeld_length (ws : List Window) (t : Nat) (ts : List Tank) : (mirrorHeld ws t ts).length = ts.length := by
  induction ts generalizing t with
  | nil => rfl
  | cons r rs ih => simp [mirrorHeld, ih]

/-- A held flag set keeps the law of a tank record. -/
theorem TanksOk.mirrorHeld {ts : List Tank} (h : TanksOk ts) (ws : List Window) (t : Nat) : TanksOk (mirrorHeld ws t ts) := by
  induction ts generalizing t with
  | nil => exact h
  | cons r rs ih =>
    obtain ⟨hr, hrs⟩ := List.forall_mem_cons.1 h
    exact List.forall_mem_cons.2 ⟨hr, ih hrs (t + 1)⟩

theorem mirrorHeld_path (s : State) (ws : List Window) : Path [.tanks] s (setTanks s (mirrorHeld ws 0 s.tanks)) :=
  .one (by decide) (.tanks s _ (fun h => h.mirrorHeld ws 0) (mirrorHeld_length ws 0 _))

theorem windowsChangedFor_path (before : List Window) (s : State) (id : Nat) : Path ballastBlocks s (windowsChangedFor before s id) := by
  have hheld : Path ballastBlocks s (modOrder s id fun o => { o with reason := some .held }) :=
    Path.mono (modOrder_path s id (by intro _; exact ⟨fun h => h, rfl⟩)) (by decide)
  have hqueued : Path ballastBlocks s (queueOrder s id fun o => o) :=
    Path.mono (queueOrder_path s id (by intro _; exact ⟨fun h => h, rfl⟩)) (by decide)
  unfold windowsChangedFor
  split
  · exact .refl s
  · split
    · exact Path.ite hheld (.refl s)
    · exact Path.ite hheld (.refl s)
    · exact Path.ite (.refl s) hqueued
    · exact .refl s

/-- What follows a change of the windows (R129, R132, R133). -/
theorem setWindows_preserves (s : State) (ws : List Window) : Preserves (.tanks :: ballastBlocks) s (setWindows s ws) := by
  unfold setWindows
  refine Preserves.trans ((setOrders_preserves s { s.orders with windows := ws }).mono (by decide)) ?_
  refine Preserves.trans ((mirrorHeld_path (setOrders s { s.orders with windows := ws }) ws).preserves.mono (by decide)) ?_
  refine Path.preserves (Path.trans ?_ ((settleArbiter_path _).mono (by decide)))
  dsimp only
  have hfold := fun ids u => (foldl_path (windowsChangedFor_path s.orders.windows) ids u).mono (cs := .tanks :: ballastBlocks) (by decide)
  exact Path.ite ((hfold _ _).trans ((callArbiter_path _).mono (by decide))) (hfold _ _)

theorem hwin_preserves (k : Nat) (wn : Int) (wv wb wm : Option Int) (s : State) :
    Preserves ([.tanks, .console] ++ ballastBlocks) s (hwin k wn wv wb wm s) := by
  have href : ∀ u oc fs, Preserves ([.tanks, .console] ++ ballastBlocks) u (reply u .console k oc fs) := fun u oc fs =>
    (reply_path u .console k oc fs).preserves.mono (by decide)
  unfold hwin
  split
  · exact href s _ _
  · dsimp only
    split
    · exact href s _ _
    · exact ((setWindows_preserves s _).mono (by decide)).trans (href _ _ _)

end Sys2Proof.Machine
end

section
/-! PROOFS. What the pour, report and attention requests change (R134 to R156, R169, R179, R185, R186). -/

namespace Sys2Proof.Machine

/-! ### The plan -/

theorem setPour_preserves (s : State) (x : Pour) : Preserves [.pour] s (setPour s x) := (setPour_changesOnly (by decide) s x).preserves

theorem writeStep_preserves (s : State) (x : Step) : Preserves [.pour] s (writeStep s x) := by
  unfold writeStep
  split
  · exact setPour_preserves s _
  · exact setPour_preserves s _

theorem plan_preserves (k : Nat) (st hd pt : Int) (cp : List Companion) (hc : Option Int) (s : State) :
    Preserves [.pour, .console] s (plan k st hd pt cp hc s) := by
  unfold plan
  split
  · exact (refuse_path s .console k _).preserves.mono (by decide)
  · exact ((writeStep_preserves s _).mono (by decide)).trans ((reply_path _ .console k _ _).preserves.mono (by decide))

theorem cutPlan_preserves (s : State) (xs : List Step) : Preserves [.pour] s (cutPlan s xs) := setPour_preserves s _

theorem pclr_preserves (k : Nat) (st : Option Int) (s : State) : Preserves [.pour, .console] s (pclr k st s) := by
  have href : ∀ u oc fs, Preserves [.pour, .console] u (reply u .console k oc fs) := fun u oc fs =>
    (reply_path u .console k oc fs).preserves.mono (by decide)
  unfold pclr
  split
  · exact ((cutPlan_preserves s _).mono (by decide)).trans (href _ _ _)
  · split
    · exact href s _ _
    · split
      · exact ((cutPlan_preserves s _).mono (by decide)).trans (href _ _ _)
      · exact href s _ _

theorem hcor_path (k : Nat) (hd ms : Int) (s : State) : Path [.pour, .engine, .console] s (hcor k hd ms s) := by
  have href : ∀ u oc fs, Path [.pour, .engine, .console] u (reply u .console k oc fs) := fun u oc fs =>
    (reply_path u .console k oc fs).mono (by decide)
  unfold hcor
  split
  · next h m _ _ =>
    refine Path.ite (href s _ _) (Path.trans ?_ (href _ _ _))
    exact (modHold_path s h _).andThen (liveRequest_path _ _)
  · exact href s _ _

/-! ### Leave to pour -/

theorem sreq_path (k : Nat) (st : Int) (s : State) : Path [.pour, .engine, .terminal] s (sreq k st s) := by
  have href : ∀ oc, Path [.pour, .engine, .terminal] s (refuse s .terminal k oc) := fun oc =>
    (refuse_path s .terminal k oc).mono (by decide)
  unfold sreq
  split
  · exact href _
  · split
    · exact href _
    · split
      · exact (startWaiting_path s _ k _).mono (by decide)
      · exact (hold_path s .terminal k).andThen (enterEvaluating_path _ _ _)

theorem discardPreviewFor_path (s : State) (n : Nat) : Path [.pour] s (discardPreviewFor s n) :=
  Path.ite (setPour_path s _ fun h => h) (.refl s)

theorem holdExpired_path (n : Nat) (s : State) : Path [.pour, .term, .terminal, .attention] s (holdExpired n s) := by
  unfold holdExpired
  split
  · exact .refl s
  · exact Path.ite ((blockStep_path s _ _).trans ((discardPreviewFor_path _ n).mono (by decide))) (.refl s)

/-- A step's record changed, its number kept. -/
theorem modStep_same_path (s : State) (n : Nat) {f : Step → Step} (hf : ∀ x, (f x).number = x.number) : Path [.pour] s (modStep s n f) :=
  modStep_path s n f fun x hx => (hf x).trans hx

theorem sfrc_path (k : Nat) (st : Int) (s : State) : Path [.pour, .term, .terminal, .console] s (sfrc k st s) := by
  have href : ∀ u oc fs, Path [.pour, .term, .terminal, .console] u (reply u .console k oc fs) := fun u oc fs =>
    (reply_path u .console k oc fs).mono (by decide)
  unfold sfrc
  split
  · exact href s _ _
  · next x _ =>
    have hgranted : Path [.pour, .term, .terminal, .console] s (grant (discardPreviewFor s x.number) x) :=
      (discardPreviewFor_path s _).andThen (grant_path _ x)
    have hresumed : Path [.pour, .term, .terminal, .console] s
        (resume (modStep s x.number fun y => { y with overshootMark := false, overshootAccepted := true }) x) := by
      refine Path.trans ?_ ((resume_path _ x).mono (by decide))
      exact Path.mono (modStep_same_path s _ (by intro _; rfl)) (by decide)
    have hleave := Path.ite (c := (!reportMet s) = true) (href s .busy [])
      (Path.ite (c := (!hullMet s) = true) (href s .limit []) (hgranted.trans (href _ .ok (forcedFields (grant (discardPreviewFor s x.number) x) x.number))))
    split
    · exact hleave
    · exact hleave
    · exact hleave
    · exact hleave
    · exact Path.ite (href s _ _) (hresumed.trans (href _ _ _))
    all_goals exact href s _ _

theorem skipStep_path (s : State) (x : Step) : Path [.pour, .term, .terminal] s (skipStep s x) := by
  have hskipped : Path [.pour, .term, .terminal] s (modStep s x.number fun y => { y with state := .skipped, holdTimer := none }) :=
    Path.mono (modStep_same_path s _ (by intro _; rfl)) (by decide)
  exact Path.ite hskipped (hskipped.trans ((handTerminal_path _ _).mono (by decide)))

theorem sskp_path (k : Nat) (st : Int) (s : State) : Path [.pour, .term, .terminal, .console] s (sskp k st s) := by
  have href : ∀ u oc, Path [.pour, .term, .terminal, .console] u (reply u .console k oc []) := fun u oc =>
    (reply_path u .console k oc []).mono (by decide)
  unfold sskp
  split
  · exact href s _
  · split
    · exact href s _
    · exact Path.ite (((skipStep_path s _).mono (by decide)).trans (href _ _)) (href s _)

theorem scan_path (k : Nat) (st : Int) (s : State) : Path [.pour, .terminal] s (scan k st s) := by
  have href : ∀ u oc fs, Path [.pour, .terminal] u (reply u .terminal k oc fs) := fun u oc fs =>
    (reply_path u .terminal k oc fs).mono (by decide)
  unfold scan
  split
  · exact href s _ _
  · refine Path.ite (Path.trans ?_ (href _ _ _)) (href s _ _)
    exact Path.mono (modStep_same_path s _ (by intro _; rfl)) (by decide)

/-! ### Pouring -/

theorem recordTally_path (s : State) (st : Step) (ty : Nat) : Path [.pour] s (recordTally s st ty) := by
  unfold recordTally
  refine Path.trans ?_ (modHold_path _ _ _)
  exact modStep_same_path s _ (by intro _; rfl)

theorem taly_path (k : Nat) (hd ty : Int) (s : State) :
    Path [.pour, .engine, .term, .terminal, .attention, .reports] s (taly k hd ty s) := by
  have href : ∀ u oc fs, Path [.pour, .engine, .term, .terminal, .attention, .reports] u (reply u .terminal k oc fs) := fun u oc fs =>
    (reply_path u .terminal k oc fs).mono (by decide)
  unfold taly
  split
  · exact href s _ _
  · split
    · exact href s _ _
    · next st _ =>
      refine Path.ite (href s _ _) (Path.trans ?_ (href _ _ _))
      refine Path.trans ?_ ((tallyTests_path _ _).mono (by decide))
      refine Path.trans ?_ ((tallyAccepted_path _).mono (by decide))
      exact (recordTally_path s st _).andThen (liveRequest_path _ _)

theorem recordFinal_path (s : State) (st : Step) (fn : Nat) : Path [.pour] s (recordFinal s st fn) := by
  unfold recordFinal
  refine Path.trans ?_ (modHold_path _ _ _)
  exact modStep_same_path s _ (by intro _; rfl)

theorem finishStep_path (s : State) (st : Step) (fn : Nat) : Path [.pour, .engine, .term, .terminal, .attention] s (finishStep s st fn) := by
  have hended : Path [.pour, .engine, .term, .terminal, .attention] s (pouringEnded (liveRequest (recordFinal s st fn) false)) :=
    ((recordFinal_path s st fn).andThen (liveRequest_path _ _)).trans (pouringEnded_path _)
  exact Path.ite (hended.trans ((settled_path _ _).mono (by decide))) hended

theorem sfin_path (k : Nat) (st fn : Int) (s : State) : Path [.pour, .engine, .term, .terminal, .attention] s (sfin k st fn s) := by
  have href : ∀ u oc fs, Path [.pour, .engine, .term, .terminal, .attention] u (reply u .terminal k oc fs) := fun u oc fs =>
    (reply_path u .terminal k oc fs).mono (by decide)
  unfold sfin
  split
  · exact href s _ _
  · split
    · exact href s _ _
    · split
      · exact href s _ _
      · exact (finishStep_path s _ _).trans (href _ _ _)

theorem settleExpired_path (n : Nat) (s : State) : Path [.pour, .engine] s (settleExpired n s) := by
  unfold settleExpired
  split
  · exact Path.ite (settled_path s n) (.refl s)
  · exact .refl s

theorem lstp_path (k : Nat) (st : Int) (s : State) : Path [.pour, .terminal] s (lstp k st s) := by
  have href : ∀ u oc fs, Path [.pour, .terminal] u (reply u .terminal k oc fs) := fun u oc fs =>
    (reply_path u .terminal k oc fs).mono (by decide)
  unfold lstp
  split
  · exact href s _ _
  · refine Path.ite (Path.trans ?_ (href _ _ _)) (href s _ _)
    exact Path.mono (modStep_same_path s _ (by intro _; rfl)) (by decide)

/-! ### Reports and attention -/

theorem withSettings_path (s : State) (kind : ReportKind) (x : ReportSettings) : Path [.reports] s (setReports s (withSettings s.reports kind x)) :=
  setReports_path s _ fun h => by cases kind <;> exact h

theorem rcfg_path (k : Nat) (f : RcfgFields) (s : State) : Path [.reports, .console] s (rcfg k f s) := by
  unfold rcfg
  split
  · exact (refuse_path s .console k _).mono (by decide)
  · exact (withSettings_path s _ _).andThen (reply_path _ .console k _ _)

theorem rreq_path (k : Nat) (s : State) : Path [.reports, .attention, .pour, .engine, .console] s (rreq k s) := by
  unfold rreq
  split
  · exact (refuse_path s .console k _).mono (by decide)
  · exact (trigger_path s (by decide) none).andThen (reply_path _ .console k _ _)

theorem setAttention_preserves (s : State) (x : Attention) : Preserves [.attention] s (setAttention s x) :=
  (setAttention_changesOnly (by decide) s x).preserves

theorem aenb_preserves (k : Nat) (em : Int) (s : State) : Preserves [.attention, .console] s (aenb k em s) := by
  unfold aenb
  split
  · exact (refuse_path s .console k _).preserves.mono (by decide)
  · exact ((setAttention_preserves s _).mono (by decide)).trans ((reply_path _ .console k _ _).preserves.mono (by decide))

theorem aack_preserves (k : Nat) (cn : List Int) (s : State) : Preserves [.attention, .console] s (aack k cn s) := by
  unfold aack
  split
  · exact (refuse_path s .console k _).preserves.mono (by decide)
  · exact ((setAttention_preserves s _).mono (by decide)).trans ((reply_path _ .console k _ _).preserves.mono (by decide))

end Sys2Proof.Machine
end

section
/-! PROOFS. What the profile, link and terminal commands change, and so every command and every step (R11 to R14, R24, R158 to R162, R176 to R193). -/

namespace Sys2Proof.Machine

/-! ### The profile store -/

theorem profileOf_of_loading {s : State} {r : LoadRecord} (h : s.profile = .loading r) : profileOf s = none := by rw [profileOf, h]

theorem openLoad_preserves {s : State} (h : profileOf s = none) : Preserves [.profile, .stored] s (openLoad s) := by
  refine Preserves.trans ((setProfile_preserves h (x := .loading LoadRecord.fresh) rfl).mono (by decide)) ?_
  exact (setStored_changesOnly (bs := [.stored]) (by decide) _ _).preserves.mono (by decide)

/-- A profile withdrawn takes its tank table with it: NO_PROFILE with no record (R17, R47). -/
theorem withdrawn_preserves (s : State) : Preserves [.profile, .stored, .call, .tanks, .engine] s (withdrawn s) where
  changes := withdrawn_changesOnly s
  settings := id
  call _ := ⟨iff_of_true rfl rfl, rfl⟩
  gauge := id
  tanks _ := fun _ ht => absurd ht List.not_mem_nil
  engine _ := EngineOk.initial
  hull := id

theorem popn_preserves (k : Nat) (s : State) : Preserves (touches (.popn 0)) s (popn k s) := by
  have href : ∀ oc, Preserves (touches (.popn 0)) s (refuse s .console k oc) := fun oc =>
    (refuse_path s .console k oc).preserves.mono (by decide)
  have hopened : profileOf s = none → Preserves (touches (.popn 0)) s (reply (openLoad s) .console k .ok []) := fun h =>
    ((openLoad_preserves h).mono (by decide)).trans ((reply_path _ .console k .ok []).preserves.mono (by decide))
  unfold popn
  split
  · next hp => exact hopened (by rw [profileOf, hp])
  · next hp =>
    split
    · exact href _
    · exact hopened (profileOf_of_loading hp)
  · split
    · exact ((withdrawn_preserves s).mono (by decide)).trans ((answered_path s k).preserves.mono (by decide))
    · exact href _

/-- The load record changed while the profile loads. -/
theorem setLoad_preserves {s : State} (h : profileOf s = none) (r : LoadRecord) : Preserves [.profile, .console] s (setLoad s r) :=
  (setProfile_preserves h (x := .loading r) rfl).mono (by decide)

theorem failLoad_preserves {s : State} (h : profileOf s = none) : Preserves [.profile, .console] s (failLoad s) :=
  (setProfile_preserves h (x := .empty) rfl).mono (by decide)

theorem pdat_preserves (k : Nat) (sn : List Byte) (xi : Int) (sd : List Byte) (s : State) :
    Preserves [.profile, .console] s (pdat k sn xi sd s) := by
  have href : ∀ u oc fs, Preserves [.profile, .console] u (reply u .console k oc fs) := fun u oc fs =>
    (reply_path u .console k oc fs).preserves.mono (by decide)
  cases hp : s.profile with
  | empty => rw [pdat_notLoading (by simp [hp])]; exact href s _ _
  | valid p => rw [pdat_notLoading (by simp [hp])]; exact href s _ _
  | loading r =>
    simp only [pdat, hp]
    split
    · exact href s _ _
    · split
      · exact href s _ _
      · split
        · exact href s _ _
        · split
          · exact href s _ _
          · split
            · exact href s _ _
            · exact (setLoad_preserves (profileOf_of_loading hp) _).trans (href _ _ _)

theorem pcls_preserves (k : Nat) (cr : Crc32) (s : State) : Preserves [.profile, .console] s (pcls k cr s) := by
  have href : ∀ oc, Preserves [.profile, .console] s (refuse s .console k oc) := fun oc =>
    (refuse_path s .console k oc).preserves.mono (by decide)
  unfold pcls
  split
  · next hp =>
    split
    · exact href _
    · exact (setLoad_preserves (profileOf_of_loading hp) _).trans ((hold_path _ .console k).preserves.mono (by decide))
  · exact href _

theorem checksEnd_preserves (s : State) : Preserves [.profile, .console] s (checksEnd s) := by
  unfold checksEnd
  split
  · next hp =>
    have hfail : ∀ k oc fs, Preserves [.profile, .console] s (reply (failLoad s) .console k oc fs) := fun k oc fs =>
      (failLoad_preserves (profileOf_of_loading hp)).trans ((reply_path _ .console k oc fs).preserves.mono (by decide))
    split
    · split
      · exact .refl _ s
      · split
        · exact hfail _ _ _
        · split
          · exact hfail _ _ _
          · exact setLoad_preserves (profileOf_of_loading hp) _
    · exact .refl _ s
  · exact .refl _ s

/-- The profile written is in force with its own tank table (R14, R17, R47). -/
theorem writtenProfile_preserves (s : State) (p : Profile) (x : StoredCopy) (k : Nat) :
    Preserves (touches (.nonVolatileWriteComplete [])) s (announceProfile (reply (setProfile (setStored s x) (.valid p)) .console k .ok [])) := by
  obtain ⟨hchanges, hprofile, -, hcall, htanks, hhull, -⟩ := writtenProfile_spec s p x k
  exact
    { changes := hchanges
      settings := fun h => hchanges .settings (by decide) ▸ h
      call := fun _ => by
        rw [CallOk, profileOf_of_valid hprofile, hcall, htanks]
        simp
      gauge := fun h => hchanges .gauge (by decide) ▸ h
      tanks := fun _ => htanks ▸ TanksOk.initial p.tanks
      engine := fun h => hchanges .engine (by decide) ▸ h
      hull := fun _ => hhull ▸ HullOk.initial }

theorem writeEnd_preserves (back : List Byte) (s : State) : Preserves (touches (.nonVolatileWriteComplete back)) s (writeEnd back s) := by
  cases hp : s.profile with
  | empty => simpa [writeEnd, hp] using Preserves.refl _ s
  | valid p => simpa [writeEnd, hp] using Preserves.refl _ s
  | loading r =>
    cases hc : r.closing with
    | none => simpa [writeEnd, hp, hc] using Preserves.refl _ s
    | some c =>
      cases hw : c.writing with
      | false => simpa [writeEnd, hp, hc, hw] using Preserves.refl _ s
      | true =>
        by_cases hcrc : crc32 back = c.cr
        · rw [writeEnd_good hp hc hw hcrc]
          exact writtenProfile_preserves s _ _ _
        · rw [writeEnd_wrongCrc hp hc hw hcrc]
          have hstored : Preserves (touches (.nonVolatileWriteComplete [])) s
              (setStored s { mark := false, bytes := back, count := r.byteCount, crc := c.cr }) :=
            (setStored_changesOnly (bs := [.stored]) (by decide) s _).preserves.mono (by decide)
          have hfail := (failLoad_preserves (s := setStored s { mark := false, bytes := back, count := r.byteCount, crc := c.cr })
            (profileOf_of_loading hp)).mono (cs := touches (.nonVolatileWriteComplete [])) (by decide)
          have hreply := (reply_path (failLoad (setStored s { mark := false, bytes := back, count := r.byteCount, crc := c.cr })) .console
            c.slot .profileCrc []).preserves.mono (cs := touches (.nonVolatileWriteComplete [])) (by decide)
          exact (hstored.trans hfail).trans hreply

/-! ### The ports -/

theorem setPort_preserves (s : State) (l : Link) (p : Port) : Preserves [portBlock l] s (setPort s l p) :=
  (setPort_changesOnly (List.mem_singleton.2 rfl) s p).preserves (by cases l <;> decide)

theorem setRx_preserves (s : State) (l : Link) (r : Receiver) : Preserves [portBlock l] s (setRx s l r) := setPort_preserves s l _

theorem huntIn_preserves (l : Link) (bytes : List Byte) (s : State) : Preserves [portBlock l] s (huntIn l bytes s) := by
  unfold huntIn
  dsimp only
  split
  · exact .refl _ s
  · exact setRx_preserves s l _

theorem huntOn_preserves (s : State) (l : Link) (held : List Byte) (at_ : Nat) : Preserves [portBlock l] s (huntOn s l held at_) :=
  setRx_preserves s l _

theorem collectIn_preserves (l : Link) (bytes : List Byte) (s : State) : Preserves [portBlock l] s (collectIn l bytes s) := by
  unfold collectIn
  dsimp only
  split
  · exact .refl _ s
  · split
    · exact setRx_preserves s l _
    · exact huntOn_preserves s l _ _
    · split
      · split
        · exact (huntOn_preserves s l _ _).trans (setPort_preserves _ l _)
        · exact huntOn_preserves s l _ _
      · exact (huntOn_preserves s l _ _).trans (setPort_preserves _ l _)

theorem dropStale_preserves (l : Link) (s : State) : Preserves [portBlock l] s (dropStale l s) := by
  unfold dropStale
  dsimp only
  split
  · exact huntOn_preserves s l _ _
  · exact .refl _ s

theorem beginTx_preserves (s : State) (l : Link) (f : TxFrame) : Preserves [portBlock l] s (beginTx s l f) := setPort_preserves s l _

theorem setReports_preserves (s : State) (x : Reports) : Preserves [.reports] s (setReports s x) :=
  (setReports_changesOnly (by decide) s x).preserves

theorem beginReport_preserves (s : State) (l : Link) (r : Report) : Preserves [portBlock l, .reports] s (beginReport s l r) := by
  unfold beginReport
  refine Preserves.trans ?_ ((beginTx_preserves _ l _).mono (by simp))
  exact (setReports_preserves s _).mono (by simp)

/-- The next frame is taken from its class: the console's NOTEs from the attention unit, the RPRTs from the report builder (R176, R184, R192). -/
theorem chooseFrame_preserves (l : Link) (s : State) : Preserves (touches (.frameTransmitStart l)) s (chooseFrame l s) := by
  have hport : [portBlock l] ⊆ touches (.frameTransmitStart l) := by cases l <;> decide
  have hreport : [portBlock l, .reports] ⊆ touches (.frameTransmitStart l) := by cases l <;> decide
  unfold chooseFrame
  split
  · exact .refl _ s
  · split
    · exact ((setPort_preserves s l _).trans (beginTx_preserves _ l _)).mono hport
    · split
      · exact .refl _ s
      · split
        · next hnote =>
          split at hnote
          · next hconsole =>
            subst hconsole
            exact ((setAttention_preserves s _).mono (by decide)).trans ((beginTx_preserves _ .console _).mono (by decide))
          · cases hnote
        · split
          · exact (beginReport_preserves s l _).mono hreport
          · exact .refl _ s

theorem freeTx_path (s : State) (l : Link) : Path [portBlock l] s (freeTx s l) := setPort_path s l _ fun h => h

/-- A frame that has left its link frees its slot; the reply to WRST is followed by the warm reset (R191, R193). -/
theorem frameSent_preserves (l : Link) (s : State) : Preserves (touches (.replyTransmitComplete l)) s (frameSent l s) := by
  have hport : [portBlock l] ⊆ touches (.replyTransmitComplete l) := by cases l <;> decide
  have hfree := ((freeTx_path s l).preserves).mono hport
  unfold frameSent
  split
  · split
    · next k _ =>
      split
      · next hwrst =>
        obtain rfl : l = .console := by
          simp only [isWrst, Bool.and_eq_true, decide_eq_true_eq] at hwrst
          exact hwrst.1.1
        exact warmReset_preserves s
      · exact hfree.trans ((freeSlotAt_path _ l k).preserves.mono hport)
    · exact hfree
  · exact hfree
  · exact hfree
  · exact .refl _ s

theorem deliverQueued_preserves (l : Link) (s : State) : Preserves [.reports, .pour, .engine] s (deliverQueued l s) := by
  have hset : ∀ x, Preserves [.reports, .pour, .engine] s (setReports s x) := fun x => (setReports_preserves s x).mono (by decide)
  unfold deliverQueued
  split
  · exact .refl _ s
  · dsimp only
    split
    · exact (hset _).trans ((recordLeft_path _ _).preserves.mono (by decide))
    · exact hset _

theorem deliver_preserves (l : Link) (s : State) : Preserves (touches (.delivery l)) s (deliver l s) := by
  have hport : [portBlock l] ⊆ touches (.delivery l) := by cases l <;> decide
  have hreports : [.reports, .pour, .engine] ⊆ touches (.delivery l) := by cases l <;> decide
  have hclosing : [.reports, .call, .gauge] ⊆ touches (.delivery l) := by cases l <;> decide
  unfold deliver
  split
  · refine Preserves.trans ?_ ((closingCheck_path _).preserves.mono hclosing)
    refine Preserves.trans ?_ ((deliverQueued_preserves l _).mono hreports)
    exact ((freeTx_path s l).preserves.mono hport).trans ((setReports_preserves _ _).mono (List.cons_subset.2 ⟨hreports (by decide), List.nil_subset _⟩))
  · exact .refl _ s

/-! ### The terminal link -/

theorem answerTatt_path (s : State) (k : Nat) : Path [.terminal] s (answerTatt s k) := reply_path s .terminal k _ _

theorem placeUnsolicited_path (s : State) (u : Unsolicited) : Path [.terminal] s (place s .terminal (.unsolicited u)) :=
  place_path s .terminal _ nofun

theorem sendKept_path (s : State) : Path [.terminal, .term] s (sendKept s) := by
  have hplaced := foldl_path placeUnsolicited_path s.term.kept s
  have hterm : (s.term.kept.foldl (fun s u => place s .terminal (.unsolicited u)) s).term = s.term := hplaced.changesOnly .term (by decide)
  refine Path.andThen hplaced (setTerm_path _ _ fun h => ?_)
  rw [hterm] at h
  exact ⟨h.1, Nat.zero_le 4⟩

theorem reattach_path (s : State) : Path [.terminal, .term, .attention] s (reattach s) := by
  unfold reattach
  have hup : Path [.terminal, .term, .attention] s (setTerm (setLinkState (sendKept s) .up) { (setLinkState (sendKept s) .up).term with count := 0 }) := by
    refine Path.trans ((sendKept_path s).andThen (setLinkState_path _ .up)) ?_
    exact Path.mono (setTerm_path _ _ (by intro h; exact ⟨Nat.zero_le 4, h.2⟩)) (by decide)
  exact Path.ite (hup.trans ((startQuiet_path _).mono (by decide))) hup

theorem reattach_state (s : State) : (reattach s).term.state = .up := by
  unfold reattach
  dsimp only
  split <;> rfl

/-- The announced attach of a link that is UP triggers no report (R158, R159). -/
theorem announceUp_path {s : State} (h : s.term.state = .up) (k : Nat) :
    Path [.term, .terminal, .attention, .pour, .engine] s (linkChanged (answerTatt s k)) := by
  have hterm : (answerTatt s k).term = s.term := (answerTatt_path s k).changesOnly .term (by decide)
  exact (answerTatt_path s k).andThen (linkChanged_path_notLost _ (by rw [hterm, h]; decide))

theorem tatt_path (k : Nat) (s : State) : Path [.term, .terminal, .attention, .pour, .engine] s (tatt k s) := by
  unfold tatt
  split
  · exact (answerTatt_path s k).mono (by decide)
  · exact (answerTatt_path s k).mono (by decide)
  · exact ((setLinkState_path s .up).mono (by decide)).trans (announceUp_path (setLinkState_state s .up) k)
  · exact ((reattach_path s).mono (by decide)).trans (announceUp_path (reattach_state s) k)

theorem PortOk.filterQueue {p : Port} (h : PortOk p) (f : Class1 → Bool) : PortOk { p with queue := p.queue.filter f } :=
  ⟨h.1, h.2.1, (List.Sublist.length_le (List.filter_sublist.filter _)).trans h.2.2.1, h.2.2.2⟩

theorem abandonReport_path (s : State) : Path [.terminal, .reports, .attention] s (abandonReport s) := by
  unfold abandonReport
  split
  · refine Path.trans ?_ ((abandonTransmission_path _ _).mono (by decide))
    exact Path.mono (setPort_path s .terminal _ (by intro h; exact h)) (by decide)
  · exact .refl s

theorem detach_path (s : State) : Path [.term, .terminal, .attention, .pour, .engine, .reports, .call, .gauge] s (detach s) := by
  unfold detach
  refine Path.trans ?_ ((linkChanged_path _).mono (by decide))
  refine Path.trans ?_ ((closingCheck_path _).mono (by decide))
  refine Path.trans ?_ ((abandonReport_path _).mono (by decide))
  refine Path.trans ?_ (Path.mono (setPort_path _ .terminal _ (by intro h; exact h.filterQueue _)) (by decide))
  refine Path.trans ?_ (Path.mono (setTerm_path _ _ (by intro h; exact ⟨h.1, Nat.zero_le 4⟩)) (by decide))
  exact (setLinkState_path s .detached).mono (by decide)

theorem answerTdet_path (s : State) (k : Nat) : Path [.terminal] s (answerTdet s k) := reply_path s .terminal k _ _

theorem tdet_path (k : Nat) (s : State) : Path [.term, .terminal, .attention, .pour, .engine, .reports, .call, .gauge] s (tdet k s) := by
  have href : Path [.term, .terminal, .attention, .pour, .engine, .reports, .call, .gauge] s (refuse s .terminal k .state) :=
    (refuse_path s .terminal k .state).mono (by decide)
  have hdetach := (detach_path s).trans ((answerTdet_path (detach s) k).mono (by decide))
  unfold tdet
  split
  · exact (answerTdet_path s k).mono (by decide)
  · exact href
  · exact Path.ite href hdetach
  · exact Path.ite href hdetach

theorem loseLink_path (s : State) : Path [.term, .terminal, .attention, .pour, .engine, .reports] s (loseLink s) := by
  unfold loseLink
  refine Path.trans ?_ ((trigger_path _ (by decide) _).mono (by decide))
  refine Path.trans ?_ ((raise_path _ (by decide) _).mono (by decide))
  refine Path.trans ?_ ((linkChanged_path _).mono (by decide))
  refine Path.trans ?_ (Path.mono (setTerm_path _ _ (by intro h; exact ⟨Nat.le_refl 4, h.2⟩)) (by decide))
  exact (setLinkState_path s .lost).mono (by decide)

/-- A quiet expiry below the fourth leaves a count of at most 3 (R162). -/
theorem quietOn_path {s : State} (h : ¬3 ≤ s.term.count) : Path [.term, .terminal, .attention, .pour, .engine] s (quietOn s) := by
  unfold quietOn
  have hcount : Path [.term, .terminal, .attention, .pour, .engine] s
      (setTerm s { s.term with count := s.term.count + 1, quietTimer := some (expiryAfter s s.settings.qt) }) :=
    Path.mono (setTerm_path s _ (by intro hk; exact ⟨Nat.le_of_lt (Nat.succ_lt_succ (Nat.not_le.1 h)), hk.2⟩)) (by decide)
  exact Path.ite (hcount.trans ((changeLink_path_notLost _ (by decide)).mono (by decide))) hcount

theorem quietExpired_path (s : State) : Path [.term, .terminal, .attention, .pour, .engine, .reports] s (quietExpired s) := by
  unfold quietExpired
  split
  · split
    · exact loseLink_path s
    · next h => exact (quietOn_path h).mono (by decide)
  · exact .refl s

theorem sqry_path (k : Nat) (st : Option Int) (s : State) : Path [.terminal] s (sqry k st s) := by
  unfold sqry
  split
  · exact reply_path s .terminal k _ _
  · split
    · exact reply_path s .terminal k _ _
    · exact refuse_path s .terminal k _

/-! ### Every command -/

theorem losePower_preserves (s : State) : Preserves [.powered, .stored] s (losePower s) :=
  ((setPowered_changesOnly (by decide) s false).trans (setStored_changesOnly (by decide) _ _)).preserves

theorem wrst_preserves (k : Nat) (s : State) : Preserves [.wrstPending, .console] s (reply (setWrstPending s true) .console k .ok []) :=
  (setWrstPending_changesOnly (by decide) s true).preserves.trans ((reply_path _ .console k .ok []).preserves.mono (by decide))

/-- Every request changes only the pieces of its command and keeps the laws. -/
theorem requestEffect_preserves (r : Request) (k : Nat) (s : State) : Preserves (touches (r.command k)) s (requestEffect k r s) := by
  cases r with
  | popn => exact popn_preserves k s
  | pdat sn xi sd => exact pdat_preserves k sn xi sd s
  | pcls cr => exact pcls_preserves k cr s
  | copn => exact copn_preserves k s
  | cend => exact cend_preserves k s
  | clks cl => exact clks_preserves k cl s
  | setp vs => exact setp_preserves k vs s
  | tmap tk gc => exact (whenAdmitted_path (by decide) (tmap_path k tk gc s) _ k).preserves
  | gcal gc zc gn ofs => exact (whenAdmitted_path (by decide) (gcal_path k gc zc gn ofs s) _ k).preserves
  | dens tk dn => exact (whenAdmitted_path (by decide) (dens_path k tk dn s) _ k).preserves
  | sndg tk lv => exact (whenAdmitted_path (by decide) (sndg_path k tk lv s) _ k).preserves
  | gqry tk gc => exact (gqry_path k tk gc s).preserves
  | prev fields => exact (whenAdmitted_path (by decide) (prev_path k fields s) _ k).preserves
  | hqry => exact (reply_path s .console k _ _).preserves
  | prst pu => exact (whenPlantAdmitted_path (by decide) (prst_path k pu s) k).preserves
  | xovr xm => exact (whenPlantAdmitted_path (by decide) (xovr_path k xm s) k).preserves
  | gang ga gm => exact (whenPlantAdmitted_path (by decide) (gang_path k ga gm s) k).preserves
  | ordr f => exact whenAdmitted_preserves (by decide) (ordr_preserves k f s) _ k
  | ocan oi => exact (whenAdmitted_path (by decide) (ocan_path k oi s) _ k).preserves
  | orel oi => exact whenAdmitted_preserves (by decide) (orel_preserves k oi s) _ k
  | oqry oi => exact (oqry_path k oi s).preserves
  | hwin wn wv wb wm => exact whenAdmitted_preserves (by decide) (hwin_preserves k wn wv wb wm s) _ k
  | plan st hd pt cp hc => exact whenAdmitted_preserves (by decide) (plan_preserves k st hd pt cp hc s) _ k
  | pclr st => exact whenAdmitted_preserves (by decide) (pclr_preserves k st s) _ k
  | sfrc st => exact (whenAdmitted_path (by decide) (sfrc_path k st s) _ k).preserves
  | sskp st => exact (whenAdmitted_path (by decide) (sskp_path k st s) _ k).preserves
  | hcor hd ms => exact (whenAdmitted_path (by decide) (hcor_path k hd ms s) _ k).preserves
  | rreq => exact (whenAdmitted_path (by decide) (rreq_path k s) _ k).preserves
  | rcfg f => exact (rcfg_path k f s).preserves
  | aenb em => exact aenb_preserves k em s
  | aack cn => exact aack_preserves k cn s
  | aqry => exact (reply_path s .console k _ _).preserves
  | wrst => exact wrst_preserves k s
  | tatt => exact (tatt_path k s).preserves
  | tdet => exact (tdet_path k s).preserves
  | sreq st => exact (whenAdmitted_path (by decide) (sreq_path k st s) _ k).preserves
  | taly hd ty => exact (whenAdmitted_path (by decide) (taly_path k hd ty s) _ k).preserves
  | sfin st fn => exact (whenAdmitted_path (by decide) (sfin_path k st fn s) _ k).preserves
  | lstp st => exact (whenAdmitted_path (by decide) (lstp_path k st s) _ k).preserves
  | scan st => exact (whenAdmitted_path (by decide) (scan_path k st s) _ k).preserves
  | sqry st => exact (sqry_path k st s).preserves

/-- A command that serves a slot changes only its pieces, whatever the slot holds (log 1, 24). -/
theorem exec_request_preserves (r : Request) (k : Nat) (s : State) :
    ∃ t, exec (r.command k) s = .next t ∧ Preserves (touches (r.command k)) s t := by
  obtain ⟨act, hexec, -, hact⟩ := exec_serves r k
  refine ⟨_, (hexec s).trans rfl, ?_⟩
  split
  · split
    · next r' _ =>
      rcases hact r' s with ⟨hcommand, heffect⟩ | hignored
      · rw [heffect, ← hcommand]
        exact requestEffect_preserves r' k s
      · rw [hignored]
        exact .refl _ s
    · exact .refl _ s
  · exact .refl _ s

/-- An event changes only its pieces, also where the part has no power (log 24). -/
theorem event_preserves {bs : List Block} {s : State} {act : State → State} (h : Preserves bs s (act s)) :
    ∃ t, event s act = .next t ∧ Preserves bs s t := by
  refine ⟨_, rfl, ?_⟩
  split
  · exact h
  · exact .refl _ s

/-- Every command ends in a next state, changes only its pieces and keeps the laws. -/
theorem exec_preserves (c : Instr) (s : State) : ∃ t, exec c s = .next t ∧ Preserves (touches c) s t := by
  cases c with
  | powerOn => exact ⟨_, exec_powerOn s, restartedFrom_preserves s _⟩
  | warmReset => exact event_preserves (warmReset_preserves s)
  | uptimeSecond => exact event_preserves (oneSecond_changesOnly s).preserves
  | powerLoss => exact event_preserves (losePower_preserves s)
  | startByteFound l bytes => exact event_preserves (huntIn_preserves l bytes s)
  | frameReceived l bytes => exact event_preserves (collectIn_preserves l bytes s)
  | frameDiscarded l bytes => exact event_preserves (collectIn_preserves l bytes s)
  | frameIncompleteTimeout l => exact event_preserves (dropStale_preserves l s)
  | frameTransmitStart l => exact event_preserves (chooseFrame_preserves l s)
  | replyTransmitComplete l => exact event_preserves (frameSent_preserves l s)
  | delivery l => exact event_preserves (deliver_preserves l s)
  | profileChecksComplete => exact event_preserves (checksEnd_preserves s)
  | nonVolatileWriteComplete back => exact event_preserves (writeEnd_preserves back s)
  | scanPeriodTick => exact event_preserves (scanTick_path s).preserves
  | conversionComplete code => exact event_preserves (conversion_path (Nat.le_of_lt_succ code.isLt) s).preserves
  | liveEvaluationComplete => exact event_preserves (liveComplete_path s).preserves
  | previewComplete => exact event_preserves (previewComplete_preserves s)
  | valveLimitChange v l present =>
    refine event_preserves ?_
    split
    · exact lineChange_preserves (limitEvent_path v l present) _ _ s
    · exact .refl _ s
  | strokeTimerExpiry v => exact event_preserves (strokeExpired_path v s).preserves
  | pressureProvenChange pump present =>
    refine event_preserves ?_
    split
    · exact lineChange_preserves (provenEvent_path pump present) _ _ s
    · exact .refl _ s
  | pumpRunningFeedbackChange pump present =>
    refine event_preserves ?_
    split
    · exact lineChange_preserves (runningEvent_path pump present) _ _ s
    · exact .refl _ s
  | proveTimerExpiry id => exact event_preserves (proveExpired_path id s).preserves
  | pumpStopTimerExpiry pump => exact event_preserves (stopExpired_path pump s).preserves
  | stallWindowExpiry id => exact event_preserves (stallExpired_path id s).preserves
  | holdTimerExpiry n => exact event_preserves (holdExpired_path n s).preserves
  | settleTimerExpiry n => exact event_preserves (settleExpired_path n s).preserves
  | quietTimerExpiry => exact event_preserves (quietExpired_path s).preserves
  | popn k => exact exec_request_preserves .popn k s
  | pdat k => exact exec_request_preserves (.pdat [] 0 []) k s
  | pcls k => exact exec_request_preserves (.pcls 0) k s
  | copn k => exact exec_request_preserves .copn k s
  | cend k => exact exec_request_preserves .cend k s
  | clks k => exact exec_request_preserves (.clks 0) k s
  | setp k => exact exec_request_preserves (.setp []) k s
  | gcal k => exact exec_request_preserves (.gcal 0 none none none) k s
  | tmap k => exact exec_request_preserves (.tmap 0 0) k s
  | dens k => exact exec_request_preserves (.dens 0 0) k s
  | sndg k => exact exec_request_preserves (.sndg 0 0) k s
  | gqry k => exact exec_request_preserves (.gqry none none) k s
  | prev k => exact exec_request_preserves (.prev []) k s
  | hqry k => exact exec_request_preserves .hqry k s
  | prst k => exact exec_request_preserves (.prst 0) k s
  | xovr k => exact exec_request_preserves (.xovr none) k s
  | gang k => exact exec_request_preserves (.gang 0 0) k s
  | ordr k => exact exec_request_preserves (.ordr ⟨0, 0, 0, 0, 0, none, none, none, none⟩) k s
  | ocan k => exact exec_request_preserves (.ocan 0) k s
  | orel k => exact exec_request_preserves (.orel 0) k s
  | oqry k => exact exec_request_preserves (.oqry none) k s
  | hwin k => exact exec_request_preserves (.hwin 0 none none none) k s
  | plan k => exact exec_request_preserves (.plan 0 0 0 [] none) k s
  | pclr k => exact exec_request_preserves (.pclr none) k s
  | hcor k => exact exec_request_preserves (.hcor 0 0) k s
  | sreq k => exact exec_request_preserves (.sreq 0) k s
  | sfrc k => exact exec_request_preserves (.sfrc 0) k s
  | sskp k => exact exec_request_preserves (.sskp 0) k s
  | scan k => exact exec_request_preserves (.scan 0) k s
  | taly k => exact exec_request_preserves (.taly 0 0) k s
  | sfin k => exact exec_request_preserves (.sfin 0 0) k s
  | lstp k => exact exec_request_preserves (.lstp 0) k s
  | tatt k => exact exec_request_preserves .tatt k s
  | tdet k => exact exec_request_preserves .tdet k s
  | sqry k => exact exec_request_preserves (.sqry none) k s
  | rcfg k => exact exec_request_preserves (.rcfg ⟨0, none, none, none, none, []⟩) k s
  | rreq k => exact exec_request_preserves .rreq k s
  | aenb k => exact exec_request_preserves (.aenb 0) k s
  | aack k => exact exec_request_preserves (.aack []) k s
  | aqry k => exact exec_request_preserves .aqry k s
  | wrst k => exact exec_request_preserves .wrst k s

/-- Settles O3. -/
theorem commandsStayInTheirBlocks : Obligations.CommandsStayInTheirBlocks := by
  intro c s
  obtain ⟨t, hexec, hkeeps⟩ := exec_preserves c s
  exact ⟨t, hexec, hkeeps.changes⟩

/-- A command that is known to end in `t` changes only its pieces. -/
theorem changesOnly_of_exec {c : Instr} {s t : State} (h : exec c s = .next t) : ChangesOnly (touches c) s t := by
  obtain ⟨u, hexec, hchanges⟩ := commandsStayInTheirBlocks c s
  cases h.symm.trans hexec
  exact hchanges

/-! ### Every step -/

/-- A step keeps the laws: it refreshes the chain or runs the front command. -/
theorem step_preserves {s t : State} (h : step s = .next t) : ∃ bs, Preserves bs s t := by
  unfold step at h
  split at h
  · cases h
    unfold idle
    split
    · exact ⟨_, refreshChain_preserves s⟩
    · exact ⟨[], .refl _ s⟩
  · next c rest _ =>
    obtain ⟨u, hexec, hkeeps⟩ := exec_preserves c (setPending s rest)
    cases h.symm.trans hexec
    have hrest : Preserves (.pending :: touches c) s (setPending s rest) :=
      ((setPending_changesOnly (bs := [.pending]) (by decide) s rest).preserves).mono (by simp)
    exact ⟨_, hrest.trans (hkeeps.mono (List.subset_cons_self _ _))⟩

/-- Settles O59: every step is a change that preserves the laws. -/
theorem stepsKeepTheInventoryAndHullLaws : Obligations.StepsKeepTheInventoryAndHullLaws := by
  intro s t h
  obtain ⟨bs, hkeeps⟩ := step_preserves h
  exact ⟨hkeeps.settings, hkeeps.call, hkeeps.gauge, hkeeps.tanks, hkeeps.engine, hkeeps.hull⟩

end Sys2Proof.Machine
end

section
/-! PROOFS. The laws right after reset (R24, R25, R30, R45, R47, R83, R107, R108, R157, R166, R180, R187). -/

namespace Sys2Proof.Machine

/-- Lines, pumps, valves and mains as power-on leaves them (R107). -/
theorem PlantOk.initial {lines : List InputLine} (h : lines.length = 66) : PlantOk (Plant.initial lines) := by
  refine ⟨by rw [Plant.initial, List.length_map, h], List.length_replicate, List.length_replicate, fun x hx => ?_, fun v hv => ?_, ?_, ?_⟩
  · rw [List.eq_of_mem_replicate hx]
    rfl
  · rw [List.eq_of_mem_replicate hv]
    exact ⟨rfl, nofun, fun _ => rfl⟩
  · exact ⟨iff_of_true rfl rfl, Nat.zero_le 2⟩
  · exact ⟨iff_of_true rfl rfl, Nat.zero_le 2⟩

/-- An empty order table keeps its laws (R108). -/
theorem OrdersOk.initial : OrdersOk Orders.initial :=
  ⟨List.length_replicate, List.length_replicate, by decide, fun _ h => nomatch List.eq_of_mem_replicate h⟩

theorem TermOk.initial : TermOk TermLink.initial := ⟨Nat.zero_le 4, Nat.zero_le 4⟩

theorem ReportsOk.initial : ReportsOk Reports.initial := ⟨Nat.zero_le 8, Nat.zero_le 255, Nat.zero_le 255, nofun⟩

theorem arrivalAt_initial (k : Nat) : arrivalAt Port.initial k = none := by
  unfold arrivalAt Port.initial
  rw [List.getElem?_replicate]
  split <;> rfl

/-- A port without a request keeps its laws (R188, R191, R192). -/
theorem PortOk.initial : PortOk Port.initial :=
  ⟨List.length_replicate, fun i _ _ _ _ => arrivalAt_initial i, by decide, nofun⟩

/-- Settles O58. -/
theorem lawsHoldAtReset : Obligations.LawsHoldAtReset :=
  ⟨SettingsOk.default, ⟨iff_of_true rfl rfl, rfl⟩, GaugeOk.initial, TanksOk.initial [], EngineOk.initial, HullOk.initial,
    PlantOk.initial List.length_replicate, OrdersOk.initial, PourOk.initial, TermOk.initial, ReportsOk.initial, AttentionOk.initial,
    PortOk.initial, PortOk.initial, rfl⟩

end Sys2Proof.Machine
end

section
/-! PROOFS. Replies and deliveries (R20, R177, R180, R191; log 43). -/

namespace Sys2Proof.Machine

/-! ### A composed reply -/

/-- A reply leaves its link's receiver and transmitter alone (R191). -/
theorem reply_rx_tx (s : State) (l : Link) (k : Nat) (oc : Oc) (fs : List (Field × Val)) :
    (portOf (reply s l k oc fs) l).rx = (portOf s l).rx ∧ (portOf (reply s l k oc fs) l).tx = (portOf s l).tx := by
  unfold reply
  cases slotAt s l k with
  | none => exact ⟨rfl, rfl⟩
  | some x => simp [place, setPhase]

/-- Settles O4. -/
theorem replyEchoesItsRequest : Obligations.ReplyEchoesItsRequest := by
  refine ⟨fun s l k sl oc fs hslot => ?_, fun r => rfl⟩
  obtain ⟨hrx, htx⟩ := reply_rx_tx s l k oc fs
  refine ⟨?_, ?_, fun j hj => ?_, hrx, htx, (reply_path s l k oc fs).changesOnly⟩
  · rw [queue_reply, hslot]
    rfl
  · simp [slotAt_reply, hslot]
  · rw [slotAt_reply]
    simp [hj]

/-! ### A delivery (R177) -/

/-- The transmitter is free and the link's gap counter lowered by the carried count (R177; log 43). -/
def gapLowered (l : Link) (carried : Nat) (s : State) : State :=
  setReports (freeTx s l) (withGap l (gapOf l s.reports - carried) s.reports)

theorem deliver_rprt {l : Link} {s : State} {x : Report} {carried : Nat} {w : List Byte}
    (htx : (portOf s l).tx = some { frame := .rprt x carried, wire := w }) :
    deliver l s = closingCheck (deliverQueued l (gapLowered l carried s)) := by
  unfold deliver
  rw [htx]
  cases l <;> rfl

theorem deliverQueued_none {l : Link} {s : State} (h : s.reports.queue.find? (isSending l) = none) : deliverQueued l s = s := by
  unfold deliverQueued
  rw [h]

/-- A record with both flags clear leaves the queue (R177). -/
theorem deliverQueued_done {l : Link} {s : State} {q : Report} (h : s.reports.queue.find? (isSending l) = some q)
    (hdone : (withLinkFlag l .clear q).consoleFlag = .clear ∧ (withLinkFlag l .clear q).terminalFlag = .clear) :
    deliverQueued l s = recordLeft (setReports s { s.reports with
      queue := (s.reports.queue.map fun y => if isSending l y then withLinkFlag l .clear y else y).filter fun y => y.serial != q.serial })
      q.serial := by
  unfold deliverQueued
  rw [h]
  simp [hdone.1, hdone.2]

/-- A record with one flag left stays queued (R177). -/
theorem deliverQueued_kept {l : Link} {s : State} {q : Report} (h : s.reports.queue.find? (isSending l) = some q)
    (hkept : ¬((withLinkFlag l .clear q).consoleFlag = .clear ∧ (withLinkFlag l .clear q).terminalFlag = .clear)) :
    deliverQueued l s = setReports s { s.reports with
      queue := s.reports.queue.map fun y => if isSending l y then withLinkFlag l .clear y else y } := by
  unfold deliverQueued
  rw [h]
  simp only [Bool.and_eq_true, decide_eq_true_eq, if_neg hkept]

theorem closingCheck_of_not_closing {s : State} (h : s.call ≠ .closing) : closingCheck s = s := by simp [closingCheck, h]

/-- The call ends when the DEPARTURE record has left the queue (R20). -/
theorem closingCheck_of_none {s : State} (h : s.call = .closing) (hq : s.reports.queue = []) :
    closingCheck s = stopScanning (setCall s .idle) := by simp [closingCheck, h, hq]

/-- The DEPARTURE record, delivered on the console link with the terminal DETACHED, is removed and the call ends (R20). -/
theorem closingCheck_of_detached {s : State} {q : Report} (h : s.call = .closing) (hq : s.reports.queue = [q]) (hkind : q.kind = .departure)
    (hflag : q.consoleFlag = .clear) (hstate : s.term.state = .detached) :
    closingCheck s = stopScanning (setCall (setReports s { s.reports with queue := [] }) .idle) := by
  simp [closingCheck, h, hq, isDeparture, hkind, hflag, hstate]

/-- While the DEPARTURE record waits the call stays CLOSING (R20). -/
theorem closingCheck_of_waiting {s : State} {q : Report} (h : s.call = .closing) (hq : s.reports.queue = [q]) (hkind : q.kind = .departure)
    (hwaits : ¬(q.consoleFlag = .clear ∧ s.term.state = .detached)) : closingCheck s = s := by
  simp [closingCheck, h, hq, isDeparture, hkind, hwaits]

/-! #### What is left of the state by a delivery -/

theorem gapLowered_eq (l : Link) (carried : Nat) (s : State) :
    gapLowered l carried s
      = setPort { s with reports := withGap l (gapOf l s.reports - carried) s.reports } l { portOf s l with tx := none } := by
  cases l <;> rfl

theorem gapLowered_queue (l : Link) (carried : Nat) (s : State) : (gapLowered l carried s).reports.queue = s.reports.queue := by cases l <;> rfl

theorem gapLowered_call (l : Link) (carried : Nat) (s : State) : (gapLowered l carried s).call = s.call := by cases l <;> rfl

/-- The state after a delivery with the report queue that it leaves (R177). -/
def delivered (l : Link) (carried : Nat) (queue : List Report) (s : State) : State :=
  setPort { s with reports := { withGap l (gapOf l s.reports - carried) s.reports with queue := queue } } l { portOf s l with tx := none }

theorem setReports_gapLowered (l : Link) (carried : Nat) (queue : List Report) (s : State) :
    setReports (gapLowered l carried s) { (gapLowered l carried s).reports with queue := queue } = delivered l carried queue s := by
  cases l <;> rfl

theorem delivered_call (l : Link) (carried : Nat) (queue : List Report) (s : State) : (delivered l carried queue s).call = s.call := by
  cases l <;> rfl

theorem delivered_queue (l : Link) (carried : Nat) (queue : List Report) (s : State) :
    (delivered l carried queue s).reports.queue = queue := by cases l <;> rfl

theorem delivered_gap (l : Link) (carried : Nat) (queue : List Report) (s : State) :
    gapOf l (delivered l carried queue s).reports = gapOf l s.reports - carried := by cases l <;> rfl

theorem delivered_port (l : Link) (carried : Nat) (queue : List Report) (s : State) :
    portOf (delivered l carried queue s) l = { portOf s l with tx := none } := by cases l <;> rfl

theorem delivered_term (l : Link) (carried : Nat) (queue : List Report) (s : State) : (delivered l carried queue s).term = s.term := by
  cases l <;> rfl

theorem delivered_changesOnly (l : Link) (carried : Nat) (queue : List Report) (s : State) :
    ChangesOnly [portBlock l, .reports] s (delivered l carried queue s) :=
  (setReports_changesOnly (by simp) s _).trans (setPort_changesOnly (by simp) _ _)

/-- The queue with the link's flag of the record being sent clear. -/
def clearedQueue (l : Link) (s : State) : List Report :=
  s.reports.queue.map fun y => if isSending l y then withLinkFlag l .clear y else y

/-- A record that leaves: the pour gate is told its serial, and rechecks a WAITING step (R141, R145). -/
theorem recordLeft_keeps (s : State) (serial : Nat) {b : Block} (hpour : b ≠ .pour) (hengine : b ≠ .engine) :
    b.kept s (recordLeft s serial) :=
  (recordLeft_path s serial).changesOnly b (by simp [hpour, hengine])

theorem portOf_recordLeft (s : State) (serial : Nat) (l : Link) : portOf (recordLeft s serial) l = portOf s l := by
  cases l
  · exact recordLeft_keeps s serial (b := .console) (by decide) (by decide)
  · exact recordLeft_keeps s serial (b := .terminal) (by decide) (by decide)

section Rprt

variable {l : Link} {s : State} {x q : Report} {carried : Nat} {w : List Byte}
  (htx : (portOf s l).tx = some { frame := .rprt x carried, wire := w })
include htx

/-- A delivery of a record that is no longer queued lowers the gap counter alone (R180; log 43). -/
theorem deliver_absent (hcheck : closingCheck (gapLowered l carried s) = gapLowered l carried s)
    (hq : s.reports.queue.find? (isSending l) = none) : deliver l s = gapLowered l carried s := by
  rw [deliver_rprt htx, deliverQueued_none (by rw [gapLowered_queue, hq]), hcheck]

theorem deliver_done (hq : s.reports.queue.find? (isSending l) = some q)
    (hdone : (withLinkFlag l .clear q).consoleFlag = .clear ∧ (withLinkFlag l .clear q).terminalFlag = .clear) :
    deliver l s
      = closingCheck (recordLeft (delivered l carried ((clearedQueue l s).filter fun y => y.serial != q.serial) s) q.serial) := by
  rw [deliver_rprt htx, deliverQueued_done (by rw [gapLowered_queue, hq]) hdone, setReports_gapLowered, gapLowered_queue, clearedQueue]

theorem deliver_kept (hq : s.reports.queue.find? (isSending l) = some q)
    (hkept : ¬((withLinkFlag l .clear q).consoleFlag = .clear ∧ (withLinkFlag l .clear q).terminalFlag = .clear)) :
    deliver l s = closingCheck (delivered l carried (clearedQueue l s) s) := by
  rw [deliver_rprt htx, deliverQueued_kept (by rw [gapLowered_queue, hq]) hkept, setReports_gapLowered, gapLowered_queue, clearedQueue]

end Rprt

/-- The pour gate is told the serial of a record that a delivery removes (R141, R145, R177). -/
theorem recordLeft_delivered (l : Link) (carried : Nat) (queue : List Report) (s : State) (serial : Nat) :
    let left := delivered l carried queue s
    recordLeft left serial
      = recheck (if s.pour.outstanding = some serial then { left with pour := { left.pour with outstanding := none } } else left) := by
  cases l <;> rfl

/-- What is left where a delivery removes a record (R141, R145, R177). -/
theorem recordLeft_delivered_spec (l : Link) (s : State) (carried : Nat) (queue : List Report) (serial : Nat) :
    let t := recordLeft (delivered l carried queue s) serial
    ChangesOnly [portBlock l, .reports, .pour, .engine] s t ∧ portOf t l = { portOf s l with tx := none }
      ∧ gapOf l t.reports = gapOf l s.reports - carried ∧ t.reports.queue = queue ∧ t.call = s.call ∧ t.gauge = s.gauge := by
  intro t
  have hreports : t.reports = (delivered l carried queue s).reports := recordLeft_keeps _ serial (b := .reports) (by decide) (by decide)
  have hcall : t.call = (delivered l carried queue s).call := recordLeft_keeps _ serial (b := .call) (by decide) (by decide)
  have hgauge : t.gauge = (delivered l carried queue s).gauge := recordLeft_keeps _ serial (b := .gauge) (by decide) (by decide)
  refine ⟨?_, ?_, ?_, ?_, ?_, ?_⟩
  · exact ((delivered_changesOnly l carried queue s).mono (by simp)).trans ((recordLeft_path _ serial).changesOnly.mono (by simp))
  · rw [portOf_recordLeft, delivered_port]
  · rw [hreports, delivered_gap]
  · rw [hreports, delivered_queue]
  · rw [hcall, delivered_call]
  · rw [hgauge]
    cases l <;> rfl

theorem withLinkFlag_serial (l : Link) (f : LinkFlag) (r : Report) : (withLinkFlag l f r).serial = r.serial := by cases l <;> rfl

theorem withLinkFlag_kind (l : Link) (f : LinkFlag) (r : Report) : (withLinkFlag l f r).kind = r.kind := by cases l <;> rfl

/-- Settles O15. -/
theorem deliveriesClearTheRecord : Obligations.DeliveriesClearTheRecord := by
  refine ⟨?_, ?_, ?_⟩
  · intro l s x q carried w hpower hcall htx hq
    refine ⟨deliver l s, event_powered hpower _, ?_⟩
    by_cases hdone : (withLinkFlag l .clear q).consoleFlag = .clear ∧ (withLinkFlag l .clear q).terminalFlag = .clear
    · obtain ⟨hchanges, hport, hgap, hqueue, hkeptCall, -⟩ :=
        recordLeft_delivered_spec l s carried ((clearedQueue l s).filter fun y => y.serial != q.serial) q.serial
      rw [deliver_done htx hq hdone, closingCheck_of_not_closing (by rw [hkeptCall]; exact hcall)]
      refine ⟨hchanges, hport, hgap, fun _ => ⟨hqueue, recordLeft_delivered ..⟩, fun h => absurd hdone h⟩
    · rw [deliver_kept htx hq hdone, closingCheck_of_not_closing (by rw [delivered_call]; exact hcall)]
      exact ⟨(delivered_changesOnly l carried _ s).mono (by simp), delivered_port .., delivered_gap .., fun h => absurd h hdone, fun _ => rfl⟩
  · intro l s x carried w hpower hcall htx hq
    refine (event_powered hpower _).trans (congrArg _ ?_)
    rw [deliver_absent htx (closingCheck_of_not_closing (by rw [gapLowered_call]; exact hcall)) hq, gapLowered_eq]
  · intro l s x q carried w hpower hcall htx hqueue hkind q' lowered
    have hcallOf : ∀ queue, (delivered l carried queue s).call = .closing := fun queue => by rw [delivered_call, hcall]
    refine ⟨fun hsending => ?_, fun hsending hwaits => ?_⟩
    · have hq : s.reports.queue.find? (isSending l) = some q := by simp [hqueue, hsending]
      have hcleared : clearedQueue l s = [q'] := by simp [clearedQueue, hqueue, hsending, q']
      have hkind' : q'.kind = .departure := by rw [withLinkFlag_kind, hkind]
      refine ⟨fun hconsole hterminal => ?_, fun hconsole hterminal hstate => ?_, fun hwaits => ?_⟩
      · obtain ⟨-, -, -, hleft, hkeptCall, hgauge⟩ := recordLeft_delivered_spec l s carried [] q.serial
        have hgone : (clearedQueue l s).filter (fun y => y.serial != q.serial) = [] := by
          simp [hcleared, q', withLinkFlag_serial]
        have hdeliver : deliver l s = stopScanning (setCall (recordLeft (delivered l carried [] s) q.serial) .idle) := by
          rw [deliver_done htx hq ⟨hconsole, hterminal⟩, hgone, closingCheck_of_none (by rw [hkeptCall, hcall]) hleft]
        refine ⟨deliver l s, event_powered hpower _, ?_⟩
        rw [hdeliver]
        refine ⟨rfl, hleft, ?_, ?_⟩
        · exact congrArg (fun g : Gauge => { g with timer := none, round := none }) hgauge
        · rw [stopScanning, show (setCall (recordLeft (delivered l carried [] s) q.serial) .idle).gauge = s.gauge from hgauge,
            recordLeft_delivered]
          rfl
      · refine (event_powered hpower _).trans (congrArg _ ?_)
        rw [deliver_kept htx hq fun h => hterminal h.2, hcleared,
          closingCheck_of_detached (hcallOf _) (delivered_queue ..) hkind' hconsole (by rw [delivered_term, hstate])]
        cases l <;> rfl
      · refine (event_powered hpower _).trans (congrArg _ ?_)
        have hkept : ¬(q'.consoleFlag = .clear ∧ q'.terminalFlag = .clear) := fun h => hwaits ⟨h.1, .inl h.2⟩
        rw [deliver_kept htx hq hkept, hcleared, closingCheck_of_waiting (hcallOf _) (delivered_queue ..) hkind'
          (by rw [delivered_term]; exact fun h => hwaits ⟨h.1, .inr h.2⟩)]
        rfl
    · refine (event_powered hpower _).trans (congrArg _ ?_)
      have hcheck : closingCheck (gapLowered l carried s) = gapLowered l carried s :=
        closingCheck_of_waiting (q := q) (by rw [gapLowered_call, hcall]) (by rw [gapLowered_queue, hqueue]) hkind
          (by rw [gapLowered_eq]; cases l <;> exact hwaits)
      rw [deliver_absent htx hcheck (by simp [hqueue, hsending]), gapLowered_eq]

end Sys2Proof.Machine
end

section
/-! PROOFS. The latch, the choice of the engine, and COPN (R18, R51, R53, R69, R71). -/

namespace Sys2Proof.Machine

/-! ### The latch -/

theorem massClamped_iff {x : Int} : massClamped x = true ↔ x < 0 ∨ 2000000 < x := by
  have hmax : (Config.massMax : Int) = 2000000 := rfl
  simp only [massClamped, within, hmax, Bool.not_eq_true', Bool.and_eq_false_iff, decide_eq_false_iff_not, not_le]

theorem latch_mass (s : State) (p : Profile) {c : Nat} (h : c < 33) : (latch s p).mass[c]? = some (clampMass (compartment s p c).1) := by
  simp [latch, h]

theorem latch_allowance (s : State) (p : Profile) {c : Nat} (h : c < 33) : (latch s p).allowance[c]? = some (compartment s p c).2 := by
  simp [latch, h]

theorem latch_saturated (s : State) (p : Profile) : (latch s p).saturated = true ↔ ∃ c, c < 33 ∧ 2000000 < (compartment s p c).1 := by
  simp only [latch, upTo_eq_range, List.any_eq_true, List.mem_range, massClamped_iff]
  refine exists_congr fun c => and_congr_right fun _ => ?_
  omega

/-- The latch reads tables, plan, settings and uptime (R51, R52). -/
theorem latch_congr {s t : State} (htanks : t.tanks = s.tanks) (hpour : t.pour = s.pour) (hsettings : t.settings = s.settings)
    (hclocks : t.clocks = s.clocks) (p : Profile) : latch t p = latch s p := by
  simp only [latch, compartment, holdAllowance, currentStep, now, htanks, hpour, hsettings, hclocks]

theorem overrideAll_concat (i : Inputs) (os : List (Nat × Int)) (o : Nat × Int) :
    overrideAll i (os ++ [o]) = override (overrideAll i os) o := by simp [overrideAll]

theorem overrideAll_allowance (i : Inputs) (os : List (Nat × Int)) : (overrideAll i os).allowance = i.allowance := by
  induction os using List.reverseRecOn with
  | nil => rfl
  | append_singleton os o ih => rw [overrideAll_concat, override, ih]

/-! ### The choice -/

theorem markLive_of_callOn {s : State} (h : callOn s = true) (m : Bool) :
    markLive s m = setEngine s { s.engine with pendingLive := true, reportMark := s.engine.reportMark || m } := by simp [markLive, h]

theorem markLive_of_not_callOn {s : State} (h : callOn s = false) (m : Bool) : markLive s m = s := by simp [markLive, h]

theorem callOn_iff {s : State} : callOn s = true ↔ s.call = .inCall ∨ s.call = .closing := by simp [callOn]

/-- A busy engine does not choose (R71). -/
theorem choose_busy {s : State} (h : s.engine.running ≠ none) : choose s = s := by
  unfold choose
  cases hr : s.engine.running with
  | none => exact absurd hr h
  | some x => rfl

section Idle

variable {s : State} {p : Profile} (hidle : s.engine.running = none) (hprofile : profileOf s = some p)
include hidle hprofile

theorem choose_nothing (hlive : s.engine.pendingLive = false) (hqueue : s.engine.previews = []) : choose s = s := by
  simp [choose, hidle, hprofile, hlive, hqueue]

theorem choose_live (hlive : s.engine.pendingLive = true) (hturn : s.engine.previews = [] ∨ s.engine.lastKind = .preview) :
    choose s = startLive s p := by
  cases hqueue : s.engine.previews with
  | nil => simp [choose, hidle, hprofile, hlive, hqueue]
  | cons e rest =>
    have hlast : s.engine.lastKind = .preview := hturn.resolve_left (by simp [hqueue])
    simp [choose, hidle, hprofile, hlive, hqueue, hlast]

theorem choose_preview {e : PreviewEntry} {rest : List PreviewEntry} (hqueue : s.engine.previews = e :: rest)
    (hturn : s.engine.pendingLive = false ∨ s.engine.lastKind ≠ .preview) : choose s = startPreview s p e rest := by
  have h : ¬(s.engine.pendingLive = true ∧ s.engine.lastKind = .preview) := fun h => hturn.elim (by simp [h.1]) fun k => k h.2
  simp [choose, hidle, hprofile, hqueue, h]

end Idle

/-- Settles O32. -/
theorem engineLatchesAndChooses : Obligations.EngineLatchesAndChooses := by
  refine ⟨⟨fun s p c hc => ⟨latch_mass s p hc, latch_allowance s p hc⟩, latch_saturated, fun i => rfl, fun i os c m => ?_⟩,
    fun s m hin hclosing => ?_, fun s m h => ?_, fun s => choose_busy, fun s p hidle hvalid => ?_⟩
  · intro j
    rw [overrideAll_concat]
    refine ⟨rfl, overrideAll_allowance i os, ?_⟩
    rw [override, Bool.or_eq_true, massClamped_iff]
  · exact markLive_of_not_callOn (by simp [callOn, hin, hclosing]) m
  · exact markLive_of_callOn (callOn_iff.2 h) m
  · have hprofile := profileOf_of_valid hvalid
    exact ⟨choose_nothing hidle hprofile, fun e rest hlive hqueue => choose_preview hidle hprofile hqueue (.inl hlive),
      fun hlive hqueue => choose_live hidle hprofile hlive (.inl hqueue),
      fun e rest hlive _ hlast => choose_live hidle hprofile hlive (.inr hlast),
      fun e rest _ hqueue hlast => choose_preview hidle hprofile hqueue (.inr hlast)⟩

/-! ### COPN -/

/-- A live request without a report mark leaves the mark as it is (R69). -/
theorem markLive_unmarked {s : State} (h : callOn s = true) : markLive s false = setEngine s { s.engine with pendingLive := true } := by
  rw [markLive_of_callOn h, Bool.or_false]

/-- What a live request makes of the engine in a call, while it runs or where nothing else waits (R69, R71). -/
theorem liveRequest_engine_busy {s : State} (hcall : callOn s = true) (h : s.engine.running ≠ none) :
    (liveRequest s false).engine = { s.engine with pendingLive := true } := by
  rw [liveRequest, markLive_unmarked hcall, choose_busy (by exact h)]
  rfl

theorem liveRequest_engine_idle {s : State} {p : Profile} (hcall : callOn s = true) (hidle : s.engine.running = none)
    (hqueue : s.engine.previews = []) (hprofile : profileOf s = some p) :
    (liveRequest s false).engine = { s.engine with
      running := some { kind := .live s.engine.reportMark, inputs := latch s p }, pendingLive := false, reportMark := false } := by
  rw [liveRequest, markLive_unmarked hcall, choose_live (s := setEngine s { s.engine with pendingLive := true }) hidle hprofile rfl
    (.inl hqueue)]
  rfl

/-- The blocks that the opening of a call sets (R18). -/
theorem openCall_spec (s : State) :
    let u := openCall s
    u.call = .inCall ∧ u.reports = { s.reports with counter := some 0, consoleGap := 0, terminalGap := 0 }
      ∧ u.pour = { s.pour with holds := List.replicate 9 Hold.initial, outstanding := none }
      ∧ u.gauge = { s.gauge with timer := some (s.clocks.uptime + s.settings.sc.toNat) } ∧ u.hull = Hull.initial
      ∧ u.engine = s.engine ∧ u.profile = s.profile ∧ u.console = s.console := by
  intro u
  have hreset := fun b hb => (resetHull_path (setGauge (setPour (clearHolds (setReports (setCall s .inCall)
    { s.reports with counter := some 0, consoleGap := 0, terminalGap := 0 }))
    { s.pour with holds := List.replicate 9 Hold.initial, outstanding := none })
    { s.gauge with timer := some (s.clocks.uptime + s.settings.sc.toNat) })).changesOnly b hb
  exact ⟨hreset .call (by decide), hreset .reports (by decide), hreset .pour (by decide), hreset .gauge (by decide), resetHull_hull _,
    hreset .engine (by decide), hreset .profile (by decide), hreset .console (by decide)⟩

/-- Settles O19. -/
theorem copnOpensACall : Obligations.CopnOpensACall := by
  refine ⟨fun k s hasked hcall => ?_, fun k s hasked hcall => ?_⟩
  · refine (exec_asked (r := .copn) hasked).trans (congrArg _ ?_)
    simp [requestEffect, copn, hcall, refuse]
  · have hcopn : copn k s = reply (liveRequest (openCall s) false) .console k .ok [] := by simp [copn, hcall]
    have hexec : exec (.copn k) s = .next (reply (liveRequest (openCall s) false) .console k .ok []) :=
      (exec_asked (r := .copn) hasked).trans (congrArg _ hcopn)
    obtain ⟨ucall, ureports, upour, ugauge, uhull, uengine, uprofile, uconsole⟩ := openCall_spec s
    have hlive := (liveRequest_path (openCall s) false).changesOnly
    have hreply := (reply_path (liveRequest (openCall s) false) .console k .ok []).changesOnly
    have hafter : ChangesOnly [.engine, .console] (openCall s) (reply (liveRequest (openCall s) false) .console k .ok []) :=
      (hlive.mono (by decide)).trans (hreply.mono (by decide))
    have hon : callOn (openCall s) = true := callOn_iff.2 (.inl ucall)
    have tengine := hreply .engine (by decide)
    refine ⟨_, hexec, changesOnly_of_exec hexec, (hafter .call (by decide)).trans ucall, (hafter .reports (by decide)).trans ureports,
      (hafter .pour (by decide)).trans upour, (hafter .gauge (by decide)).trans ugauge, (hafter .hull (by decide)).trans uhull,
      fun hbusy => ?_, fun p hidle hqueue hvalid => ?_, ?_⟩
    · rw [tengine, liveRequest_engine_busy hon (by rw [uengine]; exact hbusy), uengine]
    · have hlatch := latch_congr (hafter .tanks (by decide)) (hafter .pour (by decide)) (hafter .settings (by decide))
        (hafter .clocks (by decide)) p
      rw [tengine, hlatch, liveRequest_engine_idle hon (by rw [uengine]; exact hidle) (by rw [uengine]; exact hqueue)
        (profileOf_of_valid (uprofile.trans hvalid)), uengine]
      exact ⟨rfl, rfl⟩
    · exact reply_port_congr (s := liveRequest (openCall s) false) (t := { s with call := .inCall }) (l := .console)
        ((hlive .console (by decide)).trans uconsole) ((hlive .call (by decide)).trans ucall) k .ok []

end Sys2Proof.Machine
end

section
/-! PROOFS. CLKS and SETP (R23, R25, R26; log 44). -/

namespace Sys2Proof.Machine

/-! ### The call clock -/

theorem natUpTo_natCast {hi n : Nat} (h : n ≤ hi) : natUpTo hi n = some n := by
  have hin : within 0 hi n = true := within_iff.2 ⟨Int.natCast_nonneg n, Int.ofNat_le.2 h⟩
  simp [natUpTo, hin]

theorem natUpTo_eq_none {hi : Nat} {x : Int} (h : x < 0 ∨ (hi : Int) < x) : natUpTo hi x = none := by
  have hout : ¬within 0 hi x = true := by
    rw [within_iff]
    omega
  rw [natUpTo, if_neg hout]

theorem clks_accepted (k : Nat) {n : Nat} (h : n ≤ 2147483647) (s : State) :
    clks k n s = reply (setClocks s { s.clocks with call := some n }) .console k .ok [(.CL, .num n), (.RV, .num s.clocks.uptime)] := by
  have hin : natUpTo Config.callClockMax n = some n := natUpTo_natCast h
  rw [clks, hin]
  rfl

theorem clks_refused (k : Nat) {cl : Int} (h : cl < 0 ∨ 2147483647 < cl) (s : State) : clks k cl s = reply s .console k .range [] := by
  have hout : natUpTo Config.callClockMax cl = none := natUpTo_eq_none h
  rw [clks, hout]
  rfl

/-! ### Values put in force -/

/-- The value that a request puts in force for a setting, of the first field that names it (R26). -/
def givenValue (vs : List (Field × Int)) (f : Field) : Option Int := (vs.find? fun fv => fv.1 = f).map fun fv => clampSetting f fv.2

theorem givenValue_cons_same (f : Field) (v : Int) (vs : List (Field × Int)) : givenValue ((f, v) :: vs) f = some (clampSetting f v) := by
  simp [givenValue]

theorem givenValue_cons_other {f g : Field} (h : g ≠ f) (v : Int) (vs : List (Field × Int)) :
    givenValue ((g, v) :: vs) f = givenValue vs f := by simp [givenValue, h]

theorem givenValue_of_not_named {f : Field} {vs : List (Field × Int)} (h : f ∉ vs.map Prod.fst) : givenValue vs f = none := by
  have hnone : vs.find? (fun fv => fv.1 = f) = none :=
    List.find?_eq_none.2 fun fv hfv e => h (of_decide_eq_true e ▸ List.mem_map_of_mem hfv)
  rw [givenValue, hnone, Option.map_none]

/-- Where no field comes twice, each is put in force as given (R26). -/
theorem givenValue_of_mem {vs : List (Field × Int)} (hnodup : (vs.map Prod.fst).Nodup) {f : Field} {v : Int} (h : (f, v) ∈ vs) :
    givenValue vs f = some (clampSetting f v) := by
  induction vs with
  | nil => cases h
  | cons gw vs ih =>
    obtain ⟨g, w⟩ := gw
    rw [List.map_cons, List.nodup_cons] at hnodup
    rcases List.mem_cons.1 h with heq | htail
    · cases heq
      exact givenValue_cons_same f v vs
    · have hne : g ≠ f := fun e => hnodup.1 (e ▸ List.mem_map.2 ⟨(f, v), htail, rfl⟩)
      rw [givenValue_cons_other hne, ih hnodup.2 htail]

/-- After a request each setting has the value it gives, and the others keep theirs (R26). -/
theorem getSetting_putAll {f : Field} (hf : f ∈ settingFields) {vs : List (Field × Int)} (hnodup : (vs.map Prod.fst).Nodup)
    (hnamed : ∀ fv ∈ vs, fv.1 ∈ settingFields) (x : Settings) : getSetting (putAll x vs) f = (givenValue vs f).getD (getSetting x f) := by
  induction vs generalizing x with
  | nil => rfl
  | cons gw vs ih =>
    obtain ⟨g, w⟩ := gw
    rw [List.map_cons, List.nodup_cons] at hnodup
    have hput : putAll x ((g, w) :: vs) = putAll (putSetting x g (clampSetting g w)) vs := rfl
    rw [hput, ih hnodup.2 (fun fv hfv => hnamed fv (List.mem_cons_of_mem _ hfv)),
      getSetting_putSetting (hnamed _ List.mem_cons_self) hf]
    by_cases hfg : f = g
    · subst hfg
      rw [givenValue_of_not_named hnodup.1, givenValue_cons_same, if_pos rfl]
      rfl
    · rw [givenValue_cons_other (Ne.symm hfg), if_neg hfg]

theorem anyClamped_eq_false {vs : List (Field × Int)} : anyClamped vs = false ↔ ∀ fv ∈ vs, clampSetting fv.1 fv.2 = fv.2 := by
  simp [anyClamped]

/-! ### SETP -/

/-- The settings that shape an evaluation (R26). -/
def shapeChanged (x y : Settings) : Bool := y.dl != x.dl || y.tn != x.tn || y.tx != x.tx

theorem shapeChanged_eq_false {x y : Settings} :
    shapeChanged x y = false ↔ ∀ f, f = .DL ∨ f = .TN ∨ f = .TX → getSetting y f = getSetting x f := by
  simp only [shapeChanged, Bool.or_eq_false_iff, bne_eq_false_iff_eq]
  constructor
  · rintro ⟨⟨hdl, htn⟩, htx⟩ f (rfl | rfl | rfl)
    · exact hdl
    · exact htn
    · exact htx
  · intro h
    exact ⟨⟨h .DL (.inl rfl), h .TN (.inr (.inl rfl))⟩, h .TX (.inr (.inr rfl))⟩

theorem setp_refused (k : Nat) {vs : List (Field × Int)} {s : State}
    (h : getSetting (putAll s.settings vs) .TX ≤ getSetting (putAll s.settings vs) .TN) :
    setp k vs s = reply s .console k .range [] := by
  unfold setp
  exact if_pos h

/-- The state of an accepted SETP before its reply: the settings in force, and a live request where they shape an evaluation (R26). -/
def settingsTaken (vs : List (Field × Int)) (s : State) : State :=
  if shapeChanged s.settings (putAll s.settings vs) then liveRequest (setSettings s (putAll s.settings vs)) false
  else setSettings s (putAll s.settings vs)

theorem setp_accepted (k : Nat) {vs : List (Field × Int)} {s : State}
    (h : getSetting (putAll s.settings vs) .TN < getSetting (putAll s.settings vs) .TX) :
    setp k vs s = reply (settingsTaken vs s) .console k (if anyClamped vs then .clamped else .ok)
      (vs.map fun fv => (fv.1, .num (getSetting (putAll s.settings vs) fv.1))) := by
  unfold setp
  exact if_neg (not_le.2 h)

theorem settingsTaken_path (vs : List (Field × Int)) (s : State) :
    Path [.engine] (setSettings s (putAll s.settings vs)) (settingsTaken vs s) := by
  unfold settingsTaken
  split
  · exact liveRequest_path _ false
  · exact .refl _

/-- SETP in force: the values given, a live request where the shape has changed, and the reply (R26). -/
theorem setp_accepted_spec (k : Nat) {vs : List (Field × Int)} {s : State} (hnodup : (vs.map Prod.fst).Nodup)
    (hwindow : getSetting (putAll s.settings vs) .TN < getSetting (putAll s.settings vs) .TX)
    (hnamed : ∀ fv ∈ vs, fv.1 ∈ settingFields) :
    let t := setp k vs s
    t.settings = putAll s.settings vs
      ∧ (shapeChanged s.settings t.settings = false → t.engine = s.engine)
      ∧ (shapeChanged s.settings t.settings = true → t.engine = (liveRequest { s with settings := t.settings } false).engine)
      ∧ Replied s t .console k (if anyClamped vs then .clamped else .ok) (vs.map fun fv => (fv.1, .num (clampSetting fv.1 fv.2))) := by
  intro t
  have ht : t = _ := setp_accepted k hwindow
  have htaken := (settingsTaken_path vs s).changesOnly
  have hreply : ChangesOnly [.console] (settingsTaken vs s) t := by
    rw [ht]
    exact (reply_path _ .console k _ _).changesOnly
  have hsettings : t.settings = putAll s.settings vs := (hreply .settings (by decide)).trans (htaken .settings (by decide))
  have hvalues : vs.map (fun fv => (fv.1, Val.num (getSetting (putAll s.settings vs) fv.1)))
      = vs.map fun fv => (fv.1, .num (clampSetting fv.1 fv.2)) := by
    refine List.map_congr_left fun fv hfv => ?_
    rw [getSetting_putAll (hnamed fv hfv) hnodup hnamed, givenValue_of_mem hnodup (v := fv.2) hfv]
    rfl
  refine ⟨hsettings, fun hshape => ?_, fun hshape => ?_, ?_⟩
  · rw [hreply .engine (by decide), settingsTaken, ← hsettings, hshape]
    rfl
  · rw [hreply .engine (by decide), settingsTaken, ← hsettings, hshape]
    rfl
  · unfold Replied
    rw [ht, hvalues]
    exact reply_port_congr (t := s) (l := .console) (htaken .console (by decide)) (htaken .call (by decide)) k _ _

/-- Settles O21. -/
theorem clockAndSettingsAreSet : Obligations.ClockAndSettingsAreSet := by
  refine ⟨⟨fun k n s hasked hn => ?_, fun k cl s hasked hcl => ?_⟩, fun k s vs hasked hnodup hnamed => ?_⟩
  · exact (exec_asked (r := .clks n) hasked).trans (congrArg _ (clks_accepted k hn s))
  · exact (exec_asked (r := .clks cl) hasked).trans (congrArg _ (clks_refused k hcl s))
  · intro clamp inForce
    have hforce : ∀ f ∈ settingFields, getSetting (putAll s.settings vs) f = inForce f := fun f hf =>
      getSetting_putAll hf hnodup hnamed s.settings
    have htn := hforce .TN (by decide)
    have htx := hforce .TX (by decide)
    have hshape : shapeChanged s.settings (putAll s.settings vs) = false
        ↔ ∀ f, f = .DL ∨ f = .TN ∨ f = .TX → inForce f = getSetting s.settings f := by
      rw [shapeChanged_eq_false]
      refine forall_congr' fun f => forall_congr' fun hf => ?_
      have hmem : f ∈ settingFields := by rcases hf with rfl | rfl | rfl <;> decide
      rw [hforce f hmem]
    have hexec : exec (.setp k) s = .next (setp k vs s) := exec_asked (r := .setp vs) hasked
    refine ⟨fun hwindow => ?_, fun hwindow => ⟨_, hexec, changesOnly_of_exec hexec, ?_⟩⟩
    · rw [hexec, setp_refused k (by rw [htn, htx]; exact hwindow)]
    · obtain ⟨hsettings, hsame, hlive, hreplied⟩ := setp_accepted_spec k hnodup (by rw [htn, htx]; exact hwindow) hnamed
      rw [hsettings] at hsame hlive
      rw [hsettings]
      refine ⟨hforce, fun h => hsame (hshape.2 h), fun h => hlive ?_, ?_⟩
      · rw [← Bool.not_eq_false, hshape]
        exact h
      · have houtcome : (if anyClamped vs then Oc.clamped else .ok) = if ∀ fv ∈ vs, clamp fv.1 fv.2 = fv.2 then .ok else .clamped := by
          by_cases h : ∀ fv ∈ vs, clamp fv.1 fv.2 = fv.2
          · rw [if_pos h, anyClamped_eq_false.2 h]
            rfl
          · rw [if_neg h, if_pos]
            rw [← Bool.not_eq_false, anyClamped_eq_false]
            exact h
        rw [← houtcome]
        exact hreplied

end Sys2Proof.Machine
end

section
/-! PROOFS. GCAL and TMAP: the notices they send, the restarted round and the reply (R28, R29, R31, R33, R34, R123, R127; log 12, 14, 18). -/

namespace Sys2Proof.Machine

/-! ### Changes of one tank record -/

theorem modAt_congr_at {α : Type} {xs : List α} {i : Nat} {f g : α → α} (h : ∀ x, xs[i]? = some x → f x = g x) :
    modAt xs i f = modAt xs i g := by
  induction xs generalizing i with
  | nil => rfl
  | cons x xs ih =>
    cases i with
    | zero => exact congrArg (· :: xs) (h x rfl)
    | succ i => exact congrArg (x :: ·) (ih h)

/-- What a change of one entry keeps of every entry, it keeps of the table. -/
theorem map_modAt {α β : Type} {g : α → β} {f : α → α} (h : ∀ x, g (f x) = g x) (xs : List α) (i : Nat) :
    (modAt xs i f).map g = xs.map g := by
  induction xs generalizing i with
  | nil => rfl
  | cons x xs ih =>
    cases i with
    | zero => simp [modAt, h]
    | succ i => simp [modAt, ih]

theorem mappedChannels_congr {ts us : List Tank} (h : us.map Tank.channel = ts.map Tank.channel) : mappedChannels us = mappedChannels ts := by
  have hany : ∀ (vs : List Tank) (c : Nat), (vs.any fun t => t.channel = some c) = (vs.map Tank.channel).any fun x => x = some c :=
    fun vs c => by rw [List.any_map]; rfl
  unfold mappedChannels
  simp only [hany, h]

theorem levelOf_congr {s u : State} (h : u.tanks.map Tank.level = s.tanks.map Tank.level) (t : Nat) : levelOf u t = levelOf s t := by
  rw [levelOf, levelOf, tankRec, tankRec, ← List.getElem?_map, ← List.getElem?_map, h]

/-- A record with its ring emptied; the source of a NORMAL or SUSPECT tank becomes FROZEN (R35). -/
def emptied (x : Tank) : Tank :=
  { x with ring := [], source := if x.gauge = .normal ∨ x.gauge = .suspect then .frozen else x.source }

theorem emptyRing_eq : emptyRing = emptied := by
  funext x
  simp [emptyRing, emptied, gaugeInUse]

theorem remap_level (c : Option Nat) (x : Tank) : (remap c x).level = x.level := by
  unfold remap
  split <;> rfl

theorem remap_channel (c : Option Nat) {x : Tank} (h : TankOk x) : (remap c x).channel = c := by
  obtain ⟨-, -, -, hchannel, -⟩ := h
  cases c with
  | some n => cases hg : x.gauge <;> simp [remap, hg]
  | none =>
    cases hg : x.gauge
    case unmapped => simpa [remap, hg] using hchannel.2 hg
    all_goals simp [remap, hg]

/-! ### The notice -/

/-- The orders after a gauge-change notice for a tank: the stall windows of the ACTIVE orders that need it are restarted (R123). -/
def windowsRestarted (s : State) (i : Nat) : Orders :=
  { s.orders with slots := s.orders.slots.map fun z => z.map fun o =>
      if o.state = .active ∧ (o.tank = i ∨ o.dest = some i) then { o with stall := some (freshStall s o) } else o }

theorem windowsRestarted_congr {s u : State} (horders : u.orders = s.orders) (hclocks : u.clocks = s.clocks) (hsettings : u.settings = s.settings)
    (hlevels : u.tanks.map Tank.level = s.tanks.map Tank.level) (i : Nat) : windowsRestarted u i = windowsRestarted s i := by
  have hstall : freshStall u = freshStall s := by
    funext o
    simp only [freshStall, expiryAfter, now, hclocks, hsettings, levelOf_congr hlevels]
  rw [windowsRestarted, windowsRestarted, horders, hstall]

/-- A tank record changed with its level kept, and the gauge-change notice for it (R31, R33, R123). -/
theorem gaugeChange_modTank {s : State} (h : OrdersOk s.orders) (i : Nat) {f : Tank → Tank} (hf : ∀ x, (f x).level = x.level) :
    gaugeChange (modTank s i f) i = { s with tanks := modAt s.tanks i f, orders := windowsRestarted s i } := by
  rw [gaugeChange_eq (s := modTank s i f) h]
  have hsame : windowsRestarted (modTank s i f) i = windowsRestarted s i :=
    windowsRestarted_congr (s := s) (u := modTank s i f) rfl rfl rfl (map_modAt hf s.tanks i) i
  exact congrArg (fun x => { s with tanks := modAt s.tanks i f, orders := x }) hsame

/-! ### The restarted round and the live request -/

theorem endRound_gauge (s : State) : (endRound s).gauge = { s.gauge with round := none } := by
  have hpath : Path [.pour, .engine] s (recheck (choose (recomputeEstimate (markLive s false)))) :=
    ((((markLive_path s false).mono (by decide)).trans (recomputeEstimate_path _)).trans ((choose_path _).mono (by decide))).trans
      (recheck_path _)
  exact congrArg (fun g : Gauge => { g with round := none }) (hpath.changesOnly .gauge (by decide))

/-- A running round is aborted and started again over the mapped channels; an empty one ends at its start (R28, R29). -/
def roundRestarted (round : Option Round) (cs : List Nat) (gauge : Gauge) (s : State) : State :=
  if round = none then s else if cs = [] then endRound s
    else { s with gauge := { gauge with round := some { channels := cs, position := 0 } } }

theorem restartRound_eq (s : State) : restartRound s = roundRestarted s.gauge.round (mappedChannels s.tanks) s.gauge s := by
  unfold restartRound roundRestarted startRound
  cases hround : s.gauge.round with
  | none => rfl
  | some r =>
    cases hchannels : mappedChannels s.tanks with
    | nil => simp
    | cons c cs => rfl

/-- A live request of the scanner waits in a call (R21, R69). -/
def liveRequested (call : CallState) (s : State) : State :=
  if call = .inCall ∨ call = .closing then { s with engine := { s.engine with pendingLive := true } } else s

theorem liveRequest_eq (s : State) : liveRequest s false = choose (liveRequested s.call s) := by
  unfold liveRequest liveRequested
  by_cases h : s.call = .inCall ∨ s.call = .closing
  · rw [if_pos h, markLive_unmarked (callOn_iff.2 h)]
    rfl
  · rw [if_neg h, markLive_of_not_callOn (Bool.eq_false_iff.2 fun hon => h (callOn_iff.1 hon))]

theorem liveRequest_restartRound (s : State) :
    liveRequest (restartRound s) false = choose (liveRequested s.call (roundRestarted s.gauge.round (mappedChannels s.tanks) s.gauge s)) := by
  rw [liveRequest_eq, (restartRound_path s).changesOnly .call (by decide), restartRound_eq]

/-- The end of a request that changes map or calibration: the round restarted, a live request, the arbiter's run (R29, R31, R33; log 14). -/
def changeSettled (s : State) : State := settleArbiter (liveRequest (restartRound s) false)

theorem changeSettled_spec (s : State) :
    let t := changeSettled s
    t.tanks = s.tanks ∧ t.gauge.channels = s.gauge.channels ∧ t.gauge.timer = s.gauge.timer
      ∧ (s.gauge.round = none → t.gauge.round = none)
      ∧ (s.gauge.round ≠ none → mappedChannels s.tanks ≠ [] → t.gauge.round = some { channels := mappedChannels s.tanks, position := 0 }) := by
  intro t
  have hend : ChangesOnly ballastBlocks (restartRound s) t :=
    (((liveRequest_path _ false).mono (by decide)).trans (settleArbiter_path _)).changesOnly
  have hgauge : t.gauge = (restartRound s).gauge := hend .gauge (by decide)
  refine ⟨(hend .tanks (by decide)).trans ((restartRound_path s).changesOnly .tanks (by decide)), ?_⟩
  rw [hgauge, restartRound_eq, roundRestarted]
  by_cases hround : s.gauge.round = none
  · rw [if_pos hround]
    exact ⟨rfl, rfl, id, fun h => absurd hround h⟩
  · rw [if_neg hround]
    by_cases hchannels : mappedChannels s.tanks = []
    · rw [if_pos hchannels, endRound_gauge]
      exact ⟨rfl, rfl, fun h => absurd h hround, fun _ h => absurd hchannels h⟩
    · rw [if_neg hchannels]
      exact ⟨rfl, rfl, fun h => absurd h hround, fun _ _ => rfl⟩

/-- A request that needs a profile is admitted in every call state but NO_PROFILE (R21). -/
theorem whenAdmitted_withProfile {s : State} (h : s.call ≠ .noProfile) (l : Link) (k : Nat) (act : State → State) :
    whenAdmitted withProfile l k s act = act s := by
  have hadmitted : withProfile s.call = true := by simpa [withProfile] using h
  rw [whenAdmitted, if_pos hadmitted]

end Sys2Proof.Machine
end

section
/-! PROOFS. GCAL and TMAP settled (R21, R28 to R35, R123, R127; log 12, 14, 18, 49). -/

namespace Sys2Proof.Machine

/-! ### GCAL -/

theorem gcalTests_refused {gc : Int} {gn ofs : Option Int}
    (h : gc < 0 ∨ 31 < gc ∨ gn = some 0 ∨ ∃ v, ofs = some v ∧ (v < -5000 ∨ 5000 < v)) : gcalTests gc gn ofs = none := by
  unfold gcalTests
  split
  · rfl
  · next ch hchannel =>
    have hnamed : ¬(gc < 0 ∨ ((31 : Nat) : Int) < gc) := fun hout => by
      rw [channelNamed, natUpTo_eq_none hout] at hchannel
      cases hchannel
    split
    · rfl
    · next hgain =>
      obtain ⟨v, rfl, hv⟩ : ∃ v, ofs = some v ∧ (v < -5000 ∨ 5000 < v) := by
        rcases h with hlow | hhigh | hzero | hofs
        · exact absurd (.inl hlow) hnamed
        · exact absurd (.inr hhigh) hnamed
        · exact absurd hzero hgain
        · exact hofs
      have hout : within (-5000) 5000 v = false := by
        rw [← Bool.not_eq_true, within_iff]
        omega
      simp [hout]

theorem gcalTests_accepted {n : Nat} {gn ofs : Option Int} (hn : n ≤ 31) (hgain : gn ≠ some 0)
    (hofs : ∀ v, ofs = some v → -5000 ≤ v ∧ v ≤ 5000) : gcalTests n gn ofs = some n := by
  have hoffset : (ofs.map (within (-5000) 5000)).getD true = true := by
    cases ofs with
    | none => rfl
    | some v => exact within_iff.2 (hofs v rfl)
  simp [gcalTests, channelNamed, natUpTo_natCast hn, hgain, hoffset]

/-- A zero code in its range is taken as given (R30; log 12). -/
theorem zeroCodeOf_of_range {v : Int} (h : 0 ≤ v) (h' : v ≤ 65535) : (zeroCodeOf v : Int) = v := by
  have hin : within 0 65535 v = true := within_iff.2 ⟨h, h'⟩
  simp [zeroCodeOf, natUpTo, hin, h]

theorem gainOf_of_range {v : Int} (h : 1 ≤ v) (h' : v ≤ 65535) : (gainOf v : Int) = v := by
  have hin : within 1 65535 v = true := within_iff.2 ⟨h, h'⟩
  simp [gainOf, natIn, hin]
  omega

/-- A channel with its calibration, and the notice for its tank (R31, R35, R123). -/
def recalibrated (n : Nat) (c : Channel) (s : State) : State :=
  let calibrated : State := { s with gauge := { s.gauge with channels := modAt s.gauge.channels n fun _ => c } }
  match tankOnChannel s.tanks n with
  | some i => { calibrated with tanks := modAt s.tanks i emptied, orders := windowsRestarted s i }
  | none => calibrated

theorem recalibrated_gauge (n : Nat) (c : Channel) (s : State) :
    (recalibrated n c s).gauge = { s.gauge with channels := modAt s.gauge.channels n fun _ => c } := by
  unfold recalibrated
  cases tankOnChannel s.tanks n <;> rfl

theorem recalibrated_call (n : Nat) (c : Channel) (s : State) : (recalibrated n c s).call = s.call := by
  unfold recalibrated
  cases tankOnChannel s.tanks n <;> rfl

theorem recalibrated_mappedChannels (n : Nat) (c : Channel) (s : State) :
    mappedChannels (recalibrated n c s).tanks = mappedChannels s.tanks := by
  unfold recalibrated
  cases tankOnChannel s.tanks n with
  | none => rfl
  | some i => exact mappedChannels_congr (map_modAt (f := emptied) (fun _ => rfl) s.tanks i)

theorem recalibrate_eq {s : State} {n : Nat} {c : Channel} (hc : s.gauge.channels[n]? = some c) (horders : OrdersOk s.orders)
    (z g : Option Nat) (ofs : Option Int) :
    recalibrate n z g ofs s = liveRequest (restartRound (recalibrated n (calibrated z g ofs c) s)) false := by
  have hchannels : modAt s.gauge.channels n (calibrated z g ofs) = modAt s.gauge.channels n fun _ => calibrated z g ofs c :=
    modAt_congr_at fun x hx => by rw [Option.some.inj (hx.symm.trans hc)]
  unfold recalibrate recalibrated
  dsimp only
  rw [hchannels]
  have htanks : (setGauge s { s.gauge with channels := modAt s.gauge.channels n fun _ => calibrated z g ofs c }).tanks = s.tanks := rfl
  rw [htanks]
  cases tankOnChannel s.tanks n with
  | none => rfl
  | some i =>
    dsimp only
    rw [emptyRing_eq, gaugeChange_modTank (f := emptied) (by exact horders) i (fun _ => rfl)]
    rfl

theorem gcal_accepted (k : Nat) {s : State} {n : Nat} {c : Channel} {zc gn ofs : Option Int} (hn : n ≤ 31) (hgain : gn ≠ some 0)
    (hofs : ∀ v, ofs = some v → -5000 ≤ v ∧ v ≤ 5000) (hc : s.gauge.channels[n]? = some c) (horders : OrdersOk s.orders) :
    gcal k n zc gn ofs s
      = reply (changeSettled (recalibrated n (calibrated (zc.map zeroCodeOf) (gn.map gainOf) ofs c) s)) .console k .ok
          (calibrationFields (calibrated (zc.map zeroCodeOf) (gn.map gainOf) ofs c)) := by
  obtain ⟨-, hchannels, -⟩ := changeSettled_spec (recalibrated n (calibrated (zc.map zeroCodeOf) (gn.map gainOf) ofs c) s)
  unfold gcal
  rw [gcalTests_accepted hn hgain hofs]
  dsimp only
  rw [recalibrate_eq hc horders]
  refine congrArg _ ?_
  change ((changeSettled (recalibrated n _ s)).gauge.channels[n]?.map calibrationFields).getD [] = _
  rw [hchannels, recalibrated_gauge, modAt_getElem?_self, hc]
  rfl

/-- Settles O26. -/
theorem gcalSetsACalibration : Obligations.GcalSetsACalibration := by
  intro k s gc zc gn ofs hasked hcall
  have hexec : exec (.gcal k) s = .next (gcal k gc zc gn ofs s) :=
    (exec_asked (r := .gcal gc zc gn ofs) hasked).trans (congrArg _ (whenAdmitted_withProfile hcall .console k _))
  refine ⟨fun hbad => ?_, fun n c hgc hn hc horders hgain hofs => ?_⟩
  · rw [hexec, gcal, gcalTests_refused hbad]
    rfl
  · subst hgc
    rw [gcal_accepted k hn hgain hofs hc horders] at hexec
    generalize hc' : calibrated (zc.map zeroCodeOf) (gn.map gainOf) ofs c = c' at hexec
    obtain ⟨htanks, hchannels, htimer, hnone, hround⟩ := changeSettled_spec (recalibrated n c' s)
    have hreply := (reply_path (changeSettled (recalibrated n c' s)) .console k .ok (calibrationFields c')).changesOnly
    have hgauge := hreply .gauge (by decide)
    have hsettled : changeSettled (recalibrated n c' s)
        = settleArbiter (choose (liveRequested s.call (roundRestarted s.gauge.round (mappedChannels s.tanks) (recalibrated n c' s).gauge
            (recalibrated n c' s)))) := by
      rw [changeSettled, liveRequest_restartRound, recalibrated_call, recalibrated_mappedChannels, recalibrated_gauge]
    rw [recalibrated_gauge] at hchannels htimer hnone hround
    rw [recalibrated_mappedChannels] at hround
    subst hc'
    refine ⟨(zc.map zeroCodeOf).getD c.zeroCode, (gn.map gainOf).getD c.gain, _, hexec, changesOnly_of_exec hexec, ?_, ?_, ?_, ?_,
      (congrArg Gauge.channels hgauge).trans hchannels, (congrArg Gauge.timer hgauge).trans htimer,
      fun h => (congrArg Gauge.round hgauge).trans (hnone h), fun h h' => (congrArg Gauge.round hgauge).trans (hround h h'),
      (hreply .tanks (by decide)).trans htanks, ?_⟩
    · rintro rfl
      rfl
    · rintro v rfl
      exact ⟨zeroCodeOf_le v, zeroCodeOf_of_range⟩
    · rintro rfl
      rfl
    · rintro v rfl
      exact ⟨(gainOf_range v).1, (gainOf_range v).2, gainOf_of_range⟩
    · rw [hsettled]
      rfl

/-! ### TMAP -/

theorem tankNamed_eq_none {s : State} {tk : Int} (h : ∀ i : Nat, tk = i → i ≤ 23 → tankData s i = none ∨ s.tanks[i]? = none) :
    tankNamed s tk = none := by
  by_cases hin : 0 ≤ tk ∧ tk ≤ 23
  · obtain ⟨i, rfl⟩ := Int.eq_ofNat_of_zero_le hin.1
    have hi : i ≤ 23 := Int.ofNat_le.1 hin.2
    rw [tankNamed, natUpTo_natCast hi]
    rcases h i rfl hi with hdata | hrec
    · simp [hdata]
    · simp [tankRec, hrec]
  · rw [tankNamed, natUpTo_eq_none (by omega)]

theorem tankNamed_declared {s : State} {i : Nat} {d : TankData} {x : Tank} (hi : i ≤ 23) (hdata : tankData s i = some d)
    (hrec : s.tanks[i]? = some x) : tankNamed s i = some i := by simp [tankNamed, natUpTo_natCast hi, tankRec, hdata, hrec]

theorem mapChannel_eq_none {gc : Int} (h : gc < 0 ∨ 31 < gc) (h255 : gc ≠ 255) : mapChannel gc = none := by
  rw [mapChannel, if_neg h255, channelNamed, natUpTo_eq_none h]
  rfl

theorem mapChannel_natCast {n : Nat} (h : n ≤ 31) : mapChannel n = some (some n) := by
  rw [mapChannel, if_neg (by omega), channelNamed, natUpTo_natCast h]
  rfl

/-- A tank with its new channel and the notices for it (R33, R34, R123, R127). -/
def remapped (i : Nat) (c : Option Nat) (x : Tank) (s : State) : State :=
  let changed : State := { s with tanks := modAt s.tanks i fun _ => remap c x, orders := windowsRestarted s i }
  if c = none then gaugeLost changed i else changed

theorem remapped_changesOnly (i : Nat) (c : Option Nat) (x : Tank) (s : State) :
    ChangesOnly ballastBlocks { s with tanks := modAt s.tanks i fun _ => remap c x, orders := windowsRestarted s i } (remapped i c x s) := by
  unfold remapped
  split
  · exact (gaugeLost_path _ i).changesOnly
  · exact .refl _ _

theorem changeMap_eq {s : State} {i : Nat} {x : Tank} (hx : s.tanks[i]? = some x) (horders : OrdersOk s.orders) (c : Option Nat) :
    changeMap i c s = liveRequest (restartRound (remapped i c x s)) false := by
  have htanks : modAt s.tanks i (remap c) = modAt s.tanks i fun _ => remap c x :=
    modAt_congr_at fun y hy => by rw [Option.some.inj (hy.symm.trans hx)]
  unfold changeMap remapped
  rw [gaugeChange_modTank horders i (remap_level c), htanks]
  cases c <;> rfl

theorem mapFields_eq {s : State} {i : Nat} {x : Tank} (hx : s.tanks[i]? = some x) {gc : Int} (hgc : channelCode x.channel = gc) :
    mapFields s i = [(.RV, .num gc), (.RV, .num (gaugeCode x.gauge))] := by
  rw [mapFields, tankRec, hx, ← hgc]
  rfl

theorem remap_shape (x : Tank) (n : Nat) :
    (x.gauge = .normal ∨ x.gauge = .suspect →
      remap (some n) x = { x with channel := some n, reinstatement := 0, ring := [], source := .frozen }
      ∧ remap none x = { x with channel := none, gauge := .unmapped, score := 0, reinstatement := 0, ring := [], source := .frozen })
    ∧ (x.gauge = .withdrawn →
      remap (some n) x = { x with channel := some n, score := 255, reinstatement := 0, ring := [] }
      ∧ remap none x = { x with channel := none, gauge := .unmapped, score := 0, reinstatement := 0, ring := [] })
    ∧ (x.gauge = .unmapped →
      remap (some n) x = { x with channel := some n, gauge := .normal, score := 0, reinstatement := 0, ring := [], source := .frozen }) := by
  refine ⟨?_, fun h => ?_, fun h => ?_⟩
  · rintro (h | h) <;> simp [remap, h]
  · simp [remap, h]
  · simp [remap, h]

/-- A channel that no other tank has is no conflict (R33). -/
theorem channel_free {s : State} {i : Nat} {c : Option Nat} (hfree : ∀ n u, c = some n → tankOnChannel s.tanks n = some u → u = i) :
    (c.bind (tankOnChannel s.tanks)).any (fun u => u != i) = false := by
  cases c with
  | none => rfl
  | some n =>
    cases hu : tankOnChannel s.tanks n with
    | none => simp [hu]
    | some u => simp [hu, hfree n u rfl hu]

section Tmap

variable {s : State} {i : Nat} {d : TankData} {x : Tank} {c : Option Nat} {gc : Int} (k : Nat)
  (hi : i ≤ 23) (hdata : tankData s i = some d) (hx : s.tanks[i]? = some x) (hchannel : mapChannel gc = some c)
include hi hdata hx hchannel

theorem tmap_conflict {n u : Nat} (hc : c = some n) (hu : tankOnChannel s.tanks n = some u) (hne : u ≠ i) :
    tmap k i gc s = reply s .console k .conflict [] := by
  simp [tmap, tankNamed_declared hi hdata hx, hchannel, hc, hu, hne, refuse]

variable (hfree : ∀ n u, c = some n → tankOnChannel s.tanks n = some u → u = i)
include hfree

theorem tmap_same (hsame : x.channel = c) : tmap k i gc s = reply s .console k .ok (mapFields s i) := by
  simp [tmap, tankNamed_declared hi hdata hx, hchannel, channel_free hfree, tankRec, hx, hsame]

theorem tmap_changed (hdiffers : x.channel ≠ c) (horders : OrdersOk s.orders) :
    tmap k i gc s = reply (changeSettled (remapped i c x s)) .console k .ok (mapFields (changeSettled (remapped i c x s)) i) := by
  simp [tmap, tankNamed_declared hi hdata hx, hchannel, channel_free hfree, tankRec, hx, hdiffers,
    changeMap_eq hx horders, changeSettled]

end Tmap

/-- Settles O27. -/
theorem tmapChangesTheMap : Obligations.TmapChangesTheMap := by
  refine ⟨fun k s tk gc hasked hcall htanksOk horders => ?_, remap_shape⟩
  have hexec : exec (.tmap k) s = .next (tmap k tk gc s) :=
    (exec_asked (r := .tmap tk gc) hasked).trans (congrArg _ (whenAdmitted_withProfile hcall .console k _))
  refine ⟨fun hnone => ?_, fun hout h255 => ?_, fun i d x c htk hi hdata hx hgc => ?_⟩
  · rw [hexec, tmap, tankNamed_eq_none hnone]
    rfl
  · rw [hexec, tmap, mapChannel_eq_none hout h255]
    cases tankNamed s tk <;> rfl
  · subst htk
    have hchannel : mapChannel gc = some c ∧ channelCode c = gc := by
      rcases hgc with ⟨rfl, rfl⟩ | ⟨n, rfl, rfl, hn⟩
      · exact ⟨rfl, rfl⟩
      · exact ⟨mapChannel_natCast hn, rfl⟩
    obtain ⟨hmap, hcode⟩ := hchannel
    refine ⟨fun ⟨n, u, hc, hu, hne⟩ => ?_, fun hfree => ⟨fun hsame => ?_, fun hdiffers => ?_⟩⟩
    · rw [hexec, tmap_conflict k hi hdata hx hmap hc hu hne]
    · rw [hexec, tmap_same k hi hdata hx hmap hfree hsame, mapFields_eq hx (by rw [hsame, hcode])]
    · rw [tmap_changed k hi hdata hx hmap hfree hdiffers horders] at hexec
      have hnotice := remapped_changesOnly i c x s
      have rtanks : (remapped i c x s).tanks = modAt s.tanks i fun _ => remap c x := hnotice .tanks (by decide)
      have rgauge : (remapped i c x s).gauge = s.gauge := hnotice .gauge (by decide)
      have rcall : (remapped i c x s).call = s.call := hnotice .call (by decide)
      obtain ⟨htanks, hchannels, htimer, hnone, hround⟩ := changeSettled_spec (remapped i c x s)
      have hsettled : changeSettled (remapped i c x s)
          = settleArbiter (choose (liveRequested s.call (roundRestarted s.gauge.round (mappedChannels (modAt s.tanks i fun _ => remap c x))
              s.gauge (remapped i c x s)))) := by
        rw [changeSettled, liveRequest_restartRound, rcall, rtanks, rgauge]
      rw [rgauge] at hchannels htimer hnone hround
      rw [rtanks] at htanks hround
      have hfields : mapFields (changeSettled (remapped i c x s)) i = [(.RV, .num gc), (.RV, .num (gaugeCode (remap c x).gauge))] := by
        refine mapFields_eq ?_ ?_
        · rw [htanks, modAt_getElem?_self, hx]
          rfl
        · rw [remap_channel c (htanksOk x (List.mem_of_getElem? hx)), hcode]
      rw [hfields] at hexec
      have hreply := (reply_path (changeSettled (remapped i c x s)) .console k .ok
        [(.RV, .num gc), (.RV, .num (gaugeCode (remap c x).gauge))]).changesOnly
      have hgauge := hreply .gauge (by decide)
      refine ⟨_, hexec, changesOnly_of_exec hexec, (hreply .tanks (by decide)).trans htanks, (congrArg Gauge.channels hgauge).trans hchannels,
        (congrArg Gauge.timer hgauge).trans htimer, fun h => (congrArg Gauge.round hgauge).trans (hnone h),
        fun h h' => (congrArg Gauge.round hgauge).trans (hround h h'), ?_⟩
      rw [hsettled]
      rfl

end Sys2Proof.Machine
end

section
/-! PROOFS. CEND: the tests, the answers to waiting requests, and the blocks at the call end (R19, R20, R72, R144, R157, R180; log 23, 32, 38, 47). -/

namespace Sys2Proof.Machine

/-! ### The tests -/

theorem terminalState_iff {x : OrderState} : terminalState x = true ↔ x = .done ∨ x = .failed ∨ x = .cancelled := by
  cases x <;> simp [terminalState]

theorem callBusy_iff {s : State} : callBusy s = true ↔
    (∃ o, some o ∈ s.orders.slots ∧ o.state ≠ .done ∧ o.state ≠ .failed ∧ o.state ≠ .cancelled)
      ∨ ∃ st ∈ s.pour.plan, st.state = .pouring ∨ st.state = .halted ∨ st.state = .settling := by
  have hterminal : ∀ o : Order, terminalState o.state = false ↔ o.state ≠ .done ∧ o.state ≠ .failed ∧ o.state ≠ .cancelled := fun o => by
    rw [← Bool.not_eq_true, terminalState_iff, not_or, not_or]
  simp only [callBusy, ordersList, Bool.or_eq_true, List.any_eq_true, List.mem_filterMap, Bool.not_eq_true', decide_eq_true_eq, hterminal,
    exists_eq_right, or_assoc]

theorem cend_refused (k : Nat) {s : State} (h : s.call ≠ .inCall) : cend k s = reply s .console k .state [] := by simp [cend, h, refuse]

theorem cend_busy (k : Nat) {s : State} (h : s.call = .inCall) (hbusy : callBusy s = true) : cend k s = reply s .console k .busy [] := by
  simp [cend, h, hbusy, refuse]

theorem cend_accepted (k : Nat) {s : State} (h : s.call = .inCall) (hbusy : callBusy s = false) :
    cend k s = reply (endCall s) .console k .ok [] := by simp [cend, h, hbusy]

/-! ### Pending SREQs answered -/

/-- Slots of a link refused with STATE one after the other. -/
def refuseAll (l : Link) (ks : List Nat) (s : State) : State := ks.foldl (fun s k => reply s l k .state []) s

theorem slotAt_refuseAll (l : Link) (ks : List Nat) (s : State) (j : Nat) :
    slotAt (refuseAll l ks s) l j = (slotAt s l j).map fun x => { x with phase := if j ∈ ks then .replied else x.phase } := by
  induction ks generalizing s with
  | nil => simp [refuseAll]
  | cons k ks ih =>
    have hstep : refuseAll l (k :: ks) s = refuseAll l ks (reply s l k .state []) := rfl
    rw [hstep, ih, slotAt_reply, Option.map_map]
    congr 1
    funext x
    by_cases hjk : j = k <;> simp [hjk]

/-- The refusals are placed in the order of the list, in the call state in force. -/
theorem queue_refuseAll (l : Link) (ks : List Nat) (s : State) :
    (portOf (refuseAll l ks s) l).queue = (portOf s l).queue ++ ks.filterMap fun j => (slotAt s l j).map (replyTo s.call j .state []) := by
  induction ks generalizing s with
  | nil => simp [refuseAll]
  | cons k ks ih =>
    have hstep : refuseAll l (k :: ks) s = refuseAll l ks (reply s l k .state []) := rfl
    have hcall : (reply s l k .state []).call = s.call := (reply_path s l k .state []).changesOnly .call (by cases l <;> decide)
    have hslot : ∀ j, (slotAt (reply s l k .state []) l j).map (replyTo s.call j .state [])
        = (slotAt s l j).map (replyTo s.call j .state []) := by
      intro j
      rw [slotAt_reply, Option.map_map]
      congr 1
      funext x
      by_cases hjk : j = k <;> simp [hjk, replyTo]
    rw [hstep, ih, queue_reply, hcall, List.filterMap_cons]
    simp only [hslot]
    cases slotAt s l k <;> simp

theorem foldl_answerSreq (sts : List Step) (s : State) : sts.foldl answerSreq s = refuseAll .terminal (sts.filterMap Step.replyPending) s := by
  rw [refuseAll, List.foldl_filterMap]
  congr 1
  funext u st
  unfold answerSreq
  cases st.replyPending <;> rfl

/-! ### The DEPARTURE trigger -/

/-- A port with its slots and its queue as in another. -/
def SameRequests (p q : Port) : Prop := q.slots = p.slots ∧ q.queue = p.queue

theorem unmarkSending_port (l m : Link) (s : State) : SameRequests (portOf s m) (portOf (unmarkSending l s) m) := by
  unfold unmarkSending
  split
  · split
    · cases l <;> cases m <;> exact ⟨rfl, rfl⟩
    · exact ⟨rfl, rfl⟩
  · exact ⟨rfl, rfl⟩

/-- The DEPARTURE trigger marks transmissions alone: slots and queues of the ports stay (R180). -/
theorem triggerDeparture_port (m : Link) (s : State) : SameRequests (portOf s m) (portOf (triggerDeparture s) m) := by
  obtain ⟨hslots, hqueue⟩ := unmarkSending_port .console m s
  obtain ⟨hslots', hqueue'⟩ := unmarkSending_port .terminal m (unmarkSending .console s)
  cases m <;> exact ⟨hslots'.trans hslots, hqueue'.trans hqueue⟩

theorem triggerDeparture_reports {s : State} {n : Nat} (h : s.reports.counter = some n) :
    (triggerDeparture s).reports = { Reports.initial with
      queue := [compose s .departure none (n + 1)], consoleGap := s.reports.consoleGap, terminalGap := s.reports.terminalGap } := by
  have hserial : nextSerial s .departure = some (n + 1) := by simp [nextSerial, h]
  rw [triggerDeparture, hserial]
  rfl

/-! ### The blocks at the call end -/

/-- A hull cause that does not hold leaves an attention unit at its initial values alone (R183). -/
theorem reportCause_initial {n : Nat} (hn : n ∈ [hullAmber, hullRed, tableClamp]) {s : State} (h : s.attention = Attention.initial) :
    reportCause s n false = s := by
  have hsame : causeIn Attention.initial n false = Attention.initial := by fin_cases hn <;> decide
  rw [reportCause, h, hsame, ← h]
  rfl

/-- Without a live result no hull condition has its cause (R80). -/
theorem reportHullCauses_of_none {s : State} (h : s.hull.live = none) :
    reportHullCauses s = reportCause (reportCause (reportCause s hullAmber false) hullRed false) tableClamp false := by
  simp [reportHullCauses, hullBand, reportCause, setAttention, h]

/-- A reset of the hull record finds no cause to withdraw in an attention unit at its initial values (R80, R83). -/
theorem resetHull_of_attention_initial {s : State} (h : s.attention = Attention.initial) : resetHull s = setHull s Hull.initial := by
  have hset : (setHull s Hull.initial).attention = Attention.initial := h
  rw [resetHull, reportHullCauses_of_none rfl, reportCause_initial (by decide) hset, reportCause_initial (by decide) hset,
    reportCause_initial (by decide) hset]

/-- The pour gate and the order engine at the call end, the DEPARTURE record composed (R19, R157; log 23). -/
def callEnding (s : State) : State := setAttention (endOrders (endPour (triggerDeparture (setCall s .closing)))) Attention.initial

/-- Every block at the call end, before the watch over the DEPARTURE record (R19). -/
def callEnded (s : State) : State := endTerminal (setHull (abandonEngine (callEnding s)) Hull.initial)

theorem endCall_eq (s : State) : endCall s = closingCheck (callEnded s) := by
  have hattention : (abandonEngine (callEnding s)).attention = Attention.initial :=
    (abandonEngine_path (callEnding s)).changesOnly .attention (by decide)
  have h := resetHull_of_attention_initial hattention
  exact congrArg (fun u => closingCheck (endTerminal u)) h

/-- The DEPARTURE trigger and the answers to pending SREQs leave the rest of the part to the call end. -/
theorem pourEnded_changesOnly (s : State) :
    ChangesOnly [.reports, .console, .terminal, .pour] (setCall s .closing) (endPour (triggerDeparture (setCall s .closing))) :=
  ((triggerDeparture_path _).andThen (endPour_path _)).changesOnly

/-- Orders, held flags and attention unit cleared; the other blocks stay (R19, R108, R187; log 32). -/
theorem ordersEnded_blocks (s : State) :
    let u := setAttention (endOrders s) Attention.initial
    u.call = s.call ∧ u.pour = s.pour ∧ u.orders = { Orders.initial with rank := s.orders.rank } ∧ u.attention = Attention.initial
      ∧ u.engine = s.engine ∧ u.tanks = s.tanks.map (fun x => { x with held := false }) ∧ u.term = s.term ∧ u.gauge = s.gauge
      ∧ u.reports = s.reports ∧ u.console = s.console ∧ u.terminal = s.terminal :=
  ⟨rfl, rfl, rfl, rfl, rfl, rfl, rfl, rfl, rfl, rfl, rfl⟩

theorem endPour_pour (s : State) : (endPour s).pour = Pour.initial := rfl

/-- Pour gate, orders, tanks and attention unit cleared (R19, R157; log 23, 32). -/
theorem callEnding_blocks (s : State) :
    (callEnding s).call = .closing ∧ (callEnding s).pour = Pour.initial
      ∧ (callEnding s).orders = { Orders.initial with rank := s.orders.rank } ∧ (callEnding s).attention = Attention.initial
      ∧ (callEnding s).engine = s.engine ∧ (callEnding s).tanks = s.tanks.map (fun x => { x with held := false })
      ∧ (callEnding s).term = s.term ∧ (callEnding s).gauge = s.gauge := by
  have hpour := pourEnded_changesOnly s
  have hrank : (endPour (triggerDeparture (setCall s .closing))).orders = s.orders := hpour .orders (by decide)
  have hheld : (endPour (triggerDeparture (setCall s .closing))).tanks = s.tanks := hpour .tanks (by decide)
  obtain ⟨ecall, epour, eorders, eattention, eengine, etanks, eterm, egauge, -⟩ :=
    ordersEnded_blocks (endPour (triggerDeparture (setCall s .closing)))
  rw [hrank] at eorders
  rw [hheld] at etanks
  exact ⟨ecall.trans (hpour .call (by decide)), epour.trans (endPour_pour _), eorders, eattention, eengine.trans (hpour .engine (by decide)),
    etanks, eterm.trans (hpour .term (by decide)), egauge.trans (hpour .gauge (by decide))⟩

/-- Engine, hull record and terminal port cleared; the other blocks stay (R50, R83, R166). -/
theorem engineEnded_blocks (s : State) :
    let u := endTerminal (setHull (abandonEngine s) Hull.initial)
    u.call = s.call ∧ u.pour = s.pour ∧ u.orders = s.orders ∧ u.attention = s.attention ∧ u.engine = Engine.initial
      ∧ u.hull = Hull.initial ∧ u.tanks = s.tanks ∧ u.term = { s.term with quietTimer := none, count := 0 } ∧ u.gauge = s.gauge
      ∧ u.reports = s.reports ∧ u.terminal = s.terminal := by
  have hanswer : ChangesOnly [.console] (setEngine s Engine.initial) (abandonEngine s) := (foldl_answerWithdrawn_path _ _).changesOnly
  exact ⟨hanswer .call (by decide), hanswer .pour (by decide), hanswer .orders (by decide), hanswer .attention (by decide),
    hanswer .engine (by decide), rfl, hanswer .tanks (by decide),
    congrArg (fun x : TermLink => { x with quietTimer := none, count := 0 }) (hanswer .term (by decide)), hanswer .gauge (by decide),
    hanswer .reports (by decide), hanswer .terminal (by decide)⟩

/-- The blocks that the call end sets (R19, R157, R166; log 23, 32). -/
theorem callEnded_blocks (s : State) :
    (callEnded s).call = .closing ∧ (callEnded s).pour = Pour.initial
      ∧ (callEnded s).orders = { Orders.initial with rank := s.orders.rank } ∧ (callEnded s).attention = Attention.initial
      ∧ (callEnded s).engine = Engine.initial ∧ (callEnded s).hull = Hull.initial
      ∧ (callEnded s).tanks = s.tanks.map (fun x => { x with held := false })
      ∧ (callEnded s).term = { s.term with quietTimer := none, count := 0 } ∧ (callEnded s).gauge = s.gauge := by
  obtain ⟨hcall, hpour, horders, hattention, -, htanks, hterm, hgauge⟩ := callEnding_blocks s
  obtain ⟨ecall, epour, eorders, eattention, eengine, ehull, etanks, eterm, egauge, -, -⟩ := engineEnded_blocks (callEnding s)
  rw [hterm] at eterm
  exact ⟨ecall.trans hcall, epour.trans hpour, eorders.trans horders, eattention.trans hattention, eengine, ehull, etanks.trans htanks,
    eterm, egauge.trans hgauge⟩

theorem endPour_eq (s : State) : endPour s = setPour (refuseAll .terminal (s.pour.plan.filterMap Step.replyPending) s) Pour.initial := by
  rw [endPour, foldl_answerSreq]

/-- The DEPARTURE record stands alone in the queue (R19, R180). -/
theorem callEnded_reports {s : State} {n : Nat} (h : s.reports.counter = some n) :
    (callEnded s).reports = { Reports.initial with
      queue := [compose (setCall s .closing) .departure none (n + 1)]
      consoleGap := s.reports.consoleGap
      terminalGap := s.reports.terminalGap } := by
  obtain ⟨-, -, -, -, -, -, -, -, -, hkept, -⟩ := engineEnded_blocks (callEnding s)
  have hpour := (endPour_path (triggerDeparture (setCall s .closing))).changesOnly .reports (by decide)
  obtain ⟨-, -, -, -, -, -, -, -, hreports, -⟩ := ordersEnded_blocks (endPour (triggerDeparture (setCall s .closing)))
  exact hkept.trans (hreports.trans (hpour.trans (triggerDeparture_reports h)))

/-- The terminal's requests at the call end: pending SREQs are answered STATE, in CLOSING (R144, R157). -/
theorem callEnded_terminal (s : State) :
    let pending := s.pour.plan.filterMap Step.replyPending
    (∀ j, slotAt (callEnded s) .terminal j
        = (slotAt s .terminal j).map fun x => { x with phase := if j ∈ pending then .replied else x.phase })
      ∧ (callEnded s).terminal.queue
        = s.terminal.queue ++ pending.filterMap fun j => (slotAt s .terminal j).map (replyTo .closing j .state []) := by
  intro pending
  obtain ⟨hslots, hqueue⟩ := triggerDeparture_port .terminal (setCall s .closing)
  have hslot : ∀ j, slotAt (triggerDeparture (setCall s .closing)) .terminal j = slotAt s .terminal j := fun j =>
    congrArg (fun xs : List (Option Slot) => (xs[j]?).join) hslots
  have hcall : (triggerDeparture (setCall s .closing)).call = .closing := (triggerDeparture_path _).changesOnly .call (by decide)
  have hplan : (triggerDeparture (setCall s .closing)).pour = s.pour := (triggerDeparture_path _).changesOnly .pour (by decide)
  have hport : (callEnded s).terminal = (refuseAll .terminal pending (triggerDeparture (setCall s .closing))).terminal := by
    obtain ⟨-, -, -, -, -, -, -, -, -, -, hkept⟩ := engineEnded_blocks (callEnding s)
    obtain ⟨-, -, -, -, -, -, -, -, -, -, hterminal⟩ := ordersEnded_blocks (endPour (triggerDeparture (setCall s .closing)))
    refine hkept.trans (hterminal.trans ?_)
    rw [endPour_eq, hplan]
    rfl
  refine ⟨fun j => ?_, ?_⟩
  · have hsame : slotAt (callEnded s) .terminal j = slotAt (refuseAll .terminal pending (triggerDeparture (setCall s .closing))) .terminal j :=
      congrArg (fun p : Port => (p.slots[j]?).join) hport
    rw [hsame, slotAt_refuseAll, hslot]
  · have hafter := queue_refuseAll .terminal pending (triggerDeparture (setCall s .closing))
    simp only [hslot, hcall, hqueue] at hafter
    rw [hport]
    exact hafter

/-- The PREVs that run or wait are answered STATE when the engine is cleared (R72; log 38). -/
theorem abandonEngine_console (s : State) :
    let withdrawn := (previewRequesters s.engine).filterMap Requester.consoleSlot
    (∀ j, slotAt (abandonEngine s) .console j
        = (slotAt s .console j).map fun x => { x with phase := if j ∈ withdrawn then .replied else x.phase })
      ∧ (abandonEngine s).console.queue
        = s.console.queue ++ withdrawn.filterMap fun j => (slotAt s .console j).map (replyTo s.call j .state []) :=
  ⟨slotAt_foldl_answerWithdrawn _ (setEngine s Engine.initial), queue_foldl_answerWithdrawn _ (setEngine s Engine.initial)⟩

theorem callEnding_console (s : State) : SameRequests s.console (callEnding s).console := by
  obtain ⟨hslots, hqueue⟩ := triggerDeparture_port .console (setCall s .closing)
  have hpour := (endPour_path (triggerDeparture (setCall s .closing))).changesOnly .console (by decide)
  obtain ⟨-, -, -, -, -, -, -, -, -, hconsole, -⟩ := ordersEnded_blocks (endPour (triggerDeparture (setCall s .closing)))
  have hport := hconsole.trans hpour
  exact ⟨(congrArg Port.slots hport).trans hslots, (congrArg Port.queue hport).trans hqueue⟩

/-- The console's requests at the call end: PREVs that run or wait are answered STATE, in CLOSING (R72; log 38). -/
theorem callEnded_console (s : State) :
    let withdrawn := (previewRequesters s.engine).filterMap Requester.consoleSlot
    (∀ j, slotAt (callEnded s) .console j
        = (slotAt s .console j).map fun x => { x with phase := if j ∈ withdrawn then .replied else x.phase })
      ∧ (callEnded s).console.queue
        = s.console.queue ++ withdrawn.filterMap fun j => (slotAt s .console j).map (replyTo .closing j .state []) := by
  intro withdrawn
  obtain ⟨hslots, hqueue⟩ := callEnding_console s
  obtain ⟨hcall, -, -, -, hengine, -⟩ := callEnding_blocks s
  obtain ⟨aslots, aqueue⟩ := abandonEngine_console (callEnding s)
  have hslot : ∀ j, slotAt (callEnding s) .console j = slotAt s .console j := fun j =>
    congrArg (fun xs : List (Option Slot) => (xs[j]?).join) hslots
  simp only [hslot, hcall, hengine, hqueue] at aslots aqueue
  exact ⟨aslots, aqueue⟩

/-! ### The end of the call -/

theorem consoleFlagOf_eq_clear {r : Route} : consoleFlagOf r = .clear ↔ r = .terminal := by cases r <;> simp [consoleFlagOf]

/-- Where the DEPARTURE record goes to a DETACHED terminal alone, the call ends at once (R20). -/
theorem endCall_detached {s : State} {n : Nat} (hcounter : s.reports.counter = some n)
    (h : s.reports.departureSet.route = .terminal ∧ s.term.state = .detached) :
    endCall s = stopScanning (setCall (setReports (callEnded s) { (callEnded s).reports with queue := [] }) .idle) := by
  obtain ⟨hcall, -, -, -, -, -, -, hterm, -⟩ := callEnded_blocks s
  rw [endCall_eq]
  exact closingCheck_of_detached hcall (by rw [callEnded_reports hcounter]) rfl (consoleFlagOf_eq_clear.2 h.1) (by rw [hterm]; exact h.2)

/-- Elsewhere the DEPARTURE record waits in CLOSING (R20). -/
theorem endCall_closing {s : State} {n : Nat} (hcounter : s.reports.counter = some n)
    (h : ¬(s.reports.departureSet.route = .terminal ∧ s.term.state = .detached)) : endCall s = callEnded s := by
  obtain ⟨hcall, -, -, -, -, -, -, hterm, -⟩ := callEnded_blocks s
  rw [endCall_eq]
  refine closingCheck_of_waiting (q := compose (setCall s .closing) .departure none (n + 1)) hcall (by rw [callEnded_reports hcounter]) rfl ?_
  rw [hterm]
  exact fun hd => h ⟨consoleFlagOf_eq_clear.1 hd.1, hd.2⟩

/-- Settles O20. -/
theorem cendClosesTheCall : Obligations.CendClosesTheCall := by
  refine ⟨fun k s hasked => ?_, fun k n s hasked hcall hcounter horders hplan => ?_⟩
  · have hexec : exec (.cend k) s = .next (cend k s) := exec_asked (r := .cend) hasked
    refine ⟨fun hcall => ?_, fun hcall hbusy => ?_⟩
    · rw [hexec, cend_refused k hcall]
    · rw [hexec, cend_busy k hcall (callBusy_iff.2 hbusy)]
  · have hfree : callBusy s = false := by
      rw [← Bool.not_eq_true, callBusy_iff]
      rintro (⟨o, ho, hdone, hfailed, hcancelled⟩ | ⟨st, hst, hstate⟩)
      · rcases horders o ho with h | h | h
        · exact hdone h
        · exact hfailed h
        · exact hcancelled h
      · obtain ⟨hpouring, hhalted, hsettling⟩ := hplan st hst
        rcases hstate with h | h | h
        · exact hpouring h
        · exact hhalted h
        · exact hsettling h
    have hexec : exec (.cend k) s = .next (reply (endCall s) .console k .ok []) :=
      (exec_asked (r := .cend) hasked).trans (congrArg _ (cend_accepted k hcall hfree))
    have hreply := (reply_path (endCall s) .console k .ok []).changesOnly
    have hcheck : ChangesOnly [.reports, .call, .gauge] (callEnded s) (endCall s) := by
      rw [endCall_eq]
      exact (closingCheck_path _).changesOnly
    have hafter : ChangesOnly [.reports, .call, .gauge, .console] (callEnded s) (reply (endCall s) .console k .ok []) :=
      (hcheck.mono (by decide)).trans (hreply.mono (by decide))
    obtain ⟨ecall, epour, eorders, eattention, eengine, ehull, etanks, eterm, egauge⟩ := callEnded_blocks s
    obtain ⟨tslots, tqueue⟩ := callEnded_terminal s
    obtain ⟨cslots, cqueue⟩ := callEnded_console s
    have hterminal := hafter .terminal (by decide)
    have hconsole : (endCall s).console = (callEnded s).console := hcheck .console (by decide)
    have hslot : ∀ j, slotAt (endCall s) .console j = slotAt (callEnded s) .console j := fun j =>
      congrArg (fun p : Port => (p.slots[j]?).join) hconsole
    refine ⟨_, hexec, changesOnly_of_exec hexec, (hafter .pour (by decide)).trans epour, (hafter .orders (by decide)).trans eorders,
      (hafter .attention (by decide)).trans eattention, (hafter .engine (by decide)).trans eengine, (hafter .hull (by decide)).trans ehull,
      (hafter .tanks (by decide)).trans etanks, (hafter .term (by decide)).trans eterm, ?_, fun hdetached => ?_, fun hwaits => ?_⟩
    · intro requesters withdrawn pending refused
      have hwithdrawn : (previewRequesters s.engine).filterMap Requester.consoleSlot = withdrawn := by
        refine congrArg (fun f => List.filterMap f requesters) ?_
        funext r
        cases r <;> rfl
      rw [hwithdrawn] at cslots cqueue
      refine ⟨fun j x hx => ?_, fun j x hx => ?_, (congrArg Port.queue hterminal).trans tqueue, fun sl hsl => ?_⟩
      · rw [slotAt_reply, hslot, cslots, hx]
        by_cases hjk : j = k <;> simp [hjk]
      · rw [show slotAt _ .terminal j = slotAt (callEnded s) .terminal j from congrArg (fun p : Port => (p.slots[j]?).join) hterminal,
          tslots, hx]
        rfl
      · have hqueue := queue_reply (endCall s) .console k .ok []
        rw [hslot, cslots, hsl, show (portOf (endCall s) .console).queue = _ from (congrArg Port.queue hconsole).trans cqueue,
          ← show (reply (endCall s) .console k .ok []).call = _ from hreply .call (by decide)] at hqueue
        exact hqueue
    · have hend := endCall_detached hcounter hdetached
      have hgauge : (endCall s).gauge = { s.gauge with timer := none, round := none } := by
        rw [hend, ← egauge]
        rfl
      refine ⟨(hreply .call (by decide)).trans (by rw [hend]; rfl), ?_, (hreply .gauge (by decide)).trans hgauge⟩
      rw [show (reply (endCall s) .console k .ok []).reports = _ from hreply .reports (by decide), hend]
      rfl
    · have hend := endCall_closing hcounter hwaits
      refine ⟨(hreply .call (by decide)).trans (by rw [hend, ecall]), (hreply .gauge (by decide)).trans (by rw [hend, egauge]),
        (hreply .reports (by decide)).trans ?_⟩
      rw [hend, callEnded_reports hcounter]
      rfl

end Sys2Proof.Machine
end

section
/-! PROOFS. The link state announced, the quiet timer, the estimate and the gate's frames (R156, R158, R161, R162, R164; log 2, 22, 35). -/

namespace Sys2Proof.Machine

/-! ### An announced change -/

theorem recheck_term (s : State) : (recheck s).term = s.term := (recheck_path s).changesOnly .term (by decide)

theorem linkChanged_up {s : State} (h : s.term.state = .up) : linkChanged s = tryResume (recheck s) := by
  simp [linkChanged, recheck_term, h]

theorem linkChanged_quiet {s : State} (h : s.term.state = .quiet) : linkChanged s = enterEstimate (recheck s) := by
  simp [linkChanged, recheck_term, h]

theorem linkChanged_lost {s : State} (h : s.term.state = .lost) : linkChanged s = halt (recheck s) .link := by
  simp [linkChanged, recheck_term, h]

theorem linkChanged_detached {s : State} (h : s.term.state = .detached) : linkChanged s = recheck s := by
  simp [linkChanged, recheck_term, h]

theorem reply_term (s : State) (l : Link) (k : Nat) (oc : Oc) (fs : List (Field × Val)) : (reply s l k oc fs).term = s.term :=
  (reply_path s l k oc fs).changesOnly .term (by cases l <;> decide)

theorem stepPours_iff {y : Step} : stepPours y = true ↔ y.state = .pouring ∨ y.state = .halted := by simp [stepPours]

theorem anyPours_iff {s : State} :
    (currentStep s).any stepPours = true ↔ ∃ y, currentStep s = some y ∧ (y.state = .pouring ∨ y.state = .halted) := by
  simp only [Option.any_eq_true, stepPours_iff]

/-! ### TATT -/

/-- The kept frames are placed oldest first (R159, step 1). -/
theorem foldl_place_unsolicited (us : List Unsolicited) (s : State) :
    us.foldl (fun s u => place s .terminal (.unsolicited u)) s
      = { s with terminal := { s.terminal with queue := s.terminal.queue ++ us.map .unsolicited } } := by
  induction us generalizing s with
  | nil => simp
  | cons u us ih =>
    have hplace : place s .terminal (.unsolicited u)
        = { s with terminal := { s.terminal with queue := s.terminal.queue ++ [.unsolicited u] } } := rfl
    rw [List.foldl_cons, ih, hplace, List.map_cons]
    simp only [List.append_assoc, List.singleton_append]

theorem sendKept_eq (s : State) : sendKept s = { s with
    terminal := { s.terminal with queue := s.terminal.queue ++ s.term.kept.map .unsolicited }, term := { s.term with kept := [] } } := by
  rw [sendKept, foldl_place_unsolicited]
  rfl

/-- Re-attach from LOST: the kept frames sent, the count cleared, and the quiet timer restarted with a step POURING or HALTED (R159, R161; log 35). -/
theorem reattach_eq (s : State) :
    let sent : State := { s with
      terminal := { s.terminal with queue := s.terminal.queue ++ s.term.kept.map .unsolicited }, term := { s.term with kept := [], count := 0 } }
    let t0 := setLinkState sent .up
    reattach s = if ∃ y, currentStep s = some y ∧ (y.state = .pouring ∨ y.state = .halted)
      then { t0 with term := { t0.term with quietTimer := some (s.clocks.uptime + s.settings.qt.toNat) } } else t0 := by
  intro sent t0
  have hset : setTerm (setLinkState (sendKept s) .up) { (setLinkState (sendKept s) .up).term with count := 0 } = t0 := by
    rw [sendKept_eq]
    rfl
  have hplan : (currentStep t0).any stepPours = (currentStep s).any stepPours := rfl
  unfold reattach
  dsimp only
  rw [hset, hplan]
  by_cases h : ∃ y, currentStep s = some y ∧ (y.state = .pouring ∨ y.state = .halted)
  · rw [if_pos h, if_pos (anyPours_iff.2 h)]
    rfl
  · rw [if_neg h, if_neg (fun hany => h (anyPours_iff.1 hany))]

theorem tatt_attached (k : Nat) {s : State} (h : s.term.state = .up ∨ s.term.state = .quiet) :
    tatt k s = reply s .terminal k .ok (attachFields s) := by
  rcases h with h | h <;> simp [tatt, h, answerTatt]

theorem tatt_detached (k : Nat) {s : State} (h : s.term.state = .detached) :
    tatt k s = tryResume (recheck (reply (setLinkState s .up) .terminal k .ok (attachFields (setLinkState s .up)))) := by
  have htatt : tatt k s = linkChanged (answerTatt (setLinkState s .up) k) := by simp [tatt, h]
  rw [htatt, answerTatt, linkChanged_up (by rw [reply_term]; rfl)]

theorem tatt_lost (k : Nat) {s : State} (h : s.term.state = .lost) :
    tatt k s = tryResume (recheck (reply (reattach s) .terminal k .ok (attachFields (reattach s)))) := by
  have htatt : tatt k s = linkChanged (answerTatt (reattach s) k) := by simp [tatt, h]
  rw [htatt, answerTatt, linkChanged_up (by rw [reply_term, reattach_state])]

/-! ### The quiet timer -/

section QuietTimer

variable {s : State} (hdue : due s.term.quietTimer s.clocks.uptime = true)
include hdue

/-- The link record after an expiry below the fourth (R162). -/
theorem quietExpired_restarts (hcount : s.term.count < 3) (hstate : s.term.state ≠ .up) :
    quietExpired s
      = { s with term := { s.term with count := s.term.count + 1, quietTimer := some (s.clocks.uptime + s.settings.qt.toNat) } } := by
  rw [quietExpired, if_pos (by exact hdue), if_neg (not_le.2 hcount), quietOn, if_neg (by exact hstate)]
  rfl

theorem quietExpired_quiet (hcount : s.term.count < 3) (hstate : s.term.state = .up) :
    quietExpired s = enterEstimate (recheck (setLinkState
      { s with term := { s.term with count := s.term.count + 1, quietTimer := some (s.clocks.uptime + s.settings.qt.toNat) } } .quiet)) := by
  rw [quietExpired, if_pos (by exact hdue), if_neg (not_le.2 hcount), quietOn, if_pos (by exact hstate), changeLink, linkChanged_quiet rfl]
  rfl

theorem quietExpired_lost (hcount : 3 ≤ s.term.count) :
    let u := halt (recheck (setLinkState { s with term := { s.term with quietTimer := none, count := 4 } } .lost)) .link
    quietExpired s = trigger (raise u 11 none) .exception (currentStep u) := by
  intro u
  rw [quietExpired, if_pos (by exact hdue), if_pos hcount, loseLink, linkChanged_lost rfl]
  rfl

end QuietTimer

theorem quietExpired_not_due {s : State} (h : due s.term.quietTimer s.clocks.uptime = false) : quietExpired s = s := by
  rw [quietExpired, show due s.term.quietTimer (now s) = false from h]
  rfl

/-! ### The estimate -/

theorem enterEstimate_idle {s : State} (h : ∀ y, currentStep s = some y → y.state ≠ .pouring ∧ y.state ≠ .halted) : enterEstimate s = s := by
  have hnone : estimatedStep s = none := by
    unfold estimatedStep
    cases hy : currentStep s with
    | none => rfl
    | some y => simp [stepPours, h y hy]
  rw [enterEstimate, hnone]

/-- The overshoot limit with an OA that is not negative (R134). -/
theorem le_overshootLimit_iff {s : State} (hoa : 0 ≤ s.settings.oa) (y : Step) (n : Nat) :
    n ≤ overshootLimit s y ↔ (n : Int) ≤ (y.planned : Int) * (100 + s.settings.oa) / 100 := by
  have hplanned : 0 ≤ (y.planned : Int) * (100 + s.settings.oa) := mul_nonneg (Int.natCast_nonneg _) (by omega)
  rw [overshootLimit, roundTrunc, Int.tdiv_eq_ediv_of_nonneg hplanned]
  omega

theorem modHold_of_holdRec {s : State} {i : Nat} {h : Hold} (hrec : holdRec s i = some h) (f : Hold → Hold) :
    modHold s i f = { s with pour := { s.pour with holds := modAt s.pour.holds (i - 1) fun _ => f h } } := by
  unfold holdRec at hrec
  split at hrec
  · cases hrec
  · next hi =>
    rw [modHold, if_neg hi, modAt_congr_at (g := fun _ => f h) fun x hx => by rw [Option.some.inj (hx.symm.trans hrec)]]
    rfl

section Estimate

variable {s : State} {y : Step} {b n : Nat} {h : Hold} (hstep : currentStep s = some y) (hpours : y.state = .pouring ∨ y.state = .halted)
  (htally : y.lastTally = some n) (hoa : 0 ≤ s.settings.oa)
include hstep hpours htally hoa

theorem enterEstimate_above (habove : (y.planned : Int) * (100 + s.settings.oa) / 100 < n) : enterEstimate s = s := by
  have hlimit : ¬n ≤ overshootLimit s y := fun hle => absurd ((le_overshootLimit_iff hoa y n).1 hle) (not_le.2 habove)
  simp [enterEstimate, estimatedStep, hstep, stepPours_iff.2 hpours, htally, hlimit]

theorem enterEstimate_within (hbase : y.base = some b) (hrec : holdRec s y.hold = some h)
    (hwithin : (n : Int) ≤ (y.planned : Int) * (100 + s.settings.oa) / 100) :
    enterEstimate s = { s with pour := { s.pour with
      holds := modAt s.pour.holds (y.hold - 1) fun _ => { h with source := .estimate, estimate := some (b + n) } } } := by
  have hlimit : n ≤ overshootLimit s y := (le_overshootLimit_iff hoa y n).2 hwithin
  have hestimated : estimatedStep s = some y := by simp [estimatedStep, hstep, stepPours_iff.2 hpours, htally, hlimit]
  rw [enterEstimate, hestimated]
  dsimp only
  rw [modHold_of_holdRec hrec, talliedMass, hbase, htally]
  rfl

end Estimate

/-! ### Frames of the gate -/

theorem keepFrame_room {kept : List Unsolicited} (h : kept.length < 4) (u : Unsolicited) : keepFrame kept u = kept ++ [u] := by
  rw [keepFrame, if_neg (not_le.2 h)]

/-- A GRNT, HALT or BLKD goes by the link state (R164). -/
theorem handTerminal_spec (s : State) (u : Unsolicited) :
    (s.term.state = .up ∨ s.term.state = .quiet →
      handTerminal s u = { s with terminal := { s.terminal with queue := s.terminal.queue ++ [.unsolicited u] } })
    ∧ (s.term.state = .lost → s.term.kept.length < 4 → handTerminal s u = { s with term := { s.term with kept := s.term.kept ++ [u] } })
    ∧ (∀ x a b c, s.term.state = .lost → s.term.kept = [x, a, b, c] → handTerminal s u = { s with term := { s.term with kept := [a, b, c, u] } })
    ∧ (s.term.state = .detached → handTerminal s u = s) := by
  refine ⟨fun h => ?_, fun h hroom => ?_, fun x a b c h hkept => ?_, fun h => ?_⟩
  · rcases h with h | h <;> rw [handTerminal, h] <;> rfl
  · rw [handTerminal, h, keepFrame_room hroom]
    rfl
  · rw [handTerminal, h, hkept]
    rfl
  · rw [handTerminal, h]

end Sys2Proof.Machine
end

section
/-! PROOFS. TDET and the link states settled (R20, R158 to R164, R178; log 36, 42, 46, 47, 50). -/

namespace Sys2Proof.Machine

/-! ### An abandoned RPRT (R178) -/

theorem isSending_terminal {q : Report} : isSending .terminal q = true ↔ q.terminalFlag = .sending := decide_eq_true_iff

theorem any_isSending_terminal {queue : List Report} :
    queue.any (isSending .terminal) = true ↔ ∃ q ∈ queue, q.terminalFlag = .sending := by
  simp only [List.any_eq_true, isSending_terminal]

/-- The terminal's record that was being sent is pending again (R178). -/
def pendingAgain (queue : List Report) : List Report :=
  queue.map fun q => if q.terminalFlag = .sending then { q with terminalFlag := .pending } else q

theorem abandonTransmission_queued {s : State} (h : ∃ q ∈ s.reports.queue, q.terminalFlag = .sending) (x : Report) :
    abandonTransmission s x = setReports s { s.reports with queue := pendingAgain s.reports.queue } := by
  have hmap : (s.reports.queue.map fun r => if isSending .terminal r then withLinkFlag .terminal .pending r else r)
      = pendingAgain s.reports.queue := List.map_congr_left fun q _ => by simp only [isSending_terminal, withLinkFlag]
  rw [abandonTransmission, if_pos (any_isSending_terminal.2 h), hmap]

section Removed

variable {s : State} (h : ∀ q ∈ s.reports.queue, q.terminalFlag ≠ .sending)
include h

theorem not_any_isSending : ¬s.reports.queue.any (isSending .terminal) = true := fun hany => by
  obtain ⟨q, hq, hflag⟩ := any_isSending_terminal.1 hany
  exact h q hq hflag

/-- A record that CEND removed counts no gap (R178, R180; log 36). -/
theorem abandonTransmission_removed {x : Report} (hx : x.terminalFlag = .clear) : abandonTransmission s x = s := by
  rw [abandonTransmission, if_neg (not_any_isSending h), if_pos hx]

theorem abandonTransmission_discarded {x : Report} (hx : x.terminalFlag ≠ .clear) :
    abandonTransmission s x
      = raise (setReports s { s.reports with terminalGap := gapUp s.reports.terminalGap }) reportGap (some x.serial) := by
  rw [abandonTransmission, if_neg (not_any_isSending h), if_neg hx]

end Removed

theorem abandonReport_none {s : State} (h : ∀ r c w, s.terminal.tx ≠ some { frame := .rprt r c, wire := w }) : abandonReport s = s := by
  unfold abandonReport
  split
  · next r c w htx => exact absurd htx (h r c w)
  · rfl

theorem abandonReport_rprt {s : State} {r : Report} {c : Nat} {w : List Byte} (h : s.terminal.tx = some { frame := .rprt r c, wire := w }) :
    abandonReport s = abandonTransmission (setTerminal s { s.terminal with tx := none }) r := by
  unfold abandonReport
  rw [h]

section Rprt

variable {s : State} {r : Report} {c : Nat} {w : List Byte} (htx : s.terminal.tx = some { frame := .rprt r c, wire := w })
include htx

theorem abandonReport_queued (h : ∃ q ∈ s.reports.queue, q.terminalFlag = .sending) :
    (abandonReport s).reports = { s.reports with queue := pendingAgain s.reports.queue } := by
  rw [abandonReport_rprt htx, abandonTransmission_queued (by exact h)]
  rfl

theorem abandonReport_removed (h : ∀ q ∈ s.reports.queue, q.terminalFlag ≠ .sending) (hr : r.terminalFlag = .clear) :
    (abandonReport s).reports = s.reports := by
  rw [abandonReport_rprt htx, abandonTransmission_removed (by exact h) hr]
  rfl

theorem abandonReport_discarded (h : ∀ q ∈ s.reports.queue, q.terminalFlag ≠ .sending) (hr : r.terminalFlag ≠ .clear) :
    (abandonReport s).reports = { s.reports with terminalGap := gapUp s.reports.terminalGap }
      ∧ (abandonReport s).attention = raiseIn s.attention reportGap (some r.serial) := by
  rw [abandonReport_rprt htx, abandonTransmission_discarded (by exact h) hr]
  exact ⟨rfl, rfl⟩

end Rprt

/-- A raised condition is pending (R182). -/
theorem isPending_raiseIn {a : Attention} {n : Nat} {c : Condition} (h : a.conditions[n]? = some c) (d : Option Nat) :
    isPending (raiseIn a n d) n = true := by
  have howe : ∀ b : Attention, isPending (owe b n) n = isPending b n := fun b => by
    unfold owe
    split <;> rfl
  rw [raiseIn, h]
  dsimp only
  split
  · next hpending => rw [isPending_modCond_self h, hpending]
  · rw [howe, isPending_modCond_self h]

/-! ### TDET accepted -/

/-- The link DETACHED, its kept frames and its unsolicited frames dropped (R160). -/
def linkDropped (s : State) : State :=
  let u := setLinkState s .detached
  let u := setTerm u { u.term with kept := [] }
  setTerminal u { u.terminal with queue := u.terminal.queue.filter staysAtDetach }

theorem detach_eq (s : State) : detach s = linkChanged (closingCheck (abandonReport (linkDropped s))) := rfl

/-- What an RPRT under way leaves of the reports and of the terminal (R178; log 36). -/
theorem abandonReport_terminal (s : State) :
    (abandonReport s).terminal.queue = s.terminal.queue ∧ (abandonReport s).terminal.slots = s.terminal.slots
      ∧ (∀ r c w, s.terminal.tx = some { frame := .rprt r c, wire := w } → (abandonReport s).terminal.tx = none) := by
  by_cases h : ∃ r c w, s.terminal.tx = some { frame := .rprt r c, wire := w }
  · obtain ⟨r, c, w, htx⟩ := h
    have hport : (abandonReport s).terminal = { s.terminal with tx := none } := by
      rw [abandonReport_rprt htx]
      exact (abandonTransmission_path (setTerminal s { s.terminal with tx := none }) r).changesOnly .terminal (by decide)
    rw [hport]
    exact ⟨rfl, rfl, fun _ _ _ _ => rfl⟩
  · have hnone : ∀ r c w, s.terminal.tx ≠ some { frame := .rprt r c, wire := w } := fun r c w htx => h ⟨r, c, w, htx⟩
    rw [abandonReport_none hnone]
    exact ⟨rfl, rfl, fun r c w htx => absurd htx (hnone r c w)⟩

/-- A queue of one record holds one record of its kind and console flag after the abandonment (R178). -/
theorem abandonReport_single {s : State} {q : Report} (h : s.reports.queue = [q]) :
    ∃ q', (abandonReport s).reports.queue = [q'] ∧ q'.kind = q.kind ∧ q'.consoleFlag = q.consoleFlag := by
  by_cases htx : ∃ r c w, s.terminal.tx = some { frame := .rprt r c, wire := w }
  · obtain ⟨r, c, w, htx⟩ := htx
    by_cases hsending : q.terminalFlag = .sending
    · rw [abandonReport_queued htx ⟨q, by simp [h], hsending⟩]
      exact ⟨{ q with terminalFlag := .pending }, by simp [h, pendingAgain, hsending], rfl, rfl⟩
    · have hnone : ∀ x ∈ s.reports.queue, x.terminalFlag ≠ .sending := by simpa [h] using hsending
      refine ⟨q, ?_, rfl, rfl⟩
      by_cases hclear : r.terminalFlag = .clear
      · rw [abandonReport_removed htx hnone hclear, h]
      · rw [(abandonReport_discarded htx hnone hclear).1, h]
  · rw [abandonReport_none fun r c w e => htx ⟨r, c, w, e⟩]
    exact ⟨q, h, rfl, rfl⟩

/-- What an accepted TDET leaves alone after the watch over the DEPARTURE record (R158, R160). -/
theorem detach_keeps (s : State) :
    ChangesOnly [.pour, .engine] (closingCheck (abandonReport (linkDropped s))) (detach s)
      ∧ (closingCheck (abandonReport (linkDropped s))).term = { s.term with state := .detached, kept := [] }
      ∧ (closingCheck (abandonReport (linkDropped s))).terminal = (abandonReport (linkDropped s)).terminal
      ∧ (closingCheck (abandonReport (linkDropped s))).attention = (abandonReport (linkDropped s)).attention := by
  have hcheck := (closingCheck_path (abandonReport (linkDropped s))).changesOnly
  have hterm : (closingCheck (abandonReport (linkDropped s))).term = { s.term with state := .detached, kept := [] } :=
    (hcheck .term (by decide)).trans ((abandonReport_path (linkDropped s)).changesOnly .term (by decide))
  refine ⟨?_, hterm, hcheck .terminal (by decide), hcheck .attention (by decide)⟩
  rw [detach_eq, linkChanged_detached (by rw [hterm])]
  exact (recheck_path _).changesOnly

/-- Outside CLOSING a TDET leaves call and gauge alone, and the reports are those that the abandonment leaves. -/
theorem detach_open {s : State} (h : s.call ≠ .closing) :
    (detach s).call = s.call ∧ (detach s).gauge = s.gauge ∧ (detach s).reports = (abandonReport (linkDropped s)).reports
      ∧ (detach s).attention = (abandonReport (linkDropped s)).attention := by
  obtain ⟨hkeeps, -, -, hattention⟩ := detach_keeps s
  have habandon := (abandonReport_path (linkDropped s)).changesOnly
  have hcall : (abandonReport (linkDropped s)).call = s.call := habandon .call (by decide)
  have hcheck : closingCheck (abandonReport (linkDropped s)) = abandonReport (linkDropped s) :=
    closingCheck_of_not_closing (by rw [hcall]; exact h)
  rw [hcheck] at hkeeps
  exact ⟨(hkeeps .call (by decide)).trans hcall, (hkeeps .gauge (by decide)).trans (habandon .gauge (by decide)), hkeeps .reports (by decide),
    hkeeps .attention (by decide)⟩

/-- In CLOSING a TDET ends the call where the console has the DEPARTURE record (R20); elsewhere the record waits. -/
theorem detach_closing {s : State} {q : Report} (hcall : s.call = .closing) (hqueue : s.reports.queue = [q]) (hkind : q.kind = .departure) :
    (q.consoleFlag = .clear →
      (detach s).call = .idle ∧ (detach s).reports.queue = [] ∧ (detach s).gauge = { s.gauge with timer := none, round := none })
    ∧ (q.consoleFlag ≠ .clear →
      (detach s).call = .closing ∧ (detach s).gauge = s.gauge ∧ (detach s).reports = (abandonReport (linkDropped s)).reports) := by
  obtain ⟨hkeeps, -, -, -⟩ := detach_keeps s
  have habandon := (abandonReport_path (linkDropped s)).changesOnly
  have acall : (abandonReport (linkDropped s)).call = .closing := (habandon .call (by decide)).trans hcall
  have agauge : (abandonReport (linkDropped s)).gauge = s.gauge := habandon .gauge (by decide)
  have aterm : (abandonReport (linkDropped s)).term.state = .detached := congrArg TermLink.state (habandon .term (by decide))
  obtain ⟨q', hqueue', hkind', hconsole'⟩ := abandonReport_single (s := linkDropped s) hqueue
  refine ⟨fun hclear => ?_, fun hwaits => ?_⟩
  · rw [closingCheck_of_detached acall hqueue' (hkind'.trans hkind) (hconsole'.trans hclear) aterm] at hkeeps
    exact ⟨hkeeps .call (by decide), congrArg Reports.queue (hkeeps .reports (by decide)),
      (hkeeps .gauge (by decide)).trans (congrArg (fun g : Gauge => { g with timer := none, round := none }) agauge)⟩
  · rw [closingCheck_of_waiting acall hqueue' (hkind'.trans hkind) fun h => hwaits (hconsole' ▸ h.1)] at hkeeps
    exact ⟨(hkeeps .call (by decide)).trans acall, (hkeeps .gauge (by decide)).trans agauge, hkeeps .reports (by decide)⟩

/-- REPORT_GAP is pending after the abandonment of a discarded record (R178, R182). -/
theorem reportGap_pending {s : State} (h : AttentionOk s.attention) (d : Option Nat) :
    isPending (raiseIn (causeIn s.attention terminalQuiet false) reportGap d) 12 = true := by
  have hlength : 12 < s.attention.conditions.length := by rw [h.1]; decide
  obtain ⟨c, hc, -⟩ := causeIn_getElem? (n := terminalQuiet) false (List.getElem?_eq_getElem hlength)
  exact isPending_raiseIn hc d

theorem tdet_detached (k : Nat) {s : State} (h : s.term.state = .detached) : tdet k s = reply s .terminal k .ok [(.LS, .num 0)] := by
  simp [tdet, answerTdet, h, linkCode]

theorem tdet_lost (k : Nat) {s : State} (h : s.term.state = .lost) : tdet k s = reply s .terminal k .state [] := by
  simp [tdet, refuse, h]

section Attached

variable {s : State} (k : Nat) (hstate : s.term.state = .up ∨ s.term.state = .quiet)
include hstate

theorem tdet_pouring (hpours : ∃ y, currentStep s = some y ∧ (y.state = .pouring ∨ y.state = .halted)) :
    tdet k s = reply s .terminal k .state [] := by
  rcases hstate with h | h <;> simp [tdet, h, anyPours_iff.2 hpours, refuse]

theorem tdet_accepted (hidle : ∀ y, currentStep s = some y → y.state ≠ .pouring ∧ y.state ≠ .halted) :
    tdet k s = reply (detach s) .terminal k .ok [(.LS, .num 0)] := by
  obtain ⟨hkeeps, hterm, -, -⟩ := detach_keeps s
  have hdetached : (detach s).term.state = .detached := congrArg TermLink.state ((hkeeps .term (by decide)).trans hterm)
  have hpours : (currentStep s).any stepPours = false := by
    rw [← Bool.not_eq_true, anyPours_iff]
    rintro ⟨y, hy, h | h⟩
    · exact (hidle y hy).1 h
    · exact (hidle y hy).2 h
  have hanswer : tdet k s = answerTdet (detach s) k := by rcases hstate with h | h <;> simp [tdet, h, hpours]
  rw [hanswer, answerTdet, hdetached]
  rfl

end Attached

/-- Settles O53. -/
theorem linkStatesChange : Obligations.LinkStatesChange := by
  unfold Obligations.LinkStatesChange
  intro withLink
  refine ⟨fun k s hasked => ?_, fun k s hasked => ?_, fun s hpower => ?_, fun s => enterEstimate_idle,
    fun s y b n h hstep hpours hbase htally hrec hsettings => ?_, handTerminal_spec⟩
  · have hexec : exec (.tatt k) s = .next (tatt k s) := exec_asked (r := .tatt) hasked
    refine ⟨fun hstate => ?_, fun hstate => ?_, fun hstate => ?_⟩
    · rw [hexec, tatt_attached k hstate]
      rfl
    · rw [hexec, tatt_detached k hstate]
      rfl
    · rw [hexec, tatt_lost k hstate, reattach_eq]
      rfl
  · have hexec : exec (.tdet k) s = .next (tdet k s) := exec_asked (r := .tdet) hasked
    refine ⟨fun hstate => ?_, fun hstate => ?_, fun hstate => ⟨fun hpours => ?_, fun hidle => ?_⟩⟩
    · rw [hexec, tdet_detached k hstate]
    · rw [hexec, tdet_lost k hstate]
    · rw [hexec, tdet_pouring k hstate hpours]
    · rw [tdet_accepted k hstate hidle] at hexec
      obtain ⟨hkeeps, hterm, hterminal, -⟩ := detach_keeps s
      obtain ⟨hqueue, hslots, htx⟩ := abandonReport_terminal (linkDropped s)
      have hport : (detach s).terminal = (abandonReport (linkDropped s)).terminal := (hkeeps .terminal (by decide)).trans hterminal
      refine ⟨detach s, hexec, (hkeeps .term (by decide)).trans hterm, by rw [hport, hqueue]; rfl, by rw [hport, hslots]; rfl,
        fun r c w h => by rw [hport, htx r c w h], fun hnone => ?_, fun r c w hopen h => ?_, fun hopen => ?_, fun q hclosing hq hkind => ?_⟩
      · have hsame := abandonReport_none (s := linkDropped s) hnone
        refine ⟨by rw [hport, hsame]; rfl, fun hopen => ?_⟩
        obtain ⟨-, -, hreports, -⟩ := detach_open hopen
        rw [hreports, hsame]
        rfl
      · obtain ⟨-, -, hreports, hattention⟩ := detach_open hopen
        refine ⟨fun hsending => ?_, fun hsending => ⟨fun hclear => ?_, fun hflag => ?_⟩⟩
        · exact hreports.trans (abandonReport_queued (s := linkDropped s) h hsending)
        · exact hreports.trans (abandonReport_removed (s := linkDropped s) h hsending hclear)
        · obtain ⟨hgap, hraised⟩ := abandonReport_discarded (s := linkDropped s) h hsending hflag
          refine ⟨hreports.trans hgap, fun hok => ?_⟩
          rw [hattention, hraised]
          exact reportGap_pending hok (some r.serial)
      · obtain ⟨hcall, hgauge, -, -⟩ := detach_open hopen
        exact ⟨hcall, hgauge⟩
      · obtain ⟨hends, hwaits⟩ := detach_closing hclosing hq hkind
        refine ⟨hends, fun hconsole => ?_⟩
        obtain ⟨hcall, hgauge, hreports⟩ := hwaits hconsole
        refine ⟨hcall, hgauge, fun hsending htx' => ?_⟩
        obtain ⟨r, c, w, h⟩ := htx'
        have hmark : ∃ x ∈ s.reports.queue, x.terminalFlag = .sending := ⟨q, by simp [hq], hsending⟩
        have hagain : pendingAgain s.reports.queue = [{ q with terminalFlag := .pending }] := by simp [pendingAgain, hq, hsending]
        exact (hreports.trans (abandonReport_queued (s := linkDropped s) h hmark)).trans
          (congrArg (fun queue => { s.reports with queue := queue }) hagain)
  · have hexec : exec .quietTimerExpiry s = .next (quietExpired s) := event_powered hpower _
    refine ⟨fun hdue => ?_, fun hdue => ⟨fun hcount hstate => ?_, fun hcount hstate => ?_, fun hcount => ?_⟩⟩
    · rw [hexec, quietExpired_not_due hdue]
    · rw [hexec, quietExpired_restarts hdue hcount hstate]
    · rw [hexec, quietExpired_quiet hdue hcount hstate]
      rfl
    · rw [hexec, quietExpired_lost hdue hcount]
      rfl
  · have hoa : 0 ≤ s.settings.oa := by
      obtain ⟨hrange, -⟩ := hsettings
      exact (within_iff.1 (hrange .OA (by decide))).1
    exact ⟨enterEstimate_above hstep hpours htally hoa, enterEstimate_within hstep hpours htally hoa hbase hrec⟩

end Sys2Proof.Machine
end

section
/-! PROOFS. Readings and sounding tables: what a raw code is and makes of a tank's record, volumes, masses and levels (R32, R35 to R37, R39 to R41). -/

namespace Sys2Proof.Machine

/-! ### Readings -/

theorem classify_bad {set : Settings} {d : TankData} {c : Channel} {code : Nat}
    (h : (code : Int) < set.ra ∨ set.rb < code ∨ d.maxLevel + 500 < codeLevel c code) : classify set d c code = none := by
  unfold classify
  split
  · rfl
  · next hin => rw [if_pos ((h.resolve_left fun hra => hin (.inl hra)).resolve_left fun hrb => hin (.inr hrb))]

theorem classify_good {set : Settings} {d : TankData} {c : Channel} {code : Nat} (hra : set.ra ≤ code) (hrb : (code : Int) ≤ set.rb)
    (hlevel : codeLevel c code ≤ d.maxLevel + 500) : classify set d c code = some (codeLevel c code) := by
  rw [classify, if_neg (not_or.2 ⟨not_lt.2 hra, not_lt.2 hrb⟩), if_neg (not_lt.2 hlevel)]

theorem ringWith_eq (ring : List Nat) (level : Nat) :
    ringWith ring level = (if ring.length < 4 then ring else ring.drop (ring.length - 3)) ++ [level] := by
  unfold ringWith
  by_cases h : ring.length < 4
  · rw [if_pos h, if_neg (not_le.2 h)]
  · rw [if_neg h, if_pos (not_lt.1 h)]

theorem ringMean_eq (ring : List Nat) : ringMean ring = (roundHalfUp (ring.sum : Nat) ring.length).toNat := by
  rw [ringMean, List.sum_eq_foldl_nat]

/-- A ring of one level has that level as its mean. -/
theorem ringMean_singleton (level : Nat) : ringMean [level] = level := by
  have hmean : (2 * (level : Int) + 1) / 2 = level := by omega
  simp [ringMean, roundHalfUp, hmean]

/-! ### The score -/

theorem withdraws_iff {x : Tank} : withdraws x = true ↔ 255 < x.score + 8 := by simp [withdraws]

theorem badReading_scored {x : Tank} (h : x.score + 8 ≤ 255) :
    badReading x = { x with score := x.score + 8, gauge := scoreState (x.score + 8) } := by
  rw [badReading, if_neg (by rw [withdraws_iff]; exact not_lt.2 h)]

theorem badReading_withdraws {x : Tank} (h : 255 < x.score + 8) : badReading x = withdrawGauge x := by
  rw [badReading, if_pos (withdraws_iff.2 h)]

theorem reinstates_iff {x : Tank} : reinstates x = true ↔ 127 ≤ x.reinstatement := by
  simp only [reinstates, decide_eq_true_eq]
  omega

theorem goodWhileWithdrawn_counts {x : Tank} (h : x.reinstatement < 127) (d : TankData) (level uptime : Nat) :
    goodWhileWithdrawn d level uptime x = { x with reinstatement := x.reinstatement + 1 } := by
  rw [goodWhileWithdrawn, if_neg (by rw [reinstates_iff]; exact not_le.2 h)]

/-- The reading that reinstates is the first of the ring (R41). -/
theorem goodWhileWithdrawn_reinstates {x : Tank} (h : 127 ≤ x.reinstatement) (d : TankData) (level uptime : Nat) :
    goodWhileWithdrawn d level uptime x = { x with
      gauge := .normal, score := 0, reinstatement := 0, ring := [level], level := level, source := .gauge,
      mass := massAt d.points level x.density, lastGood := some uptime } := by
  have hring : ringWith [] level = [level] := rfl
  rw [goodWhileWithdrawn, if_pos (reinstates_iff.2 h)]
  simp only [enterRing, withMass, hring, ringMean_singleton]

/-- Settles O23. -/
theorem readingsScoreTheGauge : Obligations.ReadingsScoreTheGauge := by
  refine ⟨fun set d c code => ⟨classify_bad, classify_good⟩, fun d level uptime x => ?_,
    fun x => ⟨badReading_scored, badReading_withdraws⟩,
    fun d level uptime x => ⟨fun h => goodWhileWithdrawn_counts h d level uptime, fun h => goodWhileWithdrawn_reinstates h d level uptime⟩⟩
  intro ring mean
  have hring : ringWith x.ring level = ring := ringWith_eq x.ring level
  have hmean : ringMean ring = mean := ringMean_eq ring
  simp only [goodReading, enterRing, withMass, hring, hmean, scoreState]

/-! ### Sounding tables -/

theorem pointsRise_cons {p q : SndPoint} {rest : List SndPoint} (h : pointsRise (p :: q :: rest) = true) :
    p.level < q.level ∧ p.volume ≤ q.volume ∧ pointsRise (q :: rest) = true := by
  simpa [pointsRise, and_assoc] using h

/-- The part of a rising table from one of its points on rises. -/
theorem pointsRise_from {before after : List SndPoint} (h : pointsRise (before ++ after) = true) : pointsRise after = true :=
  pointsRise_iff.2 ((pointsRise_iff.1 h).right_of_append)

/-- In a rising table the first point lies lowest and holds least. -/
theorem head_le_of_pointsRise {p : SndPoint} {ps : List SndPoint} (h : pointsRise (p :: ps) = true) :
    ∀ q ∈ p :: ps, p.level ≤ q.level ∧ p.volume ≤ q.volume := by
  induction ps generalizing p with
  | nil => simp
  | cons r ps ih =>
    obtain ⟨hlevel, hvolume, hrest⟩ := pointsRise_cons h
    intro q hq
    rcases List.mem_cons.1 hq with rfl | hq
    · exact ⟨le_rfl, le_rfl⟩
    · obtain ⟨hl, hv⟩ := ih hrest q hq
      exact ⟨hlevel.le.trans hl, hvolume.trans hv⟩

/-- The points below a level do not count for its volume (R36). -/
theorem volumeAt_from {before after : List SndPoint} {p : SndPoint} {level : Nat} (h : pointsRise (before ++ p :: after) = true)
    (hlevel : p.level ≤ level) : volumeAt (before ++ p :: after) level = volumeAt (p :: after) level := by
  induction before with
  | nil => rfl
  | cons b before ih =>
    have hrest : pointsRise (before ++ p :: after) = true := pointsRise_from (before := [b]) h
    obtain ⟨q, rest, hq⟩ := List.exists_cons_of_ne_nil (l := before ++ p :: after) (by simp)
    have hqp : q.level ≤ p.level := (head_le_of_pointsRise (hq ▸ hrest) p (hq ▸ by simp)).1
    rw [← ih hrest, List.cons_append, hq, volumeAt, if_pos (hqp.trans hlevel)]

theorem volumeAt_point {before after : List SndPoint} {p : SndPoint} (h : pointsRise (before ++ p :: after) = true) :
    volumeAt (before ++ p :: after) p.level = p.volume := by
  rw [volumeAt_from h le_rfl]
  cases after with
  | nil => rfl
  | cons q after =>
    obtain ⟨hrise, -⟩ := pointsRise_cons (pointsRise_from h)
    rw [volumeAt, if_neg (not_le.2 hrise), if_pos le_rfl]

/-- An interpolation between rising values is not negative (R36, R39, R48). -/
theorem roundHalfUp_nonneg {n d : Int} (hn : 0 ≤ n) (hd : 0 ≤ d) : 0 ≤ roundHalfUp n d := Int.ediv_nonneg (by omega) (by omega)

theorem volumeAt_between {before after : List SndPoint} {p q : SndPoint} {level : Nat} (h : pointsRise (before ++ p :: q :: after) = true)
    (hp : p.level < level) (hq : level < q.level) : (volumeAt (before ++ p :: q :: after) level : Int)
      = p.volume + roundHalfUp (((q.volume : Int) - p.volume) * ((level : Int) - p.level)) ((q.level : Int) - p.level) := by
  obtain ⟨-, hvolume, -⟩ := pointsRise_cons (pointsRise_from h)
  have hquotient : 0 ≤ roundHalfUp (((q.volume : Int) - p.volume) * ((level : Int) - p.level)) ((q.level : Int) - p.level) :=
    roundHalfUp_nonneg (mul_nonneg (by omega) (by omega)) (by omega)
  rw [volumeAt_from h hp.le, volumeAt, if_neg (not_le.2 hq), if_neg (not_le.2 hp)]
  omega

theorem massAt_eq (points : List SndPoint) (level density : Nat) :
    (massAt points level density : Int) = roundHalfUp ((volumeAt points level : Int) * density) 10000 := by
  have hmass : 0 ≤ roundHalfUp ((volumeAt points level : Int) * density) 10000 :=
    roundHalfUp_nonneg (mul_nonneg (Int.natCast_nonneg _) (Int.natCast_nonneg _)) (by decide)
  rw [massAt, Nat.cast_mul, Int.toNat_of_nonneg hmass]

/-! ### Levels for a mass -/

/-- The segments whose upper volume lies below the volume sought are passed over (R39, step 4). -/
theorem levelOnSegment_from {before after : List SndPoint} {a : SndPoint} {v : Int} (h : ∀ q ∈ (before ++ [a]).tail, (q.volume : Int) < v) :
    levelOnSegment (before ++ a :: after) v = levelOnSegment (a :: after) v := by
  induction before with
  | nil => rfl
  | cons b before ih =>
    have hlow : ∀ q ∈ before ++ [a], (q.volume : Int) < v := h
    rw [← ih fun q hq => hlow q (List.mem_of_mem_tail hq)]
    cases before with
    | nil => rw [List.cons_append, List.nil_append, levelOnSegment, if_neg (not_le.2 (hlow a (by simp)))]
    | cons c before => rw [List.cons_append, List.cons_append, levelOnSegment, if_neg (not_le.2 (hlow c (by simp)))]

section LevelFor

variable {d : TankData} {density : Nat} {mass : Int} {first last : SndPoint}
  (hfirst : d.points.head? = some first) (hlast : d.points.getLast? = some last)
include hfirst

theorem levelFor_below (h : roundHalfUp (mass * 10000) density < first.volume) : levelFor d density mass = 0 := by
  simp [levelFor, hfirst, h]

include hlast

theorem levelFor_above (hlow : first.volume ≤ roundHalfUp (mass * 10000) density) (h : last.volume < roundHalfUp (mass * 10000) density) :
    levelFor d density mass = d.maxLevel := by
  simp [levelFor, hfirst, hlast, not_lt.2 hlow, h]

theorem levelFor_within (hlow : first.volume ≤ roundHalfUp (mass * 10000) density) (h : roundHalfUp (mass * 10000) density ≤ last.volume) :
    levelFor d density mass = levelOnSegment d.points (roundHalfUp (mass * 10000) density) := by
  simp [levelFor, hfirst, hlast, not_lt.2 hlow, not_lt.2 h]

variable (hrise : pointsRise d.points = true) {before after : List SndPoint} {a b : SndPoint} (hpoints : d.points = before ++ a :: b :: after)
  (hbefore : ∀ q ∈ (before ++ [a]).tail, (q.volume : Int) < roundHalfUp (mass * 10000) density)
  (hlow : first.volume ≤ roundHalfUp (mass * 10000) density) (hhigh : roundHalfUp (mass * 10000) density ≤ b.volume)
include hrise hpoints hbefore hlow hhigh

/-- A volume on a segment lies between those of its two points. -/
theorem levelFor_segment : (a.volume : Int) ≤ roundHalfUp (mass * 10000) density
    ∧ levelFor d density mass = levelOnSegment (a :: b :: after) (roundHalfUp (mass * 10000) density) := by
  constructor
  · cases before with
    | nil =>
      obtain rfl : a = first := by simpa [hpoints] using hfirst
      exact hlow
    | cons c before => exact (hbefore a (by simp)).le
  · have hend : last ∈ b :: after := by
      have hmem : (b :: after).getLast? = some last := by simpa [hpoints, List.getLast?_append] using hlast
      exact List.mem_of_getLast? hmem
    have hb : b.volume ≤ last.volume :=
      (head_le_of_pointsRise (pointsRise_from (before := before ++ [a]) (by simpa [hpoints] using hrise)) last hend).2
    rw [levelFor_within hfirst hlast hlow (hhigh.trans (Int.ofNat_le.2 hb)), hpoints, levelOnSegment_from hbefore]

theorem levelFor_flat (h : b.volume = a.volume) : levelFor d density mass = a.level := by
  obtain ⟨-, heq⟩ := levelFor_segment hfirst hlast hrise hpoints hbefore hlow hhigh
  rw [heq, levelOnSegment, if_pos hhigh, if_pos h]

theorem levelFor_interpolated (h : b.volume ≠ a.volume) : (levelFor d density mass : Int)
    = a.level + roundHalfUp ((roundHalfUp (mass * 10000) density - a.volume) * ((b.level : Int) - a.level)) ((b.volume : Int) - a.volume) := by
  obtain ⟨ha, heq⟩ := levelFor_segment hfirst hlast hrise hpoints hbefore hlow hhigh
  obtain ⟨hlevel, hvolume, -⟩ := pointsRise_cons (pointsRise_from (before := before) (hpoints ▸ hrise))
  have hquotient : 0 ≤ roundHalfUp ((roundHalfUp (mass * 10000) density - a.volume) * ((b.level : Int) - a.level))
      ((b.volume : Int) - a.volume) := roundHalfUp_nonneg (mul_nonneg (by omega) (by omega)) (by omega)
  rw [heq, levelOnSegment, if_pos hhigh, if_neg h]
  omega

end LevelFor

/-- Settles O25. -/
theorem volumesFollowTheSoundingTable : Obligations.VolumesFollowTheSoundingTable := by
  refine ⟨fun _ _ _ => volumeAt_point, fun _ _ _ _ _ => volumeAt_between, fun before p level h hlevel => ?_, massAt_eq,
    fun d density mass first last _ hrise hfirst hlast => ?_⟩
  · rw [volumeAt_from h hlevel.le, volumeAt]
  · intro v
    refine ⟨levelFor_below hfirst, levelFor_above hfirst hlast, fun before after a b hpoints hbefore hlow hhigh => ?_⟩
    exact ⟨levelFor_flat hfirst hlast hrise hpoints hbefore hlow hhigh, levelFor_interpolated hfirst hlast hrise hpoints hbefore hlow hhigh⟩

end Sys2Proof.Machine
end

section
/-! PROOFS. Allowances of tanks and holds, and densities and levels set by hand (R38, R43 to R45, R51, R52; log 18, 49). -/

namespace Sys2Proof.Machine

/-! ### Allowances -/

theorem tankAllowance_gauge {t : Tank} (hsource : t.source = .gauge) (d : TankData) :
    tankAllowance d t = if t.gauge = .suspect then d.allowance else 0 := by
  cases hgauge : t.gauge <;> simp [tankAllowance, hsource, hgauge]

theorem tankAllowance_manual {t : Tank} (hsource : t.source = .manual) (d : TankData) : tankAllowance d t = d.allowance := by
  simp [tankAllowance, hsource]

theorem tankAllowance_frozen {t : Tank} (hsource : t.source = .frozen) (d : TankData) : tankAllowance d t = 2 * d.allowance := by
  simp [tankAllowance, hsource]

theorem holdAllowance_told {r : Hold} (h : r.source = .tally ∨ r.source = .corrected) (s : State) (n : Nat) : holdAllowance s n r = 0 := by
  rcases h with h | h <;> rw [holdAllowance, h]

theorem holdAllowance_estimate {s : State} {r : Hold} {y : Step} (h : r.source = .estimate) (hy : currentStep s = some y) :
    holdAllowance s y.hold r = r.mass - talliedMass y := by
  rw [holdAllowance, h]
  simp only [hy, if_pos]

/-- The tanks are the compartments 0 to 23 (R51). -/
theorem compartment_tank {s : State} {p : Profile} {d : TankData} {t : Tank} {i : Nat} (hi : i < 24) (hdata : p.tanks[i]? = some d)
    (hrec : s.tanks[i]? = some t) : compartment s p i = (t.mass, tankAllowance d t) := by
  rw [compartment, if_pos hi, hdata, hrec]

/-- The holds 1 to 9 are the compartments 24 to 32 (R51). -/
theorem compartment_hold {s : State} {p : Profile} {d : HoldData} {r : Hold} {h : Nat} (hh : 1 ≤ h) (hdata : p.holds[h - 1]? = some d)
    (hrec : s.pour.holds[h - 1]? = some r) : compartment s p (23 + h) = (r.mass, holdAllowance s h r) := by
  have hposition : 23 + h - 24 = h - 1 := by omega
  have hnumber : 23 + h - 23 = h := by omega
  rw [compartment, if_neg (by omega), hposition, hnumber, hdata, hrec]

/-- Settles O24. -/
theorem allowanceFollowsSourceAndState : Obligations.AllowanceFollowsSourceAndState := by
  refine ⟨fun d t => ⟨fun hsource hgauge => ?_, fun hsource hgauge => ?_, fun hsource _ => tankAllowance_manual hsource d,
      fun hsource => tankAllowance_frozen hsource d⟩,
    fun s p d t i hi hdata hrec => ?_, fun s p d r h hlow hhigh hdata hrec => ?_⟩
  · rw [tankAllowance_gauge hsource, hgauge]
    rfl
  · rw [tankAllowance_gauge hsource, if_pos hgauge]
  · rw [latch_mass s p (by omega), latch_allowance s p (by omega), compartment_tank hi hdata hrec]
    exact ⟨rfl, rfl⟩
  · rw [latch_mass s p (by omega), latch_allowance s p (by omega), compartment_hold hlow hdata hrec]
    refine ⟨rfl, fun htold => congrArg some (holdAllowance_told htold s h), fun y b n hsource hy hhold hbase htally => ?_⟩
    subst hhold
    rw [holdAllowance_estimate hsource hy, talliedMass, hbase, htally]
    rfl

/-! ### DENS and SNDG -/

/-- The tank table with one record, and a live request (R38, R43). -/
def tankSet (s : State) (i : Nat) (x : Tank) : State := liveRequest { s with tanks := modAt s.tanks i fun _ => x } false

theorem maxLevelOf_eq {s : State} {i : Nat} {d : TankData} (h : tankData s i = some d) : maxLevelOf s i = d.maxLevel := by
  rw [maxLevelOf, h]
  rfl

theorem liveRequest_retank {s : State} {i : Nat} {d : TankData} {x : Tank} (hdata : tankData s i = some d) (hx : s.tanks[i]? = some x)
    (f : Tank → Tank) : liveRequest (retank s i f) false = tankSet s i (withMass d (f x)) := by
  have htanks : modAt s.tanks i (fun r => withMass d (f r)) = modAt s.tanks i fun _ => withMass d (f x) :=
    modAt_congr_at fun y hy => by rw [Option.some.inj (hy.symm.trans hx)]
  rw [retank, hdata]
  dsimp only
  rw [modTank, htanks]
  rfl

theorem tankSet_changesOnly (s : State) (i : Nat) (x : Tank) :
    ChangesOnly [.engine] { s with tanks := modAt s.tanks i fun _ => x } (tankSet s i x) := (liveRequest_path _ false).changesOnly

theorem tankSet_tanks (s : State) (i : Nat) (x : Tank) : (tankSet s i x).tanks = modAt s.tanks i fun _ => x :=
  tankSet_changesOnly s i x .tanks (by decide)

theorem massOf_tankSet {s : State} {i : Nat} {x : Tank} (hx : s.tanks[i]? = some x) (y : Tank) : massOf (tankSet s i y) i = y.mass := by
  rw [massOf, tankRec, tankSet_tanks, modAt_getElem?_self, hx]
  rfl

/-- A record set, a live request, and the reply of the request that set it (R38, R43). -/
theorem reply_tankSet (s : State) (i : Nat) (x : Tank) (k : Nat) (oc : Oc) (fs : List (Field × Val)) :
    let t := reply (tankSet s i x) .console k oc fs
    t.tanks = (modAt s.tanks i fun _ => x) ∧ t.engine = (liveRequest { s with tanks := t.tanks } false).engine
      ∧ Replied s t .console k oc fs := by
  intro t
  have hreply : ChangesOnly [.console] (tankSet s i x) t := (reply_path _ .console k oc fs).changesOnly
  have htanks : t.tanks = modAt s.tanks i fun _ => x := (hreply .tanks (by decide)).trans (tankSet_tanks s i x)
  have hset := tankSet_changesOnly s i x
  refine ⟨htanks, ?_, reply_port_congr (t := s) (l := .console) (hset .console (by decide)) (hset .call (by decide)) k oc fs⟩
  rw [htanks]
  exact hreply .engine (by decide)

section TankNamed

variable {s : State} {i : Nat} {d : TankData} {x : Tank} (k : Nat)
  (hi : i ≤ 23) (hdata : tankData s i = some d) (hx : s.tanks[i]? = some x)
include hi hdata hx

theorem dens_accepted (dn : Int) :
    let x' : Tank := { x with density := clampDensity dn, mass := massAt d.points x.level (clampDensity dn) }
    dens k i dn s = reply (tankSet s i x') .console k (if within 1000 1050 dn then .ok else .clamped)
      [(.RV, .num (clampDensity dn)), (.RV, .num x'.mass)] := by
  intro x'
  have hset : liveRequest (retank s i fun r => { r with density := clampDensity dn }) false = tankSet s i x' := liveRequest_retank hdata hx _
  rw [dens, tankNamed_declared hi hdata hx]
  dsimp only
  rw [hset, massOf_tankSet hx]
  rfl

theorem sndg_gaugeInUse (lv : Int) (h : x.gauge = .normal ∨ x.gauge = .suspect) : sndg k i lv s = reply s .console k .state [] := by
  have huse : gaugeInUse x.gauge = true := (gaugeInUse_iff _).2 h
  simp [sndg, tankNamed_declared hi hdata hx, tankRec, hx, huse, refuse]

variable (hgauge : x.gauge = .withdrawn ∨ x.gauge = .unmapped)
include hgauge

omit hi hdata in
theorem gauge_out_of_use : ¬((tankRec s i).any fun r => gaugeInUse r.gauge) = true := by
  rw [tankRec, hx]
  rcases hgauge with h | h <;> simp [h, gaugeInUse]

theorem sndg_outOfRange {lv : Int} (h : lv < 0 ∨ (d.maxLevel : Int) + 500 < lv) : sndg k i lv s = reply s .console k .range [] := by
  rw [sndg, tankNamed_declared hi hdata hx]
  dsimp only
  rw [if_neg (gauge_out_of_use hx hgauge), maxLevelOf_eq hdata, natUpTo_eq_none (by omega)]
  rfl

theorem sndg_accepted {n : Nat} (hn : n ≤ d.maxLevel + 500) :
    let x' : Tank := { x with level := n, source := .manual, mass := massAt d.points n x.density }
    sndg k i n s = reply (tankSet s i x') .console k .ok [(.RV, .num n), (.RV, .num x'.mass)] := by
  intro x'
  have hset : liveRequest (retank s i fun r => { r with level := n, source := .manual }) false = tankSet s i x' := liveRequest_retank hdata hx _
  rw [sndg, tankNamed_declared hi hdata hx]
  dsimp only
  rw [if_neg (gauge_out_of_use hx hgauge), maxLevelOf_eq hdata, natUpTo_natCast hn]
  dsimp only
  rw [hset, massOf_tankSet hx]
  rfl

end TankNamed

/-- Settles O28. -/
theorem densityAndSoundingAreSet : Obligations.DensityAndSoundingAreSet := by
  refine ⟨fun k s tk dn hasked hcall => ?_, fun k s tk lv hasked hcall => ?_⟩
  · have hexec : exec (.dens k) s = .next (dens k tk dn s) :=
      (exec_asked (r := .dens tk dn) hasked).trans (congrArg _ (whenAdmitted_withProfile hcall .console k _))
    refine ⟨fun hnone => ?_, fun i d x htk hi hdata hx => ?_⟩
    · rw [hexec, dens, tankNamed_eq_none hnone]
      rfl
    · subst htk
      rw [dens_accepted k hi hdata hx] at hexec
      obtain ⟨htanks, hengine, hreplied⟩ := reply_tankSet s i
        { x with density := clampDensity dn, mass := massAt d.points x.level (clampDensity dn) } k
        (if within 1000 1050 dn then .ok else .clamped)
        [(.RV, .num (clampDensity dn)), (.RV, .num (massAt d.points x.level (clampDensity dn)))]
      refine ⟨_, hexec, changesOnly_of_exec hexec, htanks, hengine, ?_⟩
      simp only [← within_iff]
      exact hreplied
  · have hexec : exec (.sndg k) s = .next (sndg k tk lv s) :=
      (exec_asked (r := .sndg tk lv) hasked).trans (congrArg _ (whenAdmitted_withProfile hcall .console k _))
    refine ⟨fun hnone => ?_, fun i d x htk hi hdata hx => ⟨fun huse => ?_, fun hgauge => ⟨fun hout => ?_, fun n hlv hn => ?_⟩⟩⟩
    · rw [hexec, sndg, tankNamed_eq_none hnone]
      rfl
    · rw [hexec, htk, sndg_gaugeInUse k hi hdata hx lv huse]
    · rw [hexec, htk, sndg_outOfRange k hi hdata hx hgauge hout]
    · subst htk hlv
      rw [sndg_accepted k hi hdata hx hgauge hn] at hexec
      exact ⟨_, hexec, changesOnly_of_exec hexec, reply_tankSet s i
        { x with level := n, source := .manual, mass := massAt d.points n x.density } k .ok
        [(.RV, .num n), (.RV, .num (massAt d.points n x.density))]⟩

end Sys2Proof.Machine
end

section
/-! PROOFS. The queries: their tests, and the fields of the records they answer with (R30, R45, R46, R67, R82, R103, R106, R109, R131, R165, R186; log 17, 18, 49, 50). -/

namespace Sys2Proof.Machine

/-! ### The tests of the queries -/

/-- A GQRY names a tank or a channel, not both (R46). -/
theorem gqry_format {tk gc : Option Int} (h : tk.isSome = gc.isSome) (k : Nat) (s : State) : gqry k tk gc s = reply s .console k .format [] := by
  cases tk with
  | none =>
    cases gc with
    | none => rfl
    | some y => cases h
  | some x =>
    cases gc with
    | none => cases h
    | some y => rfl

theorem gqry_tank {s : State} {i : Nat} (hi : i ≤ 23) (hdata : tankData s i ≠ none) (hrec : s.tanks[i]? ≠ none) (k : Nat) :
    gqry k (some (i : Int)) none s = reply s .console k .ok (tankFields s i) := by
  obtain ⟨d, hd⟩ := Option.ne_none_iff_exists'.1 hdata
  obtain ⟨x, hx⟩ := Option.ne_none_iff_exists'.1 hrec
  rw [gqry, tankNamed_declared hi hd hx]

theorem orderNamed_eq_none {s : State} {x : Int} (h : ∀ o, some o ∈ s.orders.slots → x ≠ o.id) : orderNamed s x = none := by
  by_cases hin : ((1 : Nat) : Int) ≤ x ∧ x ≤ ((255 : Nat) : Int)
  · obtain ⟨id, rfl⟩ := Int.eq_ofNat_of_zero_le (by omega : 0 ≤ x)
    rw [orderNamed, natIn_inside (Int.ofNat_le.1 hin.1) (Int.ofNat_le.1 hin.2)]
    refine Option.eq_none_iff_forall_not_mem.2 fun o ho => ?_
    obtain ⟨hmem, hid⟩ := mem_of_orderById (Option.mem_def.1 ho)
    exact h o hmem (by rw [hid])
  · rw [orderNamed, natIn_outside hin]

theorem orderNamed_of_mem {s : State} (horders : OrdersOk s.orders) {o : Order} (ho : some o ∈ s.orders.slots) :
    orderNamed s o.id = some o := by
  obtain ⟨-, -, -, hranges⟩ := id horders
  obtain ⟨hlow, hhigh, -⟩ := hranges o ho
  rw [orderNamed, natIn_inside hlow hhigh]
  exact orderById_of_mem horders ho

theorem sqry_range {s : State} {x : Int} (h : x < 1 ∨ (s.pour.plan.length : Int) < x) (k : Nat) :
    sqry k (some x) s = reply s .terminal k .range [] := by
  rw [sqry, natIn_outside (by omega)]
  rfl

theorem sqry_step {s : State} {n : Nat} (hlow : 1 ≤ n) (hhigh : n ≤ s.pour.plan.length) (k : Nat) :
    sqry k (some (n : Int)) s = answerSqry s k (stepByNumber s n) := by rw [sqry, natIn_inside hlow hhigh]

/-! ### Records as fields -/

theorem indexOf?_none {α : Type} {p : α → Bool} {xs : List α} (h : indexOf? p xs = none) : ∀ x ∈ xs, p x = false := by
  induction xs with
  | nil => simp
  | cons x xs ih =>
    unfold indexOf? at h
    split at h
    · cases h
    · next hp => exact List.forall_mem_cons.2 ⟨Bool.eq_false_iff.2 hp, ih (Option.map_eq_none_iff.1 h)⟩

/-- The tank mapped to a channel has that channel (R28, R46). -/
theorem tankOnChannel_some {ts : List Tank} {n i : Nat} (h : tankOnChannel ts n = some i) : (ts[i]?).map Tank.channel = some (some n) := by
  obtain ⟨x, hx, hchannel⟩ := indexOf?_some h
  rw [hx]
  exact congrArg some (of_decide_eq_true hchannel)

theorem tankOnChannel_none {ts : List Tank} {n : Nat} (h : tankOnChannel ts n = none) : ∀ x ∈ ts, x.channel ≠ some n :=
  fun x hx => of_decide_eq_false (indexOf?_none h x hx)

/-- Values without a field name, each in a field RV (R195; log 18). -/
def valueFields (vs : List Val) : List (Field × Val) := vs.map rv

theorem valueFields_append (vs ws : List Val) : valueFields (vs ++ ws) = valueFields vs ++ valueFields ws := List.map_append

theorem tankFields_eq {s : State} {i : Nat} {d : TankData} {x : Tank} (hdata : tankData s i = some d) (hx : s.tanks[i]? = some x) :
    tankFields s i = valueFields [.num i, .raw d.name, .num (mainCode d.main), .num (channelCode x.channel), .num (gaugeCode x.gauge),
        .num x.score, .num x.reinstatement] ++ valueFields (x.ring.map fun l : Nat => .num l)
      ++ valueFields [.num x.level, .num (levelSourceCode x.source), .num x.density, .num x.mass, .num (tankAllowance d x),
        valNat x.lastGood, .num (boolCode x.held)] := by
  simp [tankFields, hdata, tankRec, hx, valueFields, rv, rvNum]

theorem channelFields_eq {s : State} {n : Nat} {c : Channel} (hc : s.gauge.channels[n]? = some c) : channelFields s n
    = valueFields [.num c.zeroCode, .num c.gain, .num c.offset, valNat c.lastRaw, valNat (tankOnChannel s.tanks n)] := by
  rw [channelFields, hc]
  rfl

theorem resultFields_eq (r : EvalResult) : resultFields r
    = valueFields [.num (lastKindCode (resultKind r)), .num r.displacement, .num r.lcg, .num r.tMean, .num r.tAft, .num r.tFwd, .num r.trim]
      ++ valueFields ((r.sf ++ r.bm ++ r.sfUtil ++ r.bmUtil).map valOr)
      ++ valueFields [.num r.draftUtil, .num r.trimUtil, .num r.peak, .num (peakSourceCode r.peakSource), .num (bandCode (some r.band)),
        .num (resultFlags r), .num r.uptime, .num r.ballast, .num r.cargo] := by
  simp [resultFields, valueFields, rv, rvNum, Function.comp_def]

theorem resultKind_code (r : EvalResult) : lastKindCode (resultKind r) = if r.isLive then 1 else 2 := by
  unfold resultKind
  cases r.isLive <;> rfl

/-- The hull condition record without a result has an ABSENT for each field of one (R82). -/
theorem absentResult_eq : absentResult = valueFields (List.replicate (16 + 4 * 12) .absent) := by simp [absentResult, valueFields]

theorem orderFields_eq (o : Order) : orderFields o
    = valueFields [.num o.id, .num o.tank, .num (actionCode o.action), valNat o.dest, .num (targetValue o.target), .num o.priority,
        .num o.retries, .num (boolCode o.manual), .num o.targetLevel, .num o.startMass, .num o.toMove, .num o.endSource, valNat o.endDest,
        valOr (o.direction.map directionCode), .num (orderStateCode o.state), valOr (o.reason.map reasonCode), .num o.attempts]
      ++ valueFields (o.pumps.map fun n : Nat => .num n)
      ++ valueFields [valNat (if o.rank = 0 then none else some o.rank), valNat o.admitted, valNat o.started, valNat o.ended, .num o.moved,
        .num o.progress, valNat (o.stall.map Stall.expiry), valNat (o.stall.map Stall.baseline), .num (boolCode o.gaugeLost)] := by
  have hrank : (if o.rank = 0 then Val.absent else .num o.rank) = valNat (if o.rank = 0 then none else some o.rank) := by split <;> rfl
  simp [orderFields, valueFields, rv, rvNum, hrank]

theorem stepView_some {s : State} {y : Step} {h : Hold} {d : HoldData} (hhold : holdRec s y.hold = some h)
    (hdata : holdData s y.hold = some d) : stepView s (some y) =
      [(.SS, .num (stepCode y.state)), (.HD, .num y.hold), (.PT, .num y.planned), (.RN, valOr (stepReason y)), (.TY, valNat y.lastTally),
        (.FN, valNat y.final), (.MS, .num h.mass)]
      ++ valueFields [.num (holdSourceCode h.source), .raw d.name, valNat y.grantTime, valNat y.endTime, valNat y.reportSerial] := by
  simp [stepView, hhold, hdata, valOr, valNat, valueFields, rv]

theorem isLevel_iff {n : Nat} : isLevel n = true ↔ n = 0 ∨ n = 1 ∨ n = 10 ∨ n = 13 := by simp [isLevel, or_assoc]

theorem conditionFields_eq {a : Attention} {n : Nat} {c : Condition} (hc : a.conditions[n]? = some c) : conditionFields a n
    = valueFields (.num (boolCode (!isLevel n)) :: .num (boolCode c.pending) :: ((if isLevel n then [.num (boolCode c.cause)] else [])
        ++ [.num c.count, valNat c.first, valNat c.latest, .num (boolCode (decide (n ∈ a.owed)))])) := by
  cases hlevel : isLevel n <;> simp [conditionFields, hc, hlevel, valueFields, rv, rvNum]

theorem pumpView_eq {s : State} {n : Nat} {p : Pump} (hn : n ≠ 0) (hp : s.plant.pumps[n - 1]? = some p) : pumpView s n
    = valueFields [.num n, .num (if n ≤ 2 then 0 else 1), .num (pumpCode p.state), valNat p.holder, .num p.failures, .num p.runSeconds,
        .num (boolCode p.startLine), .num (boolCode (runningOn s.plant n)), .num (boolCode (provenOn s.plant n))] := by
  rw [pumpView, pumpRec, if_neg hn, hp]
  rfl

theorem mainView_eq (m : MainRec) : mainView m = valueFields (.num (mainModeCode m.mode) :: m.orders.map fun id : Nat => .num id) := by
  simp [mainView, valueFields, rv, rvNum]

theorem valveViews_eq (vs : List Valve) :
    vs.flatMap valveView = valueFields (vs.flatMap fun v => [.num (boolCode v.commandedOpen), .num (valveCode v.state), .num v.users]) := by
  rw [valueFields, List.map_flatMap]
  rfl

/-- Settles O29. -/
theorem queriesChangeNothing : Obligations.QueriesChangeNothing := by
  refine ⟨fun k s tk gc hasked => ?_, fun k s hasked => exec_asked (r := .hqry) hasked, fun k s oi hasked => ?_, fun k s st hasked => ?_,
    fun k s hasked => exec_asked (r := .aqry) hasked, fun k s hasked hcall => ?_, ?_⟩
  · have hexec : exec (.gqry k) s = .next (gqry k tk gc s) := exec_asked (r := .gqry tk gc) hasked
    rw [hexec]
    refine ⟨fun h => congrArg _ (gqry_format h k s), ?_, ?_⟩
    · rintro x rfl rfl
      refine ⟨fun hnone => ?_, ?_⟩
      · rw [gqry, tankNamed_eq_none hnone]
        rfl
      · rintro i rfl hi hdata hrec
        rw [gqry_tank hi hdata hrec]
    · rintro x rfl rfl
      refine ⟨fun hout => ?_, ?_⟩
      · rw [gqry, channelNamed, natUpTo_eq_none hout]
        rfl
      · rintro n rfl hn
        rw [gqry, channelNamed, natUpTo_natCast hn]
  · have hexec : exec (.oqry k) s = .next (oqry k oi s) := exec_asked (r := .oqry oi) hasked
    rw [hexec]
    refine ⟨fun hnone => by rw [hnone]; rfl, ?_⟩
    rintro x rfl
    refine ⟨fun hother => ?_, ?_⟩
    · rw [oqry, orderNamed_eq_none hother]
      rfl
    · rintro o horders ho rfl
      rw [oqry, orderNamed_of_mem horders ho]
  · have hexec : exec (.sqry k) s = .next (sqry k st s) := exec_asked (r := .sqry st) hasked
    rw [hexec]
    refine ⟨fun hnone => by rw [hnone]; rfl, ?_⟩
    rintro x rfl
    refine ⟨fun hout => congrArg _ (sqry_range hout k), ?_⟩
    rintro n rfl hlow hhigh
    rw [sqry_step hlow hhigh]
    rfl
  · have hadmitted : withProfile s.call = true := by simpa [withProfile] using hcall
    refine (exec_asked (r := .xovr none) hasked).trans (congrArg _ ?_)
    exact if_pos hadmitted
  · intro nat opt yes rvs
    have hnat : nat = valNat := funext fun x => by cases x <;> rfl
    have hopt : opt = valOr := funext fun x => by cases x <;> rfl
    have hyes : yes = fun b => .num (boolCode b) := rfl
    have hrvs : rvs = valueFields := rfl
    clear_value nat opt yes rvs
    subst hnat hopt hyes hrvs
    refine ⟨fun s i d x hdata hx => ?_, fun s n c hc => ⟨channelFields_eq hc, fun i => tankOnChannel_some, tankOnChannel_none⟩, fun r => ?_,
      fun s => ?_, fun o => ⟨rfl, ?_⟩, fun s y h d hhold hdata => ?_, fun s => ⟨rfl, ?_⟩, fun a n c hc => ?_, fun s p1 p2 p3 p4 hpumps => ?_, ?_⟩
    · rw [tankFields_eq hdata hx]
      simp only [valueFields_append]
      cases x.channel <;> rfl
    · rw [resultFields_eq, resultKind_code]
      simp only [valueFields_append, resultFlags]
    · rw [hullFields, absentResult_eq, runningKind, hullBand]
      dsimp only
      cases s.hull.live <;> rcases s.engine.running with _ | ⟨_ | _, _⟩ <;> rfl
    · rw [orderFields_eq]
      simp only [valueFields_append]
      cases o.target <;> rfl
    · rw [stepView_some hhold hdata, stepReason]
      cases y.haltCause <;> rfl
    · rw [currentNumber]
      cases currentStep s <;> rfl
    · intro level cause after
      have hlevel : isLevel n = decide level := Bool.eq_iff_iff.2 (isLevel_iff.trans decide_eq_true_iff.symm)
      rw [conditionFields_eq hc, hlevel]
      by_cases h : level <;> simp [cause, after, h]
    · rw [plantView, pumpView_eq (by decide) (by rw [hpumps]; rfl), pumpView_eq (by decide) (by rw [hpumps]; rfl),
        pumpView_eq (by decide) (by rw [hpumps]; rfl), pumpView_eq (by decide) (by rw [hpumps]; rfl), mainView_eq, mainView_eq, valveViews_eq]
      rfl
    · refine ⟨rfl, rfl, rfl, rfl, rfl, fun f => ⟨rfl, rfl⟩, rfl, rfl, rfl, rfl, rfl, rfl, rfl, rfl, rfl, rfl, rfl, rfl, rfl, rfl, rfl, rfl⟩

end Sys2Proof.Machine
end

section
/-! PROOFS. Notices at the order engine: a level notice and a gauge-lost notice for one order, and how an order stops (R112, R121, R122, R125 to R127). -/

namespace Sys2Proof.Machine

/-! ### Reading the order table -/

theorem orderById_congr {s u : State} (h : u.orders.slots = s.orders.slots) (id : Nat) : orderById u id = orderById s id := by
  rw [orderById, orderById, h]

/-- A changed order is found under the id it keeps. -/
theorem orderById_modOrder {s : State} {id : Nat} {o : Order} (ho : orderById s id = some o) {f : Order → Order} (hf : (f o).id = id) :
    orderById (modOrder s id f) id = some (f o) := by
  change ((s.orders.slots.map fun x => x.map fun c => if c.id = id then f c else c).filterMap fun x => x).find? (fun c => c.id = id) = _
  unfold orderById at ho
  generalize s.orders.slots = slots at ho ⊢
  induction slots with
  | nil => cases ho
  | cons x slots ih =>
    cases x with
    | none => exact ih ho
    | some c =>
      have hcons : ∀ (c : Order) (slots : List (Option Order)), ((some c :: slots).filterMap fun x => x) = c :: slots.filterMap fun x => x :=
        fun _ _ => rfl
      rw [hcons, List.find?_cons] at ho
      rw [List.map_cons, Option.map_some, hcons, List.find?_cons]
      by_cases hc : c.id = id
      · obtain rfl : c = o := by simpa [hc] using ho
        simp [hc, hf]
      · rw [decide_eq_false hc] at ho
        rw [if_neg hc, decide_eq_false hc]
        exact ih ho

theorem orderById_moveOrder {s : State} {id : Nat} {o : Order} (ho : orderById s id = some o) {f : Order → Order} (hf : (f o).id = id) :
    orderById (moveOrder s id f) id = some (f o) := by
  have hrecheck : (moveOrder s id f).orders = (modOrder s id f).orders := (recheck_path _).changesOnly .orders (by decide)
  rw [orderById_congr (congrArg Orders.slots hrecheck), orderById_modOrder ho hf]

/-- The state with order `x` in the slot of order `o`. -/
def placed (s : State) (o x : Order) : State :=
  { s with orders := { s.orders with slots := s.orders.slots.map fun z => if z = some o then some x else z } }

theorem placed_self (s : State) (o : Order) : placed s o o = s := by
  have hslots : (s.orders.slots.map fun z => if z = some o then some o else z) = s.orders.slots :=
    (List.map_congr_left fun z _ => by split <;> simp_all).trans (List.map_id _)
  rw [placed, hslots]

theorem orderById_placed {s : State} (h : OrdersOk s.orders) {o x : Order} (ho : some o ∈ s.orders.slots) (hx : x.id = o.id) :
    orderById (placed s o x) o.id = some x := by
  have hmod : modOrder s o.id (fun _ => x) = placed s o x := modOrder_put h ho _
  rw [← hmod]
  exact orderById_modOrder (orderById_of_mem h ho) hx

/-- No order that needs the tank is under way: the notices for it reach none (R112). -/
theorem ordersOn_eq_nil {s : State} {i : Nat} (h : ∀ o, some o ∈ s.orders.slots → needs o i = true → terminalState o.state = true) :
    ordersOn s i = [] := by
  rw [ordersOn, List.map_eq_nil_iff, List.filter_eq_nil_iff]
  intro o ho
  obtain ⟨z, hz, rfl⟩ := List.mem_filterMap.1 ho
  intro hneeds
  rw [Bool.and_eq_true, Bool.not_eq_true'] at hneeds
  rw [h o hz hneeds.2] at hneeds
  exact absurd hneeds.1 (by decide)

/-- One order alone needs the tank: the notices for it reach that order (R112). -/
theorem ordersOn_eq_singleton {s : State} (horders : OrdersOk s.orders) {o : Order} {i : Nat} (ho : some o ∈ s.orders.slots)
    (hneeds : needs o i = true) (hlive : terminalState o.state = false)
    (honly : ∀ x, some x ∈ s.orders.slots → needs x i = true → terminalState x.state = false → x = o) : ordersOn s i = [o.id] := by
  refine List.perm_singleton.1 ((List.perm_ext_iff_of_nodup (ordersOn_nodup horders i) (List.nodup_singleton _)).2 fun id => ?_)
  rw [List.mem_singleton]
  constructor
  · intro hid
    obtain ⟨x, hx, rfl⟩ := List.mem_map.1 hid
    obtain ⟨hmem, htest⟩ := List.mem_filter.1 hx
    obtain ⟨z, hz, rfl⟩ := List.mem_filterMap.1 hmem
    rw [Bool.and_eq_true, Bool.not_eq_true'] at htest
    rw [honly x hz htest.2 htest.1]
  · rintro rfl
    exact (mem_ordersOn horders ho i).2 ⟨hlive, hneeds⟩

/-! ### How an order stops -/

theorem attemptOf_order {p : Plant} {id : Nat} {a : Attempt} (h : attemptOf p id = some a) : a.order = id := by
  unfold attemptOf at h
  simpa using List.find?_some h

/-- The state in which the released report leaves an order stopped for TARGET, DEST_FULL or NO_GAUGE (R126). -/
def stoppedState (r : Reason) : OrderState := if r = .noGauge then .failed else .done

/-- The order of a released attempt that was stopped for TARGET, DEST_FULL or NO_GAUGE (R126). -/
def releasedAs (s : State) (r : Reason) (o : Order) : Order :=
  { o with pumps := [], state := stoppedState r, ended := some (now s) }

section Stopping

variable {s : State} {id : Nat} {o : Order} {r : Reason} (ho : orderById s id = some o) (hstate : o.state = .stopping)
  (hreason : o.reason = some r) (hr : r = .target ∨ r = .destFull ∨ r = .noGauge)
include ho hstate hreason hr

theorem orderById_orderReleased (withdrawn : List Nat) : orderById (orderReleased s id withdrawn) id = some (releasedAs s r o) := by
  have hid : o.id = id := (mem_of_orderById ho).2
  have hgo : (o.state != .stopping) = false := by rw [hstate]; rfl
  unfold orderReleased
  rw [ho]
  dsimp only
  rw [hgo, hreason]
  rcases hr with rfl | rfl | rfl
  · exact orderById_moveOrder ho (f := fun o => { unpumped o with state := .done, ended := some (now s) }) hid
  · exact orderById_moveOrder ho (f := fun o => { unpumped o with state := .done, ended := some (now s) }) hid
  · exact orderById_moveOrder ho (f := fun o => { unpumped o with state := .failed, ended := some (now s) }) hid

/-- A released attempt ends its order; the pump-available notices move no order (R99, R126). -/
theorem orderById_releaseAttempt {a : Attempt} (ha : a.order = id) : orderById (releaseAttempt s a) id = some (releasedAs s r o) := by
  have hnotices : ∀ (ns : List Nat) (u : State), (ns.foldl noticeIfAvailable u).orders.slots = u.orders.slots := by
    intro ns
    induction ns with
    | nil => intro u; rfl
    | cons n ns ih =>
      intro u
      refine (ih _).trans ?_
      unfold noticeIfAvailable
      split <;> rfl
  unfold releaseAttempt
  dsimp only
  rw [orderById_congr (hnotices _ _), ha]
  have hreleased : ∀ p w, orderById (orderReleased (setPlant s p) id w) id = some (releasedAs s r o) := fun p w =>
    orderById_orderReleased (s := setPlant s p) ho hstate hreason hr w
  exact hreleased _ _

theorem orderById_checkRelease :
    orderById (checkRelease s id) id = some o ∨ orderById (checkRelease s id) id = some (releasedAs s r o) := by
  unfold checkRelease
  split
  · next a ha =>
    split
    · exact .inr (orderById_releaseAttempt ho hstate hreason hr (attemptOf_order ha))
    · exact .inl ho
  · exact .inl ho

/-- Taking down an attempt's pumps moves no order before the release (R98). -/
theorem orderById_takeDown {a : Attempt} (ha : a.order = id) :
    orderById (takeDown s a) id = some o ∨ orderById (takeDown s a) id = some (releasedAs s r o) := by
  have hpumps : Path [.plant, .attention] s
      (a.pumps.foldl takeDownPump (setPlant s (modAttempt s.plant a.order fun x => { x with phase := .takingDown, prove := none }))) :=
    ((setAttempts_path s _ _).mono (by decide)).trans (foldl_path takeDownPump_path _ _)
  have hclocks := hpumps.clocks
  have horders := hpumps.changesOnly .orders (by decide)
  unfold takeDown
  rw [ha] at hclocks horders ⊢
  dsimp only
  have hcheck := orderById_checkRelease ((orderById_congr (congrArg Orders.slots horders) id).trans ho) hstate hreason hr
  rwa [releasedAs, now, hclocks] at hcheck

theorem orderById_stopRequest :
    orderById (stopRequest s id) id = some o ∨ orderById (stopRequest s id) id = some (releasedAs s r o) := by
  unfold stopRequest
  split
  · exact .inl ho
  · next a ha =>
    have horder : a.order = id := attemptOf_order ha
    split
    · exact .inr (orderById_releaseAttempt ho hstate hreason hr horder)
    · exact orderById_takeDown ho hstate hreason hr horder
    · exact orderById_takeDown ho hstate hreason hr horder
    · exact .inl ho

end Stopping

/-- A running order stopped for TARGET, DEST_FULL or NO_GAUGE is STOPPING, or its attempt has been released at once (R99, R125, R126). -/
theorem stopOrder_spec {s : State} {id : Nat} {o : Order} {r : Reason} (ho : orderById s id = some o)
    (hrunning : runningState o.state = true) (hr : r = .target ∨ r = .destFull ∨ r = .noGauge) :
    ∃ o', orderById (stopOrder s id r) id = some o' ∧ o'.reason = some r ∧ o'.stall = none
      ∧ (o'.state = .stopping ∨ o'.state = stoppedState r) := by
  have hstop : stopOrder s id r
      = stopRequest (moveOrder s id fun o => { o with state := .stopping, reason := some r, stall := none }) id := by
    rw [stopOrder, ho]
    exact if_pos hrunning
  have hmoved := orderById_moveOrder ho (f := fun o => { o with state := .stopping, reason := some r, stall := none }) (mem_of_orderById ho).2
  rw [hstop]
  rcases orderById_stopRequest hmoved rfl rfl hr with hkept | hreleased
  · exact ⟨_, hkept, rfl, rfl, .inl rfl⟩
  · exact ⟨_, hreleased, rfl, rfl, .inr rfl⟩

/-! ### A level notice -/

/-- The levels say that the order has reached its target (R122). -/
def atTarget (s : State) (o : Order) : Prop :=
  if o.action = .fill then (o.targetLevel : Int) - s.settings.sl ≤ levelOf s o.tank
  else (levelOf s o.tank : Int) ≤ o.targetLevel + s.settings.sl

/-- The levels say that the destination of a TRANSFER is full (R122). -/
def atDestFull (s : State) (o : Order) : Prop :=
  o.action = .transfer ∧ ∃ d, o.dest = some d ∧ (maxLevelOf s d : Int) - s.settings.sl ≤ levelOf s d

theorem stopCondition_target {s : State} {o : Order} (h : atTarget s o) : stopCondition s o = some .target := by
  unfold atTarget at h
  cases haction : o.action with
  | fill =>
    rw [if_pos haction] at h
    simp only [stopCondition, haction, if_pos h]
  | discharge | transfer =>
    rw [if_neg (by simp [haction])] at h
    simp only [stopCondition, haction, if_pos h]

theorem stopCondition_of_not_target {s : State} {o : Order} (h : ¬atTarget s o) :
    (atDestFull s o → stopCondition s o = some .destFull) ∧ (¬atDestFull s o → stopCondition s o = none) := by
  have hother : o.action ≠ .transfer → ¬atDestFull s o := fun hne hfull => hne hfull.1
  unfold atTarget at h
  cases haction : o.action with
  | fill =>
    rw [if_pos haction] at h
    exact ⟨fun hfull => absurd hfull (hother (by simp [haction])), fun _ => by simp only [stopCondition, haction, if_neg h]⟩
  | discharge =>
    rw [if_neg (by simp [haction])] at h
    exact ⟨fun hfull => absurd hfull (hother (by simp [haction])), fun _ => by simp only [stopCondition, haction, if_neg h]⟩
  | transfer =>
    rw [if_neg (by simp [haction])] at h
    cases hdest : o.dest with
    | none => simp [atDestFull, stopCondition, haction, hdest, if_neg h]
    | some d =>
      simp only [atDestFull, stopCondition, haction, hdest, if_neg h]
      simp

/-- An order with the mass of its source tank taken into account (R121). -/
def noticed (s : State) (i : Nat) (o : Order) : Order := if o.tank = i then withProgress (massOf s i) o else o

theorem movedMass_eq (o : Order) (mass : Nat) : movedMass o mass = if o.action = .fill then mass - o.startMass else o.startMass - mass := by
  cases haction : o.action <;> simp [movedMass, haction]

theorem noticed_state (s : State) (i : Nat) (o : Order) : (noticed s i o).state = o.state := by
  unfold noticed
  split <;> rfl

theorem noticed_id (s : State) (i : Nat) (o : Order) : (noticed s i o).id = o.id := by
  unfold noticed
  split <;> rfl

/-- The stop condition reads levels, target and tanks, which a notice leaves alone (R122). -/
theorem stopCondition_noticed (s : State) (i : Nat) (o : Order) : stopCondition (placed s o (noticed s i o)) (noticed s i o) = stopCondition s o := by
  unfold noticed
  split <;> rfl

section OneOrder

variable {s : State} {i : Nat} {o : Order} (horders : OrdersOk s.orders) (ho : some o ∈ s.orders.slots) (hon : ordersOn s i = [o.id])
include horders ho hon

theorem levelNotice_admitting (hstate : o.state = .admitting) : levelNotice s i = s := by
  rw [levelNotice, hon, List.foldl_cons, List.foldl_nil, levelNoticeFor, orderById_of_mem horders ho]
  exact if_pos hstate

theorem levelNotice_completion (hstate : o.state ≠ .admitting) : levelNotice s i = completionTest (placed s o (noticed s i o)) o.id := by
  have hplaced : (if o.tank = i then modOrder s o.id (withProgress (massOf s i)) else s) = placed s o (noticed s i o) := by
    unfold noticed
    split
    · exact modOrder_put horders ho _
    · exact (placed_self s o).symm
  rw [levelNotice, hon, List.foldl_cons, List.foldl_nil, levelNoticeFor, orderById_of_mem horders ho]
  dsimp only
  rw [if_neg hstate, hplaced]

theorem levelNotice_moves (hstate : o.state ≠ .admitting) (h : o.state ≠ .active ∨ (¬atTarget s o ∧ ¬atDestFull s o)) :
    levelNotice s i = placed s o (noticed s i o) := by
  rw [levelNotice_completion horders ho hon hstate, completionTest, orderById_placed horders ho (noticed_id s i o)]
  dsimp only
  rw [noticed_state, stopCondition_noticed]
  rcases h with hidle | ⟨htarget, hfull⟩
  · rw [if_neg hidle]
  · rw [(stopCondition_of_not_target htarget).2 hfull]
    exact ite_self _

theorem levelNotice_stops {r : Reason} (hstate : o.state = .active) (h : stopCondition s o = some r) :
    levelNotice s i = stopOrder (placed s o (noticed s i o)) o.id r := by
  rw [levelNotice_completion horders ho hon (by rw [hstate]; decide), completionTest, orderById_placed horders ho (noticed_id s i o)]
  dsimp only
  rw [noticed_state, stopCondition_noticed, if_pos hstate, h]

/-! ### A gauge-lost notice -/

omit horders ho in
theorem gaugeLost_eq : gaugeLost s i = gaugeLostFor s o.id := by rw [gaugeLost, hon, List.foldl_cons, List.foldl_nil]

theorem gaugeLost_admitting (hstate : o.state = .admitting) : gaugeLost s i = placed s o { o with gaugeLost := true } := by
  have hmark : gaugeLostFor s o.id = modOrder s o.id fun o => { o with gaugeLost := true } := by
    rw [gaugeLostFor, orderById_of_mem horders ho]
    simp only [hstate]
  rw [gaugeLost_eq hon, hmark]
  exact modOrder_put horders ho _

theorem gaugeLost_waiting (hstate : o.state = .queued ∨ o.state = .suspended) : gaugeLost s i
    = raise (recheck (placed s o { o with state := .failed, reason := some .noGauge, ended := some (now s) })) orderFailed (some o.id) := by
  have hfail : gaugeLostFor s o.id = failOrder s o.id fun o => { o with reason := some .noGauge } := by
    rw [gaugeLostFor, orderById_of_mem horders ho]
    rcases hstate with hstate | hstate <;> simp only [hstate]
  rw [gaugeLost_eq hon, hfail]
  exact congrArg (fun u => raise (recheck u) orderFailed (some o.id))
    (modOrder_put horders ho fun o => { o with state := .failed, reason := some .noGauge, ended := some (now s) })

theorem gaugeLost_running (hstate : o.state = .lineup ∨ o.state = .starting ∨ o.state = .active) :
    gaugeLost s i = stopOrder s o.id .noGauge := by
  rw [gaugeLost_eq hon, gaugeLostFor, orderById_of_mem horders ho]
  rcases hstate with hstate | hstate | hstate <;> simp only [hstate]

theorem gaugeLost_stopping (hstate : o.state = .stopping) : gaugeLost s i = s := by
  rw [gaugeLost_eq hon, gaugeLostFor, orderById_of_mem horders ho]
  simp only [hstate]

end OneOrder

end Sys2Proof.Machine
end

section
/-! PROOFS. Scan rounds: ticks, the end of a round with the gate's estimate, and what a conversion hands to a tank (R27, R28, R32, R35, R40, R41, R156; log 1, 2, 14, 22, 33, 41). -/

namespace Sys2Proof.Machine

/-! ### Ticks and the end of a round -/

/-- The end of a round: a live request in a call, the estimate, the engine's choice, the recheck; then no round runs (R28, R156; log 33). -/
theorem endRound_eq (s : State) :
    endRound s = { recheck (choose (recomputeEstimate (liveRequested s.call s))) with gauge := { s.gauge with round := none } } := by
  have hlive : markLive s false = liveRequested s.call s := by
    unfold liveRequested
    by_cases h : s.call = .inCall ∨ s.call = .closing
    · rw [if_pos h, markLive_unmarked (callOn_iff.2 h)]
      rfl
    · rw [if_neg h, markLive_of_not_callOn (Bool.eq_false_iff.2 fun hon => h (callOn_iff.1 hon))]
  have hgauge : (endRound s).gauge = { s.gauge with round := none } := endRound_gauge s
  rw [← hlive, ← hgauge]
  rfl

theorem scanTick_not_due {s : State} (h : due s.gauge.timer s.clocks.uptime = false) : scanTick s = s := by
  rw [scanTick, show due s.gauge.timer (now s) = false from h]
  rfl

/-- The scan timer restarted with the SC in force (R27). -/
def ticked (s : State) : State := { s with gauge := { s.gauge with timer := some (s.clocks.uptime + s.settings.sc.toNat) } }

theorem scanTick_due {s : State} (h : due s.gauge.timer s.clocks.uptime = true) :
    scanTick s = if s.gauge.round.isNone then startRound (ticked s) else ticked s := by
  rw [scanTick, show due s.gauge.timer (now s) = true from h]
  rfl

theorem scanTick_running {s : State} (h : due s.gauge.timer s.clocks.uptime = true) {r : Round} (hround : s.gauge.round = some r) :
    scanTick s = ticked s := by
  rw [scanTick_due h, hround]
  rfl

theorem scanTick_starts {s : State} (h : due s.gauge.timer s.clocks.uptime = true) (hround : s.gauge.round = none)
    (hmapped : mappedChannels s.tanks ≠ []) : scanTick s
      = { s with gauge := { (ticked s).gauge with round := some { channels := mappedChannels s.tanks, position := 0 } } } := by
  rw [scanTick_due h, hround, Option.isNone_none, if_pos rfl]
  unfold startRound
  split
  · next hempty => exact absurd hempty hmapped
  · rfl

theorem scanTick_empty {s : State} (h : due s.gauge.timer s.clocks.uptime = true) (hround : s.gauge.round = none)
    (hempty : mappedChannels s.tanks = []) : scanTick s = endRound (ticked s) := by
  rw [scanTick_due h, hround, Option.isNone_none, if_pos rfl, startRound, show mappedChannels (ticked s).tanks = [] from hempty]

/-! ### The estimate -/

theorem recomputeEstimate_linked {s : State} (h : s.term.state = .up ∨ s.term.state = .detached) : recomputeEstimate s = s := by
  have hlink : linkSilent s = false := by rcases h with h | h <;> simp [linkSilent, h]
  rw [recomputeEstimate, hlink]
  rfl

theorem recomputeEstimate_idle {s : State} (h : ∀ y, currentStep s = some y → y.state ≠ .pouring ∧ y.state ≠ .halted) :
    recomputeEstimate s = s := by
  have hnone : (currentStep s).filter stepPours = none :=
    Option.filter_eq_none_iff.2 fun y hy hpours => (stepPours_iff.1 hpours).elim (h y hy).1 (h y hy).2
  rw [recomputeEstimate, hnone]
  exact ite_self _

theorem roundTrunc_sub {a b c d : Nat} (hab : b ≤ a) (hcd : d ≤ c) : (roundTrunc ((a : Int) - b) ((c : Int) - d)).toNat = (a - b) / (c - d) := by
  rw [roundTrunc, ← Nat.cast_sub hab, ← Nat.cast_sub hcd, Int.tdiv_eq_ediv_of_nonneg (Int.natCast_nonneg _), ← Int.natCast_ediv, Int.toNat_natCast]

/-- The rate of R156: the tonnes between the last two tallies over the time between them. -/
theorem tallyRate_some {y : Step} {h : Hold} {a c : Tally} (hlatest : h.latest = some a) (hprevious : h.previous = some c) :
    tallyRate y h = if y.loaderStopped = true ∨ a.tonnes ≤ c.tonnes ∨ a.arrival ≤ c.arrival then 0
      else (a.tonnes - c.tonnes) / (a.arrival - c.arrival) := by
  rw [tallyRate, hlatest, hprevious]
  simp only [Bool.or_eq_true, decide_eq_true_eq, or_assoc]
  refine ite_congr rfl (fun _ => rfl) fun hrise => ?_
  obtain ⟨-, htonnes, harrival⟩ := not_or.1 hrise |>.imp_right not_or.1
  exact roundTrunc_sub (not_le.1 htonnes).le (not_le.1 harrival).le

theorem tallyRate_none {y : Step} {h : Hold} (hmissing : h.latest = none ∨ h.previous = none) : tallyRate y h = 0 := by
  rcases hmissing with hmissing | hmissing
  · rw [tallyRate, hmissing]
  · rw [tallyRate, hmissing]
    cases h.latest <;> rfl

theorem overshootLimit_eq {s : State} (hoa : 0 ≤ s.settings.oa) (y : Step) :
    overshootLimit s y = ((y.planned : Int) * (100 + s.settings.oa) / 100).toNat := by
  rw [overshootLimit, roundTrunc, Int.tdiv_eq_ediv_of_nonneg (mul_nonneg (Int.natCast_nonneg _) (by omega))]

/-- A hold of the plan with another record. -/
def withHold (s : State) (i : Nat) (x : Hold) : State := { s with pour := { s.pour with holds := modAt s.pour.holds (i - 1) fun _ => x } }

theorem withHold_self {s : State} {i : Nat} {h : Hold} (hrec : holdRec s i = some h) : withHold s i h = s := by
  have hholds : s.pour.holds[i - 1]? = some h := by
    unfold holdRec at hrec
    split at hrec
    · cases hrec
    · exact hrec
  have hsame : (modAt s.pour.holds (i - 1) fun _ => h) = s.pour.holds := by
    refine List.ext_getElem? fun j => ?_
    rw [modAt_getElem?]
    split
    · next hj => rw [← hj, hholds, Option.map_some]
    · rfl
  rw [withHold, hsame]

section Estimated

variable {s : State} {y : Step} {b n : Nat} {h : Hold} (hlink : s.term.state = .quiet ∨ s.term.state = .lost)
  (hstep : currentStep s = some y) (hpours : y.state = .pouring ∨ y.state = .halted) (hbase : y.base = some b)
  (htally : y.lastTally = some n) (hrec : holdRec s y.hold = some h)

include hbase htally in
theorem estimateAt_eq : estimateAt s y h = max (b + n) (min (b + overshootLimit s y)
    (b + n + tallyRate y h * (now s - ((h.latest.map Tally.arrival).getD (now s))))) := by
  rw [estimateAt, talliedMass, hbase, htally]
  rfl

include hlink hstep hpours htally hrec

theorem recomputeEstimate_within (hlimit : n ≤ overshootLimit s y) : recomputeEstimate s
    = markLive (withHold s y.hold { h with mass := estimateAt s y h, source := .estimate, estimate := some (estimateAt s y h) }) false := by
  have hsilent : linkSilent s = true := by simpa [linkSilent] using hlink
  have hfilter : (currentStep s).filter stepPours = some y := by simp [hstep, stepPours_iff.2 hpours]
  have hle : y.lastTally.getD 0 ≤ overshootLimit s y := by rw [htally]; exact hlimit
  unfold recomputeEstimate
  rw [if_pos hsilent, hfilter]
  dsimp only
  rw [hrec]
  dsimp only
  rw [if_pos hle, modHold_of_holdRec hrec]
  rfl

theorem recomputeEstimate_above (hlimit : overshootLimit s y < n) : recomputeEstimate s = withHold s y.hold (backToTally y h) := by
  have hsilent : linkSilent s = true := by simpa [linkSilent] using hlink
  have hfilter : (currentStep s).filter stepPours = some y := by simp [hstep, stepPours_iff.2 hpours]
  have hlt : ¬y.lastTally.getD 0 ≤ overshootLimit s y := by rw [htally]; exact not_le.2 hlimit
  unfold recomputeEstimate
  rw [if_pos hsilent, hfilter]
  dsimp only
  rw [hrec]
  dsimp only
  rw [if_neg hlt, modHold_of_holdRec hrec]
  rfl

end Estimated

/-! ### A reading -/

/-- The record of a tank after a reading of its channel (R32, R35, R40, R41). -/
def readRecord (set : Settings) (d : TankData) (c : Channel) (code uptime : Nat) (x : Tank) : Tank :=
  match x.gauge, classify set d c code with
  | .normal, some level | .suspect, some level => goodReading d level uptime x
  | .normal, none | .suspect, none => badReading x
  | .withdrawn, some level => goodWhileWithdrawn d level uptime x
  | .withdrawn, none => { x with reinstatement := 0 }
  | .unmapped, _ => x

/-- What a reading tells: a level notice, a withdrawn gauge with its notice, a gauge that became SUSPECT, or nothing (R35, R40, R41). -/
def readNotice (set : Settings) (d : TankData) (c : Channel) (code i : Nat) (x : Tank) (s : State) : State :=
  match x.gauge, classify set d c code with
  | .normal, some _ | .suspect, some _ => levelNotice s i
  | .normal, none =>
    if 255 < x.score + 8 then gaugeLost (raise s gaugeWithdrawn (some i)) i
    else if 128 ≤ x.score + 8 then raise s gaugeSuspect (some i) else s
  | .suspect, none => if 255 < x.score + 8 then gaugeLost (raise s gaugeWithdrawn (some i)) i else s
  | .withdrawn, some _ => if 127 ≤ x.reinstatement then levelNotice s i else s
  | .withdrawn, none | .unmapped, _ => s

theorem readNotice_path (set : Settings) (d : TankData) (c : Channel) (code i : Nat) (x : Tank) (s : State) :
    Path ballastBlocks s (readNotice set d c code i x s) := by
  have hlost : Path ballastBlocks s (gaugeLost (raise s gaugeWithdrawn (some i)) i) :=
    ((raise_path s (by decide) _).mono (by decide)).trans (gaugeLost_path _ i)
  unfold readNotice
  split
  · exact levelNotice_path s i
  · exact levelNotice_path s i
  · exact .ite hlost (.ite ((raise_path s (by decide) _).mono (by decide)) (.refl s))
  · exact .ite hlost (.refl s)
  · exact .ite (levelNotice_path s i) (.refl s)
  · exact .refl s
  · exact .refl s

/-- The state with the record of one tank. -/
def withTank (s : State) (i : Nat) (x : Tank) : State := { s with tanks := modAt s.tanks i fun _ => x }

theorem modTank_eq {s : State} {i : Nat} {x : Tank} (hx : s.tanks[i]? = some x) (f : Tank → Tank) : modTank s i f = withTank s i (f x) :=
  congrArg (fun ts => { s with tanks := ts }) (modAt_congr_at fun y hy => by rw [Option.some.inj (hy.symm.trans hx)])

theorem withTank_self {s : State} {i : Nat} {x : Tank} (hx : s.tanks[i]? = some x) : withTank s i x = s := by
  have hsame : (modAt s.tanks i fun _ => x) = s.tanks := by
    refine List.ext_getElem? fun j => ?_
    rw [modAt_getElem?]
    split
    · next hj => rw [← hj, hx, Option.map_some]
    · rfl
  rw [withTank, hsame]

theorem badReading_gauge_suspect {x : Tank} (h : x.score + 8 ≤ 255) : (badReading x).gauge = .suspect ↔ 128 ≤ x.score + 8 := by
  rw [badReading_scored h, scoreState]
  by_cases hscore : 128 ≤ x.score + 8 <;> simp [hscore]

theorem badEvent_eq {s : State} {i : Nat} {x : Tank} (hx : s.tanks[i]? = some x) (huse : gaugeInUse x.gauge = true) :
    badEvent s i = if 255 < x.score + 8 then gaugeLost (raise (withTank s i (badReading x)) gaugeWithdrawn (some i)) i
      else if x.gauge = .normal ∧ 128 ≤ x.score + 8 then raise (withTank s i (badReading x)) gaugeSuspect (some i)
      else withTank s i (badReading x) := by
  rw [badEvent, tankRec, hx]
  dsimp only
  rw [huse, modTank_eq hx]
  by_cases hscore : 255 < x.score + 8
  · rw [if_pos hscore]
    simp [withdraws, hscore]
  · have hsuspect := badReading_gauge_suspect (not_lt.1 hscore)
    rw [if_neg hscore]
    simp [withdraws, hscore, hsuspect]

/-- A reading sets the tank's record, then tells what it has to tell (R32, R35, R40, R41). -/
theorem reading_eq {s : State} {i ch : Nat} {d : TankData} {x : Tank} {c : Channel} (hdata : tankData s i = some d)
    (hx : s.tanks[i]? = some x) (hc : s.gauge.channels[ch]? = some c) (code : Nat) : reading s i ch code
      = readNotice s.settings d c code i x (withTank s i (readRecord s.settings d c code s.clocks.uptime x)) := by
  unfold reading
  rw [hdata, tankRec, hx, hc]
  unfold readNotice readRecord
  dsimp only
  cases hgauge : x.gauge <;> cases hlevel : classify s.settings d c code
  case normal.none | suspect.none =>
    rw [badEvent_eq hx (by rw [hgauge]; rfl)]
    simp [hgauge]
  case normal.some | suspect.some => exact congrArg (levelNotice · i) (modTank_eq hx _)
  case withdrawn.some =>
    dsimp only
    rw [modTank_eq hx]
    simp only [reinstates_iff]
    rfl
  case withdrawn.none =>
    dsimp only
    rw [modTank_eq hx, hgauge]
  case unmapped.none | unmapped.some => exact (withTank_self hx).symm

end Sys2Proof.Machine
end

section
/-! PROOFS. Scan rounds settled: ticks, round ends, notices and conversions (R27, R28, R32, R35, R40, R41, R121, R122, R127, R156; log 1, 2, 14, 22, 33, 41). -/

namespace Sys2Proof.Machine

/-! ### Readings by gauge state -/

section ByState

variable {set : Settings} {d : TankData} {c : Channel} {code : Nat} {x : Tank}

theorem readRecord_inUse (uptime : Nat) (h : x.gauge = .normal ∨ x.gauge = .suspect) :
    (∀ level, classify set d c code = some level → readRecord set d c code uptime x = goodReading d level uptime x)
    ∧ (classify set d c code = none → readRecord set d c code uptime x = badReading x) := by
  constructor
  · intro level hlevel
    rcases h with h | h <;> simp [readRecord, h, hlevel]
  · intro hbad
    rcases h with h | h <;> simp [readRecord, h, hbad]

theorem readRecord_withdrawn (uptime : Nat) (h : x.gauge = .withdrawn) :
    (∀ level, classify set d c code = some level → readRecord set d c code uptime x = goodWhileWithdrawn d level uptime x)
    ∧ (classify set d c code = none → readRecord set d c code uptime x = { x with reinstatement := 0 }) := by
  constructor
  · intro level hlevel
    simp [readRecord, h, hlevel]
  · intro hbad
    simp [readRecord, h, hbad]

variable {s : State} {i : Nat}

theorem readNotice_inUse (h : x.gauge = .normal ∨ x.gauge = .suspect) :
    (∀ level, classify set d c code = some level → readNotice set d c code i x s = levelNotice s i)
    ∧ (classify set d c code = none →
      (255 < x.score + 8 → readNotice set d c code i x s = gaugeLost (raise s gaugeWithdrawn (some i)) i)
      ∧ (x.score + 8 ≤ 255 → x.gauge = .normal → 128 ≤ x.score + 8 → readNotice set d c code i x s = raise s gaugeSuspect (some i))
      ∧ (x.score + 8 ≤ 255 → x.gauge = .suspect ∨ x.score + 8 < 128 → readNotice set d c code i x s = s)) := by
  constructor
  · intro level hlevel
    rcases h with h | h <;> simp [readNotice, h, hlevel]
  · intro hbad
    refine ⟨fun hover => ?_, fun hin hnormal hsuspect => ?_, fun hin hstays => ?_⟩
    · rcases h with h | h <;> simp [readNotice, h, hbad, hover]
    · simp [readNotice, hnormal, hbad, not_lt.2 hin, hsuspect]
    · rcases h with h | h
      · have hlow : x.score + 8 < 128 := hstays.resolve_left (by simp [h])
        simp [readNotice, h, hbad, not_lt.2 hin, not_le.2 hlow]
      · simp [readNotice, h, hbad, not_lt.2 hin]

theorem readNotice_withdrawn (h : x.gauge = .withdrawn) :
    (∀ level, classify set d c code = some level →
      readNotice set d c code i x s = if 127 ≤ x.reinstatement then levelNotice s i else s)
    ∧ (classify set d c code = none → readNotice set d c code i x s = s) := by
  constructor
  · intro level hlevel
    simp [readNotice, h, hlevel]
  · intro hbad
    simp [readNotice, h, hbad]

theorem readNotice_unmapped (h : x.gauge = .unmapped) : readNotice set d c code i x s = s := by simp [readNotice, h]

end ByState

/-! ### Conversions -/

theorem conversion_no_round {s : State} (h : s.gauge.round = none) (code : Nat) : conversion code s = s := by rw [conversion, h]

/-- A channel with its last raw code (R28, R30). -/
def codeRecorded (s : State) (ch code : Nat) : State :=
  { s with gauge := { s.gauge with channels := modAt s.gauge.channels ch fun c => { c with lastRaw := some code } } }

/-- The next conversion of the round, or its end (R28). -/
def roundOn (r : Round) (s : State) : State :=
  if r.position + 1 < r.channels.length then { s with gauge := { s.gauge with round := some { r with position := r.position + 1 } } }
  else endRound s

theorem roundOn_gauge (r : Round) (s : State) : (roundOn r s).gauge
    = { s.gauge with round := if r.position + 1 < r.channels.length then some { r with position := r.position + 1 } else none } := by
  unfold roundOn
  by_cases hnext : r.position + 1 < r.channels.length
  · rw [if_pos hnext, if_pos hnext]
  · rw [if_neg hnext, if_neg hnext, endRound_gauge]

theorem roundOn_tanks (r : Round) (s : State) : (roundOn r s).tanks = s.tanks := by
  unfold roundOn
  split
  · rfl
  · exact (endRound_path s).changesOnly .tanks (by decide)

/-- What the end of a conversion leaves of gauges and tanks (R28; log 14). -/
theorem settled_roundOn (r : Round) (s : State) : (settleArbiter (roundOn r s)).tanks = s.tanks
    ∧ (settleArbiter (roundOn r s)).gauge
      = { s.gauge with round := if r.position + 1 < r.channels.length then some { r with position := r.position + 1 } else none } := by
  have hsettle := (settleArbiter_path (roundOn r s)).changesOnly
  exact ⟨(hsettle .tanks (by decide)).trans (roundOn_tanks r s), (hsettle .gauge (by decide)).trans (roundOn_gauge r s)⟩

section Converted

variable {s : State} {r : Round} {ch : Nat} {c : Channel} (hround : s.gauge.round = some r) (hch : r.channels[r.position]? = some ch) (code : Nat)
include hround hch

theorem conversion_unmapped (hnone : tankOnChannel s.tanks ch = none) :
    conversion code s = settleArbiter (roundOn r (codeRecorded s ch code)) := by
  rw [conversion, hround]
  dsimp only
  rw [channelUnderWay, hch]
  dsimp only [setGauge_tanks]
  rw [hnone]
  rfl

theorem conversion_mapped {i : Nat} (hi : tankOnChannel s.tanks ch = some i) :
    conversion code s = settleArbiter (roundOn r (reading (codeRecorded s ch code) i ch code)) := by
  rw [conversion, hround]
  dsimp only
  rw [channelUnderWay, hch]
  dsimp only [setGauge_tanks]
  rw [hi]
  rfl

/-- A conversion records its code and moves the round on or ends it (R28). -/
theorem conversion_gauge : (conversion code s).gauge
    = { (codeRecorded s ch code).gauge with
        round := if r.position + 1 < r.channels.length then some { r with position := r.position + 1 } else none } := by
  cases hi : tankOnChannel s.tanks ch with
  | none => rw [conversion_unmapped hround hch code hi, (settled_roundOn r _).2]
  | some i =>
    have hreading : (reading (codeRecorded s ch code) i ch code).gauge = (codeRecorded s ch code).gauge :=
      (reading_path _ i ch code).changesOnly .gauge (by decide)
    rw [conversion_mapped hround hch code hi, (settled_roundOn r _).2, hreading]

/-- A conversion for the channel of a tank: its record as the reading makes it, then the notice (R28, R32). -/
theorem conversion_read {i : Nat} {d : TankData} {x : Tank} (hc : s.gauge.channels[ch]? = some c) (hi : tankOnChannel s.tanks ch = some i)
    (hdata : tankData s i = some d) (hx : s.tanks[i]? = some x) :
    conversion code s = settleArbiter (roundOn r (readNotice s.settings d c code i x
      (withTank (codeRecorded s ch code) i (readRecord s.settings d c code s.clocks.uptime x)))) := by
  have hrecorded : (codeRecorded s ch code).gauge.channels[ch]? = some { c with lastRaw := some code } := by
    rw [codeRecorded, modAt_getElem?_self, hc]
    rfl
  rw [conversion_mapped hround hch code hi, reading_eq (s := codeRecorded s ch code) hdata hx hrecorded]
  rfl

end Converted

/-- No other tank's record changes (R28). -/
theorem settled_readNotice_tanks (r : Round) (set : Settings) (d : TankData) (c : Channel) (code i : Nat) (x x' : Tank) (s : State) :
    (settleArbiter (roundOn r (readNotice set d c code i x (withTank s i x')))).tanks = modAt s.tanks i fun _ => x' :=
  (settled_roundOn r _).1.trans ((readNotice_path set d c code i x (withTank s i x')).changesOnly .tanks (by decide))

/-- Settles O22. -/
theorem scanRoundsReadTheTanks : Obligations.ScanRoundsReadTheTanks := by
  refine ⟨fun s hpower => ?_, ⟨endRound_eq, fun s h => h.elim recomputeEstimate_linked recomputeEstimate_idle, ?_⟩,
    ⟨fun s i hdone => ?_, ?_⟩, fun code s hround => ?_, fun code s r ch c hpower hround hch hc => ?_⟩
  · have hexec : exec .scanPeriodTick s = .next (scanTick s) := event_powered hpower _
    rw [hexec]
    refine ⟨fun hdue => congrArg _ (scanTick_not_due hdue), fun hdue => ?_⟩
    refine ⟨fun r hround => congrArg _ (scanTick_running hdue hround), fun hround hmapped => congrArg _ (scanTick_starts hdue hround hmapped),
      fun hround hempty => ?_⟩
    have hgauge : (endRound (ticked s)).gauge = (ticked s).gauge := by rw [endRound_gauge, ticked, ← hround]
    rw [scanTick_empty hdue hround hempty] at hexec ⊢
    refine ⟨_, rfl, changesOnly_of_exec hexec, hgauge, ?_⟩
    rw [hgauge]
    rfl
  · intro s y b n h hlink hstep hpours hbase htally hrec ⟨hranges, _⟩ limit rate since e withHold'
    have hoa : 0 ≤ s.settings.oa := (within_iff.1 (hranges .OA (by decide))).1
    have hlimit : overshootLimit s y = limit := overshootLimit_eq hoa y
    have hrate : tallyRate y h = rate := by
      cases hlatest : h.latest with
      | none =>
        rw [tallyRate_none (.inl hlatest)]
        simp only [rate, hlatest]
      | some a =>
        cases hprevious : h.previous with
        | none =>
          rw [tallyRate_none (.inr hprevious)]
          simp only [rate, hlatest, hprevious]
        | some c =>
          rw [tallyRate_some hlatest hprevious]
          simp only [rate, hlatest, hprevious]
    have hsince : now s - ((h.latest.map Tally.arrival).getD (now s)) = since := by
      cases hlatest : h.latest with
      | none =>
        simp only [since, hlatest]
        exact Nat.sub_self _
      | some a =>
        simp only [since, hlatest]
        rfl
    have he : estimateAt s y h = e := by rw [estimateAt_eq hbase htally, hlimit, hrate, hsince]
    refine ⟨fun hle => ?_, fun hlt hsource => ?_, fun hlt hsource => ?_⟩
    · rw [recomputeEstimate_within hlink hstep hpours htally hrec (hlimit ▸ hle), he]
      rfl
    · rw [recomputeEstimate_above hlink hstep hpours htally hrec (hlimit ▸ hlt), backToTally, if_pos hsource, talliedMass, hbase, htally]
      rfl
    · rw [recomputeEstimate_above hlink hstep hpours htally hrec (hlimit ▸ hlt), backToTally, if_neg hsource, withHold_self hrec]
  · rw [levelNotice, gaugeLost, ordersOn_eq_nil hdone]
    exact ⟨rfl, rfl⟩
  · intro s i o horders ho hneeds hlive honly put mass moved o1 target full
    have hon := ordersOn_eq_singleton horders ho hneeds hlive honly
    have ho1 : noticed s i o = o1 := by
      simp only [noticed, withProgress, movedMass_eq, progressOf]
      rfl
    have hput : put o1 = placed s o (noticed s i o) := by rw [ho1]; rfl
    refine ⟨fun hstate => ⟨levelNotice_admitting horders ho hon hstate, gaugeLost_admitting horders ho hon hstate⟩,
      fun hstate hgoes => hput ▸ levelNotice_moves horders ho hon hstate hgoes, fun r hstate hr => ?_,
      gaugeLost_waiting horders ho hon, fun hstate => ?_, gaugeLost_stopping horders ho hon⟩
    · have hplaced := orderById_placed horders ho (noticed_id s i o)
      have hrunning : runningState (noticed s i o).state = true := by rw [noticed_state, hstate]; rfl
      rcases hr with ⟨rfl, htarget⟩ | ⟨rfl, htarget, hfull⟩
      · rw [levelNotice_stops horders ho hon hstate (stopCondition_target htarget), hput]
        exact ⟨rfl, stopOrder_spec hplaced hrunning (.inl rfl)⟩
      · rw [levelNotice_stops horders ho hon hstate ((stopCondition_of_not_target htarget).1 hfull), hput]
        exact ⟨rfl, stopOrder_spec hplaced hrunning (.inr (.inl rfl))⟩
    · have hrunning : runningState o.state = true := by rcases hstate with h | h | h <;> rw [h] <;> rfl
      rw [gaugeLost_running horders ho hon hstate]
      exact ⟨rfl, stopOrder_spec (orderById_of_mem horders ho) hrunning (.inr (.inr rfl))⟩
  · have hexec : exec (.conversionComplete code) s = event s (conversion code.val) := rfl
    rw [hexec, event, conversion_no_round hround, ite_self]
  · have hexec : exec (.conversionComplete code) s = .next (conversion code.val s) := event_powered hpower _
    refine ⟨_, hexec, changesOnly_of_exec hexec, ?_⟩
    refine ⟨conversion_gauge hround hch code.val, fun hnone => ?_, fun i d x hi hdata hx => ?_⟩
    · rw [conversion_unmapped hround hch code.val hnone]
      exact ⟨(settled_roundOn r _).1, rfl⟩
    · have hread := conversion_read hround hch code.val hc hi hdata hx
      have htanks : (conversion code.val s).tanks = modAt s.tanks i fun _ => readRecord s.settings d c code.val s.clocks.uptime x := by
        rw [hread]
        exact settled_readNotice_tanks r _ d c _ i x _ (codeRecorded s ch code.val)
      have hown : (conversion code.val s).tanks[i]? = some (readRecord s.settings d c code.val s.clocks.uptime x) := by
        rw [htanks, modAt_getElem?_self, hx]
        rfl
      refine ⟨fun j hj => by rw [htanks, modAt_getElem?_other _ _ (Ne.symm hj)], fun huse => ?_, fun hwithdrawn => ?_,
        readNotice s.settings d c code.val i x
          (withTank (codeRecorded s ch code.val) i (readRecord s.settings d c code.val s.clocks.uptime x)), ?_⟩
      · rw [hown]
        simp only [Option.some.injEq]
        exact readRecord_inUse _ huse
      · rw [hown]
        simp only [Option.some.injEq]
        exact readRecord_withdrawn _ hwithdrawn
      · rw [htanks]
        exact ⟨hread, readNotice_inUse, readNotice_withdrawn, readNotice_unmapped⟩

end Sys2Proof.Machine
end

section
/-! PROOFS. The four roundings (R48). -/

namespace Sys2Proof.Machine

theorem roundHalfUp_nearest {d : Int} (hd : 0 < d) (n : Int) :
    2 * (roundHalfUp n d * d - n) ≤ d ∧ 2 * (n - roundHalfUp n d * d) < d := by
  have hquotient : roundHalfUp n d * (2 * d) + (2 * n + d) % (2 * d) = 2 * n + d := Int.ediv_mul_add_emod _ _
  have hrest : 0 ≤ (2 * n + d) % (2 * d) := Int.emod_nonneg _ (by omega)
  have hrest' : (2 * n + d) % (2 * d) < 2 * d := Int.emod_lt_of_pos _ (by omega)
  constructor <;> linarith

theorem roundHalfAway_of_nonneg {n : Int} (hn : 0 ≤ n) (d : Int) : roundHalfAway n d = roundHalfUp n d := if_pos hn

theorem roundHalfAway_of_neg {n : Int} (hn : n < 0) (d : Int) : roundHalfAway n d = -roundHalfUp (-n) d := if_neg (not_le.2 hn)

theorem roundTrunc_of_nonneg {n d : Int} (hn : 0 ≤ n) (hd : 0 < d) :
    0 ≤ roundTrunc n d ∧ roundTrunc n d * d ≤ n ∧ n < (roundTrunc n d + 1) * d := by
  rw [roundTrunc, Int.tdiv_eq_ediv_of_nonneg hn]
  exact ⟨Int.ediv_nonneg hn hd.le, Int.ediv_mul_le n hd.ne', Int.lt_ediv_add_one_mul_self n hd⟩

theorem roundTrunc_neg (n d : Int) : roundTrunc n d = -roundTrunc (-n) d := by rw [roundTrunc, roundTrunc, Int.neg_tdiv, neg_neg]

theorem roundUp_least {d : Int} (hd : 0 < d) (n : Int) : n ≤ roundUp n d * d ∧ (roundUp n d - 1) * d < n := by
  have hquotient : roundUp n d * d + (n + d - 1) % d = n + d - 1 := Int.ediv_mul_add_emod _ _
  have hrest : 0 ≤ (n + d - 1) % d := Int.emod_nonneg _ hd.ne'
  have hrest' : (n + d - 1) % d < d := Int.emod_lt_of_pos _ hd
  rw [sub_mul]
  constructor <;> omega

/-- Settles O30: the quotients and remainders of the four divisions. -/
theorem roundingsAreExact : Obligations.RoundingsAreExact := fun n d hd =>
  ⟨roundHalfUp_nearest hd n, fun hn => roundHalfAway_of_nonneg hn d, fun hn => roundHalfAway_of_neg hn d,
    fun hn => roundTrunc_of_nonneg hn hd, fun _ => roundTrunc_neg n d, fun _ => roundUp_least hd n⟩

end Sys2Proof.Machine
end

section
/-! PROOFS. The hydrostatic table and the sums over compartments (R54 to R57). -/

namespace Sys2Proof.Machine

/-! ### The hydrostatic table -/

/-- The rows of a hydrostatic table rise in displacement (R9). -/
abbrev RowsRise (rows : List HydRow) : Prop := rows.Pairwise fun a b => a.displacement < b.displacement

/-- The rows below a displacement do not count for its values (R56). -/
theorem hydroFrom_from {before after : List HydRow} {a : HydRow} {d : Int} (h : RowsRise (before ++ a :: after)) (ha : (a.displacement : Int) ≤ d) :
    hydroFrom (before ++ a :: after) d = hydroFrom (a :: after) d := by
  induction before with
  | nil => rfl
  | cons b before ih =>
    obtain ⟨-, hrest⟩ := List.pairwise_cons.1 h
    rw [← ih hrest]
    cases before with
    | nil => rw [List.cons_append, List.nil_append, hydroFrom, if_pos ha]
    | cons c before =>
      have hca : c.displacement < a.displacement := (List.pairwise_cons.1 hrest).1 a (by simp)
      rw [List.cons_append, List.cons_append, hydroFrom, if_pos (by omega)]

theorem hydroAt_below {r : HydRow} {d : Int} (h : d < (r.displacement : Int)) (rest : List HydRow) :
    hydroAt (r :: rest) d = rowValues r true false := if_pos h

/-- From a row on, the values are those of the table that begins with it (R56). -/
theorem hydroAt_from {before after : List HydRow} {a : HydRow} {d : Int} (h : RowsRise (before ++ a :: after)) (ha : (a.displacement : Int) ≤ d) :
    hydroAt (before ++ a :: after) d = hydroFrom (a :: after) d := by
  rw [← hydroFrom_from h ha]
  cases before with
  | nil => exact if_neg (not_lt.2 ha)
  | cons b before =>
    have hba : b.displacement < a.displacement := (List.pairwise_cons.1 h).1 a (by simp)
    exact if_neg (by omega)

theorem hydroAt_row {before after : List HydRow} {r : HydRow} (h : RowsRise (before ++ r :: after)) :
    hydroAt (before ++ r :: after) r.displacement = rowValues r false false := by
  rw [hydroAt_from h le_rfl]
  cases after with
  | nil => simp [hydroFrom]
  | cons q after =>
    have hrise : r.displacement < q.displacement := (List.pairwise_cons.1 (List.pairwise_append.1 h).2.1).1 q (by simp)
    rw [hydroFrom, if_neg (by omega), if_pos le_rfl]

theorem hydroAt_between {before after : List HydRow} {a b : HydRow} {d : Int} (h : RowsRise (before ++ a :: b :: after))
    (ha : (a.displacement : Int) < d) (hb : d < b.displacement) : hydroAt (before ++ a :: b :: after) d
      = { meanDraft := between a b d a.meanDraft b.meanDraft, lcb := between a b d a.lcb b.lcb, mctc := between a b d a.mctc b.mctc,
          low := false, high := false } := by
  rw [hydroAt_from h ha.le, hydroFrom, if_neg (not_le.2 hb), if_neg (not_le.2 ha)]

theorem hydroAt_above {before : List HydRow} {r : HydRow} {d : Int} (h : RowsRise (before ++ [r])) (hr : (r.displacement : Int) < d) :
    hydroAt (before ++ [r]) d = rowValues r false true := by
  rw [hydroAt_from h hr.le, hydroFrom, decide_eq_true hr]

/-! ### Sums over compartments -/

theorem dot_eq_sum (ks : List Int) (ms : List Nat) : dot ks ms = (List.zipWith (fun (k : Int) (m : Nat) => k * m) ks ms).sum := by
  induction ks generalizing ms with
  | nil => rfl
  | cons k ks ih =>
    cases ms with
    | nil => rfl
    | cons m ms => rw [dot, ih, List.zipWith_cons_cons, List.sum_cons]

theorem dotAbs_eq_sum (ks : List Int) (as : List Nat) :
    dotAbs ks as = (List.zipWith (fun (k : Int) (a : Nat) => (k.natAbs * a : Int)) ks as).sum := by
  induction ks generalizing as with
  | nil => rfl
  | cons k ks ih =>
    cases as with
    | nil => rfl
    | cons a as => rw [dotAbs, ih, List.zipWith_cons_cons, List.sum_cons]

theorem dot_append (ks ls : List Int) (ms : List Nat) : dot (ks ++ ls) ms = dot ks (ms.take ks.length) + dot ls (ms.drop ks.length) := by
  induction ks generalizing ms with
  | nil => simp [dot]
  | cons k ks ih =>
    cases ms with
    | nil => cases ls <;> rfl
    | cons m ms => simp [dot, ih, add_assoc]

/-- An undeclared compartment adds nothing to a sum (R51). -/
theorem dot_padTo (n : Nat) (ks : List Int) (ms : List Nat) : dot (padTo n 0 ks) ms = dot ks ms := by
  unfold padTo
  generalize n - ks.length = k
  induction ks generalizing ms with
  | nil =>
    induction k generalizing ms with
    | zero => rfl
    | succ k ih =>
      cases ms with
      | nil => rfl
      | cons m ms => rw [List.nil_append] at ih ⊢; rw [List.replicate_succ, dot, ih]; simp [dot]
  | cons l ks ih =>
    cases ms with
    | nil => rfl
    | cons m ms => rw [List.cons_append, dot, ih, dot]

theorem padTo_length {α : Type} {n : Nat} {xs : List α} (h : xs.length ≤ n) (x : α) : (padTo n x xs).length = n := by simp [padTo, h]

/-- The first 24 masses are those of the tanks, the others those of the holds (R51, R55). -/
theorem dot_lcgs {p : Profile} (h : p.tanks.length ≤ 24) (ms : List Nat) : dot (lcgs p) ms
    = dot (p.tanks.map fun t => (t.lcg : Int)) (ms.take 24) + dot (p.holds.map fun t => (t.lcg : Int)) (ms.drop 24) := by
  have hlength : (padTo 24 0 (p.tanks.map fun t => (t.lcg : Int))).length = 24 := padTo_length (by simpa using h) 0
  rw [lcgs, dot_append, hlength, dot_padTo, dot_padTo]

theorem total_eq_sum (ms : List Nat) : total ms = ms.sum := List.sum_eq_foldl_nat.symm

end Sys2Proof.Machine
end

section
/-! PROOFS. Utilisations, peak and band of an evaluation (R60 to R67). -/

namespace Sys2Proof.Machine

/-! ### Limited figures -/

theorem not_within_iff {lo hi x : Int} : (!within lo hi x) = true ↔ x < lo ∨ hi < x := by
  rw [Bool.not_eq_true', ← Bool.not_eq_true, within_iff]
  omega

theorem draftClamp_eq_max (x : Int) : draftClamp x = max 0 x := by
  unfold draftClamp
  split <;> omega

theorem draftUtilRaw_eq (aft fwd dl : Int) : draftUtilRaw aft fwd dl = roundTrunc (max aft fwd * 1000) dl := by
  have hgreater : (if aft < fwd then fwd else aft) = max aft fwd := by split <;> omega
  rw [draftUtilRaw, hgreater]

/-- A utilisation lies in 0 to 9,999 (R63, R64). -/
theorem utilOf_range (raw : Int) : 0 ≤ utilOf raw ∧ utilOf raw ≤ 9999 := within_iff.1 (saturate_within (by decide) raw)

/-- A limit replaced a figure of a frame (R60 to R63). -/
theorem frameFigures_saturated (i : Inputs) (f : FrameData) : (frameFigures i f).saturated = true ↔
    let out := fun (lo hi x : Int) => x < lo ∨ hi < x
    let shearRaw := (f.sf0 : Int) + roundHalfAway (dot f.kS i.mass) 1000
    let shear := saturate (-99999999) 99999999 shearRaw
    let shearEnvRaw := (shear.natAbs : Int) + roundUp (dotAbs f.kS i.allowance) 1000
    let momentRaw := (f.bm0 : Int) + dot f.kB i.mass
    let moment := saturate (-999999999) 999999999 momentRaw
    let momentEnvRaw := (moment.natAbs : Int) + dotAbs f.kB i.allowance
    out (-99999999) 99999999 shearRaw ∨ out 0 99999999 shearEnvRaw ∨ out (-999999999) 999999999 momentRaw ∨ out 0 999999999 momentEnvRaw
      ∨ out 0 9999 (roundTrunc (saturate 0 99999999 shearEnvRaw * 1000) (if 0 ≤ shear then f.sfPos else f.sfNeg))
      ∨ out 0 9999 (roundTrunc (saturate 0 999999999 momentEnvRaw * 1000) (if 0 ≤ moment then f.hog else f.sag)) := by
  simp only [frameFigures, sfMax, bmMax, Bool.not_and, Bool.or_eq_true, not_within_iff, or_assoc]
  rfl

/-! ### The figures of the frames -/

theorem perFrame_declared (g : FrameFigures → Int) {figs : List FrameFigures} {n : Nat} {x : FrameFigures} (h : figs[n]? = some x) :
    (perFrame g figs)[n]? = some (some (g x)) := by
  obtain ⟨hn, -⟩ := List.getElem?_eq_some_iff.1 h
  rw [perFrame, padTo, List.getElem?_append_left (by simpa using hn), List.getElem?_map, h]
  rfl

theorem perFrame_absent (g : FrameFigures → Int) {figs : List FrameFigures} {n : Nat} (h : figs.length ≤ n) (hn : n < 12) :
    (perFrame g figs)[n]? = some none := by
  rw [perFrame, padTo, List.getElem?_append_right (by simpa using h), List.getElem?_replicate, if_pos (by simp; omega)]

/-! ### Peak and band -/

theorem largest_eq_max (us : List (PeakSource × Int)) : largest us = (us.map Prod.snd).foldl max 0 := by
  have hstep : (fun (m : Int) (u : PeakSource × Int) => if m < u.2 then u.2 else m) = fun m u => max m u.2 := by
    funext m u
    split <;> omega
  rw [largest, hstep, List.foldl_map]

/-- A running maximum is not below its start or an entry, and is one of them. -/
theorem foldl_max_spec (xs : List Int) (m : Int) :
    m ≤ xs.foldl max m ∧ (∀ x ∈ xs, x ≤ xs.foldl max m) ∧ (xs.foldl max m = m ∨ xs.foldl max m ∈ xs) := by
  induction xs generalizing m with
  | nil => simp
  | cons x xs ih =>
    obtain ⟨hstart, hentries, hfound⟩ := ih (max m x)
    rw [List.foldl_cons]
    refine ⟨(le_max_left _ _).trans hstart, fun y hy => ?_, ?_⟩
    · rcases List.mem_cons.1 hy with rfl | hy
      · exact (le_max_right _ _).trans hstart
      · exact hentries y hy
    · rcases hfound with hfound | hfound
      · rcases max_choice m x with hmax | hmax
        · exact .inl (hfound.trans hmax)
        · exact .inr (List.mem_cons.2 (.inl (hfound.trans hmax)))
      · exact .inr (List.mem_cons_of_mem x hfound)

theorem le_largest {us : List (PeakSource × Int)} {u : PeakSource × Int} (h : u ∈ us) : u.2 ≤ largest us := by
  rw [largest_eq_max]
  exact (foldl_max_spec _ 0).2.1 _ (List.mem_map_of_mem h)

/-- The peak of utilisations that are not negative is one of them (R65). -/
theorem exists_eq_largest {us : List (PeakSource × Int)} (hne : us ≠ []) (h : ∀ u ∈ us, 0 ≤ u.2) : ∃ u ∈ us, u.2 = largest us := by
  obtain ⟨-, -, hzero | hfound⟩ := foldl_max_spec (us.map Prod.snd) 0
  · obtain ⟨u, hu⟩ := List.exists_mem_of_ne_nil us hne
    rw [← largest_eq_max] at hzero
    exact ⟨u, hu, le_antisymm (le_largest hu) (hzero ▸ h u hu)⟩
  · rw [← largest_eq_max] at hfound
    exact List.mem_map.1 hfound

/-- The peak source is that of the first utilisation that is the peak (R65). -/
theorem firstAt_largest {us : List (PeakSource × Int)} (hne : us ≠ []) (h : ∀ u ∈ us, 0 ≤ u.2) :
    ∃ u, us.find? (fun u => u.2 = largest us) = some u ∧ firstAt us (largest us) = u.1 := by
  obtain ⟨u, hu, hpeak⟩ := exists_eq_largest hne h
  cases hfind : us.find? (fun u => u.2 = largest us) with
  | none => exact absurd hpeak (by simpa using List.find?_eq_none.1 hfind u hu)
  | some x => exact ⟨x, rfl, by rw [firstAt, hfind]⟩

theorem numbered_eq_mapIdx {α : Type} (f : Nat → α → PeakSource × Int) (n : Nat) (xs : List α) :
    numbered f n xs = xs.mapIdx fun k x => f (k + n) x := by
  induction xs generalizing n with
  | nil => rfl
  | cons x xs ih =>
    simp only [numbered, ih, List.mapIdx_cons, Nat.zero_add, Nat.add_assoc, Nat.add_comm 1]

/-- The utilisations in the order of R65. -/
theorem checksInOrder_eq (figs : List FrameFigures) (draft trim : Int) : checksInOrder figs draft trim
    = figs.mapIdx (fun n f => (.sf (n + 1), f.sfUtil)) ++ figs.mapIdx (fun n f => (.bm (n + 1), f.bmUtil)) ++ [(.draft, draft), (.trim, trim)] := by
  rw [checksInOrder, numbered_eq_mapIdx, numbered_eq_mapIdx]

/-- Every utilisation compared lies in 0 to 9,999 (R63 to R65). -/
theorem checksInOrder_range (i : Inputs) (fs : List FrameData) (draft trim : Int) :
    ∀ u ∈ checksInOrder (fs.map (frameFigures i)) (utilOf draft) (utilOf trim), 0 ≤ u.2 ∧ u.2 ≤ 9999 := by
  intro u hu
  rw [checksInOrder_eq] at hu
  simp only [List.mem_append, List.mem_mapIdx, List.mem_cons, List.not_mem_nil, or_false, List.getElem_map] at hu
  rcases hu with (⟨n, hn, rfl⟩ | ⟨n, hn, rfl⟩) | rfl | rfl
  all_goals exact utilOf_range _

theorem bandOf_green {wt peak : Int} : bandOf wt peak = .green ↔ peak ≤ wt := by
  unfold bandOf
  split_ifs <;> simp_all

theorem bandOf_amber {wt peak : Int} : bandOf wt peak = .amber ↔ wt < peak ∧ peak ≤ 1000 := by
  unfold bandOf
  split_ifs <;> simp_all

theorem bandOf_red {wt peak : Int} : bandOf wt peak = .red ↔ wt < peak ∧ 1000 < peak := by
  unfold bandOf
  split_ifs <;> simp_all

/-! ### An evaluation -/

/-- The utilisations of an evaluation in the order of R65. -/
def utilisations (i : Inputs) (r : EvalResult) : List (PeakSource × Int) :=
  checksInOrder (i.profile.frames.map (frameFigures i)) r.draftUtil r.trimUtil

theorem utilisations_ne_nil (i : Inputs) (r : EvalResult) : utilisations i r ≠ [] := by simp [utilisations, checksInOrder]

theorem utilisations_evaluate (isLive : Bool) (i : Inputs) (wt : Int) :
    ∀ u ∈ utilisations i (evaluate isLive i wt), 0 ≤ u.2 ∧ u.2 ≤ 9999 := checksInOrder_range i _ _ _

theorem evaluate_saturated (isLive : Bool) (i : Inputs) (wt : Int) :
    let r := evaluate isLive i wt
    let h := hydroAt i.profile.rows r.displacement
    let out := fun (lo hi x : Int) => x < lo ∨ hi < x
    r.saturated = true ↔ i.saturated = true ∨ out (-9999) 9999 (trimRaw r.displacement h.lcb r.lcg h.mctc) ∨ out 0 9999 (draftUtilRaw r.tAft r.tFwd i.dl)
      ∨ out 0 9999 (trimUtilRaw r.trim i.tn i.tx) ∨ ∃ f ∈ i.profile.frames, (frameFigures i f).saturated = true := by
  intro r h out
  have hmarks : r.saturated = (i.saturated || !within (-9999) 9999 (trimRaw r.displacement h.lcb r.lcg h.mctc)
      || (i.profile.frames.map (frameFigures i)).any FrameFigures.saturated || !within 0 9999 (draftUtilRaw r.tAft r.tFwd i.dl)
      || !within 0 9999 (trimUtilRaw r.trim i.tn i.tx)) := rfl
  have hframes : (i.profile.frames.map (frameFigures i)).any FrameFigures.saturated = true
      ↔ ∃ f ∈ i.profile.frames, (frameFigures i f).saturated = true := by
    simp only [List.any_map, List.any_eq_true, Function.comp_apply]
  have hout : ∀ lo hi x, (!within lo hi x) = true ↔ out lo hi x := fun lo hi x => not_within_iff
  clear_value r h out
  rw [hmarks, Bool.or_eq_true, Bool.or_eq_true, Bool.or_eq_true, Bool.or_eq_true, hframes, hout, hout, hout]
  generalize (∃ f ∈ i.profile.frames, (frameFigures i f).saturated = true) = framesMark
  tauto

/-- Settles O31: each figure is its rule's formula, and the peak is found among the utilisations in the order of R65. -/
theorem evaluationsFindPeakAndBand : Obligations.EvaluationsFindPeakAndBand := by
  refine ⟨fun r rest d h => hydroAt_below h rest, fun before after r h => hydroAt_row h, fun before after a b d h ha hb => hydroAt_between h ha hb,
    fun before r d h hr => hydroAt_above h hr, fun isLive i wt htanks => ?_⟩
  intro sum sumAbs
  have hsum : sum = dot := funext fun ks => funext fun ms => (dot_eq_sum ks ms).symm
  have hsumAbs : sumAbs = dotAbs := funext fun ks => funext fun ms => (dotAbs_eq_sum ks ms).symm
  clear_value sum sumAbs
  subst hsum hsumAbs
  intro shearRaw shear shearEnvRaw momentRaw moment momentEnvRaw sfRaw bmRaw r h trimRaw draftRaw trimUtilRaw out
  have hframe : ∀ n f, i.profile.frames[n]? = some f → (i.profile.frames.map (frameFigures i))[n]? = some (frameFigures i f) := fun n f hf => by
    rw [List.getElem?_map, hf, Option.map_some]
  have hrange := utilisations_evaluate isLive i wt
  have hchecks := checksInOrder_eq (i.profile.frames.map (frameFigures i)) r.draftUtil r.trimUtil
  have hlcg : r.lcg = roundHalfAway (momentOf i) r.displacement := rfl
  have hdraft : r.draftUtil = utilOf (draftUtilRaw r.tAft r.tFwd i.dl) := rfl
  refine ⟨?_, rfl, rfl, draftClamp_eq_max _, draftClamp_eq_max _, fun n f hf => ?_, fun n hn hn' => ?_, ?_, rfl, rfl, rfl, ?_, ?_, ?_, ?_, ?_, ?_,
    bandOf_green, bandOf_amber, bandOf_red⟩
  · rw [hlcg, momentOf, dot_lcgs htanks, add_assoc]
  · have hfigs := hframe n f hf
    exact ⟨perFrame_declared _ hfigs, perFrame_declared _ hfigs, perFrame_declared _ hfigs, perFrame_declared _ hfigs⟩
  · have hlength : (i.profile.frames.map (frameFigures i)).length ≤ n := by simpa using hn
    exact ⟨perFrame_absent _ hlength hn', perFrame_absent _ hlength hn', perFrame_absent _ hlength hn', perFrame_absent _ hlength hn'⟩
  · rw [hdraft, draftUtilRaw_eq]
    rfl
  · have hsaturated := evaluate_saturated isLive i wt
    simp only [frameFigures_saturated] at hsaturated
    rw [draftUtilRaw_eq] at hsaturated
    exact hsaturated
  · exact congrArg (fun m : Nat => (i.profile.w0 : Int) + m) (total_eq_sum _)
  · exact congrArg Nat.cast (total_eq_sum _)
  · exact congrArg Nat.cast (total_eq_sum _)
  · intro u hu
    have hu' : u ∈ utilisations i r := by rwa [← hchecks] at hu
    exact ⟨(hrange u hu').1, (hrange u hu').2, le_largest hu'⟩
  · rw [← hchecks]
    exact firstAt_largest (utilisations_ne_nil i r) fun u hu => (hrange u hu).1

end Sys2Proof.Machine
end

section
/-! PROOFS. The completion of a live evaluation (R66, R77 to R81, R155; log 1, 14, 15, 27, 39). -/

namespace Sys2Proof.Machine

/-! ### The intake of a live result -/

/-- The stop state after a live completion (R78). -/
def stopFor (s : State) (r : EvalResult) : StopState :=
  if r.band = .red ∨ (s.hull.stop = .stopped ∧ s.settings.rs < r.peak) then .stopped else .clear

theorem stopAfter_eq (s : State) (r : EvalResult) : stopAfter s.hull.stop s.settings.rs r = stopFor s r := by
  unfold stopAfter stopFor
  cases s.hull.stop with
  | clear => simp
  | stopped =>
    by_cases hred : r.band = .red
    · simp [hred]
    · simp only [bne_iff_ne, ne_eq, hred, not_false_eq_true, Bool.and_eq_true, decide_eq_true_eq, true_and, false_or, ← not_lt]
      exact ite_not _ _ _

theorem stopFor_clear {s : State} {r : EvalResult} (hstop : s.hull.stop = .clear) : stopFor s r = if r.band = .red then .stopped else .clear := by
  simp [stopFor, hstop]

theorem stopFor_stopped {s : State} {r : EvalResult} (hstop : s.hull.stop = .stopped) (hband : r.band ≠ .red) :
    stopFor s r = if s.settings.rs < r.peak then .stopped else .clear := by simp [stopFor, hstop, hband]

/-- The record replaced and its three causes reported (R77, R80; log 27). -/
def resultTaken (s : State) (r : EvalResult) : State :=
  { s with
    hull := { live := some r, stop := stopFor s r, completedAt := some s.clocks.uptime }
    attention := causeIn (causeIn (causeIn s.attention 0 (decide (r.band = .amber))) 1 (decide (r.band = .red))) 13 (r.tableLow || r.tableHigh) }

theorem reportHullCauses_taken (s : State) (r : EvalResult) :
    reportHullCauses (setHull s { live := some r, stop := stopFor s r, completedAt := some (now s) }) = resultTaken s r := by
  simp [reportHullCauses, hullBand, reportCause, resultTaken, hullAmber, hullRed, tableClamp, setHull, setAttention, now]

/-- The EXCEPTION report triggered where the band turns RED in a call (R80). -/
def resultReported (s : State) (r : EvalResult) : State :=
  if r.band = .red ∧ s.hull.live.map EvalResult.band ≠ some .red ∧ s.call = .inCall
  then trigger (resultTaken s r) .exception (currentStep (resultTaken s r)) else resultTaken s r

theorem resultReported_hull (s : State) (r : EvalResult) : (resultReported s r).hull = (resultTaken s r).hull := by
  unfold resultReported
  split
  · exact (trigger_path _ (by decide) _).changesOnly .hull (by decide)
  · rfl

/-- The hull signals sent, to the order engine and then to the pour gate (R79; log 15). -/
def resultSignalled (s : State) (r : EvalResult) : State :=
  if s.hull.stop = .clear ∧ stopFor s r = .stopped then pourHullStop (ordersHullStop (resultReported s r))
  else if stopFor s r = .clear ∧ (s.hull.stop = .stopped ∨ s.hull.live = none) then pourHullClear (ordersHullClear (resultReported s r))
  else resultReported s r

/-- A hull that is STOPPED or has no live result is not usable (R79). -/
theorem usable_eq_false {h : Hull} : usable h = false ↔ h.stop = .stopped ∨ h.live = none := by
  unfold usable
  cases h.stop <;> cases h.live <;> simp

theorem hullSignals_eq (s : State) (r : EvalResult) : hullSignals s.hull (resultReported s r) = resultSignalled s r := by
  have hhull : (resultReported s r).hull = { live := some r, stop := stopFor s r, completedAt := some s.clocks.uptime } := resultReported_hull s r
  have husable : (usable (resultReported s r).hull && !usable s.hull) = true
      ↔ stopFor s r = .clear ∧ (s.hull.stop = .stopped ∨ s.hull.live = none) := by
    rw [Bool.and_eq_true, Bool.not_eq_true', usable_eq_false, hhull]
    simp [usable]
  have hstopped : (decide (s.hull.stop = .clear) && decide ((resultReported s r).hull.stop = .stopped)) = true
      ↔ s.hull.stop = .clear ∧ stopFor s r = .stopped := by
    rw [Bool.and_eq_true, decide_eq_true_iff, decide_eq_true_iff, hhull]
  exact if_congr hstopped rfl (if_congr husable rfl rfl)

/-- A live result is taken in by the order of R77, the gate of a report-marked evaluation told last (R81). -/
theorem takeLiveResult_eq (s : State) (r : EvalResult) (m : Bool) :
    takeLiveResult s r m = if m then reportMarked (resultSignalled s r) else resultSignalled s r := by
  have honset : (redOnset s.hull r && decide ((resultTaken s r).call = .inCall)) = true
      ↔ r.band = .red ∧ s.hull.live.map EvalResult.band ≠ some .red ∧ s.call = .inCall := by
    rw [Bool.and_eq_true, decide_eq_true_iff]
    simp [redOnset, resultTaken, and_assoc]
  have hreported : (if (redOnset s.hull r && decide ((resultTaken s r).call = .inCall)) = true
      then trigger (resultTaken s r) .exception (currentStep (resultTaken s r)) else resultTaken s r) = resultReported s r := if_congr honset rfl rfl
  rw [takeLiveResult, stopAfter_eq, reportHullCauses_taken]
  rw [hreported, hullSignals_eq]

theorem takeLiveResult_hull (s : State) (r : EvalResult) (m : Bool) : (takeLiveResult s r m).hull = (resultTaken s r).hull := by
  have hsignalled : (resultSignalled s r).hull = (resultTaken s r).hull := by
    rw [← hullSignals_eq, ← resultReported_hull]
    exact (hullSignals_path _ _).changesOnly .hull (by decide)
  rw [takeLiveResult_eq, ← hsignalled]
  split
  · exact (reportMarked_path _).changesOnly .hull (by decide)
  · rfl

/-! ### The completion -/

theorem liveComplete_idle {s : State} (h : ∀ m i, s.engine.running ≠ some { kind := .live m, inputs := i }) : liveComplete s = s := by
  unfold liveComplete
  split
  · next m i hrun => exact absurd hrun (h m i)
  · rfl

theorem liveComplete_running {s : State} {m : Bool} {i : Inputs} (h : s.engine.running = some { kind := .live m, inputs := i }) :
    liveComplete s = settleArbiter (finishEvaluation (takeLiveResult s (evaluate true i s.settings.wt) m) .live) := by
  rw [liveComplete, h]

theorem liveComplete_hull {s : State} {m : Bool} {i : Inputs} (h : s.engine.running = some { kind := .live m, inputs := i }) :
    (liveComplete s).hull = (resultTaken s (evaluate true i s.settings.wt)).hull := by
  rw [liveComplete_running h, ← takeLiveResult_hull _ _ m]
  exact ((finishEvaluation_path _ _).andThen (settleArbiter_path _) (ds := ballastBlocks)).changesOnly .hull (by decide)

/-! ### The report-marked evaluation -/

theorem reportMarked_none {s : State} (h : ∀ y ∈ s.pour.plan, y.state ≠ .reporting) : reportMarked s = s := by
  have hnone : reportingStep s = none := List.find?_eq_none.2 fun y hy => by simpa using h y hy
  rw [reportMarked, hnone]

theorem nextSerial_step (s : State) :
    nextSerial s .step = s.reports.counter.bind fun n => if n < 65534 then some (n + 1) else none := by
  unfold nextSerial
  cases s.reports.counter with
  | none => rfl
  | some n =>
    by_cases hroom : n < 65534
    · simp [hroom, not_le.2 hroom]
    · simp [hroom, not_lt.1 hroom]

/-- The REPORTING step's STEP report is triggered, its serial kept, and the step is DONE (R155). -/
theorem reportMarked_reporting {s : State} {before after : List Step} {y : Step} (hplan : s.pour.plan = before ++ y :: after)
    (hbefore : ∀ z ∈ before, z.state ≠ .reporting) (hy : y.state = .reporting) :
    reportMarked s = modStep
      (setPour (trigger s .step (some y)) { (trigger s .step (some y)).pour with outstanding := nextSerial s .step }) y.number
      fun x => { x with state := .done, reportSerial := nextSerial s .step, endTime := some s.clocks.uptime } := by
  have hfind : reportingStep s = some y := by
    have hnone : before.find? (fun st => decide (st.state = .reporting)) = none := List.find?_eq_none.2 fun z hz => by simpa using hbefore z hz
    rw [reportingStep, hplan, List.find?_append, hnone, Option.none_or, List.find?_cons, hy]
    rfl
  have hclocks : (trigger s .step (some y)).clocks = s.clocks := (trigger_path s (by decide) _).changesOnly .clocks (by decide)
  rw [reportMarked, hfind]
  dsimp only
  rw [show now (setPour (trigger s .step (some y)) { (trigger s .step (some y)).pour with outstanding := nextSerial s .step })
    = s.clocks.uptime from congrArg Clocks.uptime hclocks]

/-- Settles O33. -/
theorem liveResultsSetTheStopState : Obligations.LiveResultsSetTheStopState := by
  refine ⟨fun s hidle => ?_, fun s m i hpower hrun => ?_, fun s => ⟨reportMarked_none, fun before after y hplan hbefore hy => ?_⟩⟩
  · have hexec : exec .liveEvaluationComplete s = event s liveComplete := rfl
    rw [hexec, event, liveComplete_idle hidle, ite_self]
  · intro r
    have hexec : exec .liveEvaluationComplete s = .next (liveComplete s) := event_powered hpower _
    have hstop : (liveComplete s).hull.stop = stopFor s r := congrArg Hull.stop (liveComplete_hull hrun)
    refine ⟨_, hexec, changesOnly_of_exec hexec, congrArg Hull.live (liveComplete_hull hrun), congrArg Hull.completedAt (liveComplete_hull hrun),
      fun hclear hband => ?_, fun hclear hband => ?_, fun hstopped hband => ?_, fun hstopped hband hpeak => ?_, fun hstopped hband hpeak => ?_, ?_⟩
    · rw [hstop, stopFor_clear hclear, if_pos hband]
    · rw [hstop, stopFor_clear hclear, if_neg hband]
    · rw [hstop]
      exact if_pos (.inl hband)
    · rw [hstop, stopFor_stopped hstopped hband, if_pos hpeak]
    · rw [hstop, stopFor_stopped hstopped hband, if_neg (not_lt.2 hpeak)]
    · rw [liveComplete_running hrun, takeLiveResult_eq]
      rfl
  · rw [reportMarked_reporting hplan hbefore hy, nextSerial_step]
    rfl

end Sys2Proof.Machine
end

section
/-! PROOFS. The completion of a preview (R49, R74, R75, R115, R144; log 1, 14, 18). -/

namespace Sys2Proof.Machine

/-! ### The completion -/

theorem previewComplete_idle {s : State} (h : ∀ e x i, s.engine.running ≠ some { kind := .preview e x, inputs := i }) : previewComplete s = s := by
  unfold previewComplete
  split
  · next e x i hrun => exact absurd hrun (h e x i)
  · rfl

theorem exec_previewComplete {s : State} {e : PreviewEntry} {x : Option Int} {i : Inputs} (hpower : s.powered = true)
    (hrun : s.engine.running = some { kind := .preview e x, inputs := i }) : exec .previewComplete s
      = .next (settleArbiter (finishEvaluation (handPreview s e.requester (evaluate false i s.settings.wt) x) .preview)) := by
  have hexec : exec .previewComplete s = .next (previewComplete s) := event_powered hpower _
  rw [hexec, previewComplete, hrun]

/-- Without a run owed the engine's next choice ends the event (R49, R71). -/
theorem settleArbiter_finish {u : State} (h : u.orders.runOwed = false) (k : LastKind) :
    settleArbiter (finishEvaluation u k) = finishEvaluation u k := by
  have horders : (finishEvaluation u k).orders = u.orders := (finishEvaluation_path u k).changesOnly .orders (by decide)
  exact settleArbiter_none _ (by rw [horders, h])

theorem finished_path (u : State) (k : LastKind) : Path ballastBlocks u (settleArbiter (finishEvaluation u k)) :=
  (finishEvaluation_path u k).andThen (settleArbiter_path _)

/-! ### The order of an admission -/

theorem answerOrdr_slot {o : Order} {k : Nat} (h : o.slot = some k) (s : State) (oc : Oc) (fs : List (Field × Val)) :
    answerOrdr s o oc fs = reply s .console k oc fs := by rw [answerOrdr, h]

theorem orderById_dropOrder (s : State) (id : Nat) : orderById (dropOrder s id) id = none := by
  refine List.find?_eq_none.2 fun o ho => ?_
  obtain ⟨z, hz, hzo⟩ := List.mem_filterMap.1 ho
  obtain ⟨y, -, rfl⟩ := List.mem_map.1 hz
  cases y with
  | none => cases hzo
  | some c =>
    by_cases hc : c.id = id
    · simp [hc] at hzo
    · have hco : c = o := by simpa [hc] using hzo
      simpa [← hco] using hc

/-- A refused ORDR leaves its slot, no other order changed, and is answered (R115). -/
theorem refusedOrdr_spec {s : State} {o : Order} {k : Nat} (hslot : o.slot = some k) (oc : Oc) :
    let t := answerOrdr (dropOrder s o.id) o oc []
    ChangesOnly [.orders, .console] s t ∧ t.orders = (dropOrder s o.id).orders ∧ orderById t o.id = none ∧ Replied s t .console k oc [] := by
  intro t
  have hdrop : ChangesOnly [.orders] s (dropOrder s o.id) := setOrders_changesOnly (by decide) s _
  have hanswer : Path [.console] (dropOrder s o.id) t := answerOrdr_path _ o oc []
  have horders : t.orders = (dropOrder s o.id).orders := hanswer.changesOnly .orders (by decide)
  refine ⟨(hdrop.mono (by decide)).trans (hanswer.changesOnly.mono (by decide)), horders, ?_, ?_⟩
  · rw [orderById_congr (congrArg Orders.slots horders), orderById_dropOrder]
  · rw [Replied, show t = reply (dropOrder s o.id) .console k oc [] from answerOrdr_slot hslot _ oc []]
    exact reply_port_congr (s := dropOrder s o.id) (t := s) rfl rfl k oc []

/-- A change of one order leaves the others as they are. -/
theorem orderById_modOrder_other {s : State} {id j : Nat} (hj : j ≠ id) {f : Order → Order} (hf : ∀ o, (f o).id = o.id) :
    orderById (modOrder s id f) j = orderById s j := by
  change ((s.orders.slots.map fun x => x.map fun c => if c.id = id then f c else c).filterMap fun x => x).find? (fun c => c.id = j)
    = (s.orders.slots.filterMap fun x => x).find? fun c => c.id = j
  induction s.orders.slots with
  | nil => rfl
  | cons x slots ih =>
    cases x with
    | none => exact ih
    | some c =>
      have hcons : ∀ (c : Order) (slots : List (Option Order)), ((some c :: slots).filterMap fun x => x) = c :: slots.filterMap fun x => x :=
        fun _ _ => rfl
      rw [List.map_cons, Option.map_some, hcons, hcons, List.find?_cons, List.find?_cons, ih]
      by_cases hc : c.id = id
      · have hne : c.id ≠ j := fun h => hj (h.symm.trans hc)
        rw [if_pos hc, decide_eq_false hne, decide_eq_false ((hf c).symm ▸ hne)]
      · rw [if_neg hc]

theorem orderById_moveOrder_other {s : State} {id j : Nat} (hj : j ≠ id) {f : Order → Order} (hf : ∀ o, (f o).id = o.id) :
    orderById (moveOrder s id f) j = orderById s j := by
  have hrecheck : (moveOrder s id f).orders = (modOrder s id f).orders := (recheck_path _).changesOnly .orders (by decide)
  rw [orderById_congr (congrArg Orders.slots hrecheck), orderById_modOrder_other hj hf]

/-- The order admitted (R115). -/
def admittedOrder (s : State) (direction : Direction) (o : Order) : Order :=
  { o with state := .queued, rank := s.orders.rank + 1, direction := some direction, admitted := some (now s), slot := none }

/-- The state in which an admitted ORDR is answered: its order is QUEUED under the next rank, and calls for an arbiter run (R115, R116). -/
def orderAdmitted (s : State) (id : Nat) (direction : Direction) : State :=
  callArbiter (moveOrder (setOrders s { s.orders with rank := s.orders.rank + 1 }) id (admittedOrder s direction))

theorem orderAdmitted_spec {s : State} {o : Order} (ho : orderById s o.id = some o) (direction : Direction) :
    let u := orderAdmitted s o.id direction
    ChangesOnly [.orders, .pour, .engine] s u ∧ u.orders.rank = s.orders.rank + 1 ∧ u.orders.runOwed = true
      ∧ orderById u o.id = some (admittedOrder s direction o) ∧ ∀ j, j ≠ o.id → orderById u j = orderById s j := by
  intro u
  have hranked : ChangesOnly [.orders] s (setOrders s { s.orders with rank := s.orders.rank + 1 }) := setOrders_changesOnly (by decide) s _
  have hpath : Path [.orders, .pour, .engine] (setOrders s { s.orders with rank := s.orders.rank + 1 }) u :=
    (moveOrder_path _ _ (f := admittedOrder s direction) fun _ => ⟨fun h => h, rfl⟩).andThen (callArbiter_path _)
  have hfound : orderById (setOrders s { s.orders with rank := s.orders.rank + 1 }) o.id = some o := ho
  have hothers : ∀ j, j ≠ o.id → orderById u j = orderById (setOrders s { s.orders with rank := s.orders.rank + 1 }) j :=
    fun j hj => orderById_moveOrder_other (f := admittedOrder s direction) hj fun _ => rfl
  exact ⟨(hranked.mono (by decide)).trans hpath.changesOnly, hpath.rank, rfl, orderById_moveOrder (f := admittedOrder s direction) hfound rfl,
    hothers⟩

section Admission

variable {s : State} {o : Order} {k : Nat} (ho : orderById s o.id = some o) (hstate : o.state = .admitting) (r : EvalResult) (x : Option Int)
include ho hstate

theorem admissionResult_gaugeLost (hlost : o.gaugeLost = true) :
    admissionResult s o.id r x = answerOrdr (dropOrder s o.id) o .noGauge [] := by
  rw [admissionResult, ho]
  simp [hstate, hlost]

theorem admissionResult_red (hlost : o.gaugeLost = false) (hred : r.band = .red) :
    admissionResult s o.id r x = answerOrdr (dropOrder s o.id) o .limit [] := by
  rw [admissionResult, ho]
  simp [hstate, hlost, hred]

theorem admissionResult_admitted (hlost : o.gaugeLost = false) (hband : r.band ≠ .red) : admissionResult s o.id r x
    = answerOrdr (orderAdmitted s o.id (directionOf x r.peak)) o (if o.clamped then .clamped else .ok) (admittedFields o r x) := by
  rw [admissionResult, ho]
  simp only [hstate, hlost, hband, bne_self_eq_false, Bool.false_eq_true, if_false]
  rfl

end Admission

theorem directionOf_some (p q : Int) : directionOf (some p) q = if q < p then .relieving else .loading := rfl

theorem directionOf_relieving {p q : Int} : directionOf (some p) q = .relieving ↔ q < p := by
  rw [directionOf_some]
  split_ifs with h <;> simp [h]

theorem directionOf_loading {p q : Int} : directionOf (some p) q = .loading ↔ p ≤ q := by
  rw [directionOf_some, ← not_lt]
  split_ifs with h <;> simp [h]

/-- Settles O35, by the requester of the preview. -/
theorem previewsReachTheirRequester : Obligations.PreviewsReachTheirRequester := by
  refine ⟨fun s hidle => ?_, fun s k os x i hpower hrun => ?_, fun s o k os x i hpower hrun ho hstate hslot => ?_,
    fun s n os x i hpower howed hrun => ?_, fun p q => ⟨directionOf_relieving, directionOf_loading, rfl⟩⟩
  · have hexec : exec .previewComplete s = event s previewComplete := rfl
    rw [hexec, event, previewComplete_idle hidle, ite_self]
  · intro r
    have hreply : Path [.console] s (handPreview s (.console k) r x) := reply_path s .console k _ _
    have hfinish := finished_path (handPreview s (.console k) r x) .preview
    exact ⟨_, exec_previewComplete hpower hrun, (hreply.andThen hfinish).changesOnly, hfinish.changesOnly .console (by decide)⟩
  · intro r idle refused
    have hexec := exec_previewComplete hpower hrun
    have hrefused : ∀ oc, s.orders.runOwed = false → admissionResult s o.id r x = answerOrdr (dropOrder s o.id) o oc [] → refused oc := by
      intro oc howed hresult
      obtain ⟨hchanges, horders, hgone, hreplied⟩ := refusedOrdr_spec (s := s) hslot oc
      refine ⟨_, ?_, hchanges, horders, hgone, hreplied⟩
      rw [hexec, handPreview, hresult, settleArbiter_finish (by rw [horders]; exact howed)]
      rfl
    refine ⟨fun howed hlost => hrefused _ howed (admissionResult_gaugeLost ho hstate r x hlost),
      fun howed hlost hred => hrefused _ howed (admissionResult_red ho hstate r x hlost hred), fun hlost hband => ?_⟩
    obtain ⟨hchanges, hrank, howed, hqueued, hothers⟩ := orderAdmitted_spec ho (directionOf x r.peak)
    have hresult := admissionResult_admitted ho hstate r x hlost hband
    have hanswer : Path [.console] (orderAdmitted s o.id (directionOf x r.peak)) (admissionResult s o.id r x) := by
      rw [hresult]
      exact answerOrdr_path _ _ _ _
    have horders : (admissionResult s o.id r x).orders = (orderAdmitted s o.id (directionOf x r.peak)).orders :=
      hanswer.changesOnly .orders (by decide)
    have hread := orderById_congr (congrArg Orders.slots horders)
    refine ⟨_, hexec, (hchanges.mono (by decide)).trans (hanswer.changesOnly.mono (by decide)), horders ▸ hrank, horders ▸ howed,
      (hread _).trans hqueued, fun j hj => (hread j).trans (hothers j hj), ?_⟩
    show portOf (admissionResult s o.id r x) .console = _
    rw [hresult, answerOrdr_slot hslot]
    have hport : portOf (orderAdmitted s o.id (directionOf x r.peak)) .console = portOf s .console := hchanges .console (by decide)
    exact reply_port_congr hport (hchanges .call (by decide)) _ _ _
  · intro u
    have horders : u.orders = s.orders := (gateResult_path s _).changesOnly .orders (by decide)
    rw [exec_previewComplete hpower hrun, handPreview, settleArbiter_finish (by rw [horders, howed])]
    rfl

end Sys2Proof.Machine
end

section
/-! PROOFS. PREV: its tests in order, and the preview it queues (R70, R74). -/

namespace Sys2Proof.Machine

/-! ### The fields of a PREV -/

theorem pairUp_flatMap (ps : List (Int × Int)) : pairUp (ps.flatMap fun p => [.cm p.1, .ms p.2]) = some ps := by
  induction ps with
  | nil => rfl
  | cons p ps ih => simp [pairUp, ih]

/-- Fields that pair up are the pairs written one after the other (R74). -/
theorem eq_flatMap_of_pairUp {fs : List PrevField} {ps : List (Int × Int)} (h : pairUp fs = some ps) :
    fs = ps.flatMap fun p => [.cm p.1, .ms p.2] := by
  induction fs using pairUp.induct generalizing ps with
  | case1 =>
    cases h
    rfl
  | case2 c m rest ih =>
    rw [pairUp, Option.map_eq_some_iff] at h
    obtain ⟨qs, hqs, rfl⟩ := h
    rw [ih hqs]
    rfl
  | case3 fs hnil hpair => rw [pairUp.eq_3 fs hnil hpair] at h; cases h

theorem pairUp_eq_none {fs : List PrevField} (h : ∀ ps : List (Int × Int), fs ≠ ps.flatMap fun p => [.cm p.1, .ms p.2]) :
    pairUp fs = none :=
  Option.eq_none_iff_forall_ne_some.2 fun ps hps => h ps (eq_flatMap_of_pairUp hps)

/-- A CM that names a declared compartment names its own number (R74). -/
theorem compartmentNamed_eq {s : State} {cm : Int} (h : compartmentNamed s cm ≠ none) : compartmentNamed s cm = some cm.toNat := by
  unfold compartmentNamed natUpTo at h ⊢
  by_cases hrange : within 0 32 cm = true
  · simp only [Int.cast_ofNat_Int, hrange, if_true] at h ⊢
    exact if_pos (by_contra fun hundeclared => h (if_neg hundeclared))
  · simp [hrange] at h

/-- One compartment that is not declared leaves a PREV without overrides (R74). -/
theorem overridesOf_undeclared {s : State} {ps : List (Int × Int)} (h : ∃ p ∈ ps, compartmentNamed s p.1 = none) : overridesOf s ps = none := by
  induction ps with
  | nil =>
    obtain ⟨p, hp, -⟩ := h
    cases hp
  | cons q ps ih =>
    obtain ⟨p, hp, hnone⟩ := h
    rcases List.mem_cons.1 hp with rfl | hp
    · rw [overridesOf, hnone]
    · rw [overridesOf, ih ⟨p, hp, hnone⟩]
      cases compartmentNamed s q.1 <;> rfl

theorem overridesOf_declared {s : State} {ps : List (Int × Int)} (h : ∀ p ∈ ps, compartmentNamed s p.1 ≠ none) :
    overridesOf s ps = some (ps.map fun p => (p.1.toNat, p.2)) := by
  induction ps with
  | nil => rfl
  | cons q ps ih =>
    rw [overridesOf, compartmentNamed_eq (h q List.mem_cons_self), ih fun p hp => h p (List.mem_cons_of_mem q hp)]
    rfl

/-! ### PREV -/

/-- A requester other than the gate finds room while fewer than four such entries wait (R70). -/
theorem hasRoom_iff {s : State} {e : PreviewEntry} (he : fromGate e = false) :
    hasRoom s e = true ↔ (s.engine.previews.filter fun x => !fromGate x).length < 4 := by
  rw [hasRoom, he, Bool.false_or, decide_eq_true_iff]

theorem prev_unpaired (k : Nat) {fs : List PrevField} (h : pairUp fs = none) (s : State) : prev k fs s = reply s .console k .format [] := by
  rw [prev, h]
  rfl

section Paired

variable (k : Nat) {fs : List PrevField} {ps : List (Int × Int)} (hpairs : pairUp fs = some ps) {s : State}
include hpairs

theorem prev_tooMany (h : 6 < ps.length) : prev k fs s = reply s .console k .format [] := by
  rw [prev, hpairs]
  exact if_pos h

variable (hlength : ps.length ≤ 6)
include hlength

theorem prev_undeclared (h : overridesOf s ps = none) : prev k fs s = reply s .console k .range [] := by
  simp only [prev, hpairs, if_neg (not_lt.2 hlength), h]
  rfl

variable {os : List (Nat × Int)} (hoverrides : overridesOf s ps = some os)
include hoverrides

theorem prev_busy (h : 4 ≤ (s.engine.previews.filter fun e => !fromGate e).length) : prev k fs s = reply s .console k .busy [] := by
  have hfull : ¬hasRoom s { requester := .console k, overrides := os } = true := (hasRoom_iff rfl).not.2 (not_lt.2 h)
  simp only [prev, hpairs, if_neg (not_lt.2 hlength), hoverrides, if_neg hfull]
  rfl

theorem prev_accepted (h : (s.engine.previews.filter fun e => !fromGate e).length < 4) :
    prev k fs s = choose { hold s .console k with
      engine := { s.engine with previews := s.engine.previews ++ [{ requester := .console k, overrides := os }] } } := by
  have hroom : hasRoom s { requester := .console k, overrides := os } = true := (hasRoom_iff rfl).2 h
  simp only [prev, hpairs, if_neg (not_lt.2 hlength), hoverrides, if_pos hroom]
  rfl

end Paired

/-- Settles O36, by the tests of R74 in their order. -/
theorem prevQueuesAPreview : Obligations.PrevQueuesAPreview := by
  intro k s fs hasked hcall
  have hexec : exec (.prev k) s = .next (prev k fs s) :=
    (exec_asked (r := .prev fs) hasked).trans (congrArg _ (whenAdmitted_withProfile hcall .console k _))
  rw [hexec]
  refine ⟨fun hunpaired => congrArg _ (prev_unpaired k (pairUp_eq_none hunpaired) s), fun ps hps => ?_⟩
  have hpairs : pairUp fs = some ps := by rw [hps, pairUp_flatMap]
  refine ⟨fun hmany => congrArg _ (prev_tooMany k hpairs hmany), fun hfew => ⟨fun hundeclared => ?_, fun hdeclared => ?_⟩⟩
  · exact congrArg _ (prev_undeclared k hpairs hfew (overridesOf_undeclared hundeclared))
  · have hoverrides := overridesOf_declared hdeclared
    exact ⟨fun hfull => congrArg _ (prev_busy k hpairs hfew hoverrides hfull),
      fun hroom => congrArg _ (prev_accepted k hpairs hfew hoverrides hroom)⟩

end Sys2Proof.Machine
end

section
/-! PROOFS. The gate's checks, SREQ, the recheck and the hold timer (R73, R140 to R143, R145, R146; log 2). -/

namespace Sys2Proof.Machine

/-! ### The checks -/

/-- A companion is far enough when its order is DONE, or ACTIVE with the required progress (R141). -/
theorem companionMet_iff {s : State} {c : Companion} : companionMet s c = true
    ↔ ∃ o, orderById s c.order = some o ∧ (o.state = .done ∨ (o.state = .active ∧ c.required ≤ o.progress)) := by
  unfold companionMet
  cases orderById s c.order <;> simp

theorem ballastMet_iff {s : State} {y : Step} : ballastMet s y = true
    ↔ ∀ c ∈ y.companions, ∃ o, orderById s c.order = some o ∧ (o.state = .done ∨ (o.state = .active ∧ c.required ≤ o.progress)) := by
  simp only [ballastMet, List.all_eq_true, companionMet_iff]

theorem hullMet_iff {s : State} : hullMet s = true ↔ s.hull.stop = .clear ∧ s.hull.live ≠ none ∧ s.term.state = .up := by
  simp [hullMet, Option.isSome_iff_ne_none, and_assoc]

theorem firstUnmet_report {s : State} {y : Step} (h : s.pour.outstanding ≠ none) : firstUnmet s y = some .report := by
  have hreport : reportMet s = false := by simp [reportMet, Option.isSome_iff_ne_none, h]
  rw [firstUnmet, hreport]
  rfl

section Reported

variable {s : State} {y : Step} (hreport : s.pour.outstanding = none)
include hreport

theorem firstUnmet_ballast (h : ¬ballastMet s y = true) : firstUnmet s y = some .ballast := by
  simp [firstUnmet, reportMet, hreport, h]

theorem firstUnmet_hull (hballast : ballastMet s y = true) (h : ¬hullMet s = true) : firstUnmet s y = some .hull := by
  simp [firstUnmet, reportMet, hreport, hballast, h]

theorem firstUnmet_none (hballast : ballastMet s y = true) (h : hullMet s = true) : firstUnmet s y = none := by
  simp [firstUnmet, reportMet, hreport, hballast, h]

end Reported

/-! ### Evaluating -/

/-- A step that becomes EVALUATING while the gate has a preview under way asks for none (R143). -/
theorem enterEvaluating_waits {s : State} (h : s.pour.preview ≠ .none) (y : Step) (k : Option Nat) :
    enterEvaluating s y k = modStep s y.number fun z => { z with state := .evaluating, replyPending := k } := if_neg h

/-- From NONE the gate asks for the step's preview (R143). -/
theorem enterEvaluating_asks {s : State} (h : s.pour.preview = .none) (y : Step) (k : Option Nat) :
    let t := modStep s y.number fun z => { z with state := .evaluating, replyPending := k }
    enterEvaluating s y k = choose { t with
      pour := { t.pour with preview := .forStep y.number }
      engine := { s.engine with previews := s.engine.previews ++ [{ requester := .gate y.number, overrides := gateOverrides s y }] } } :=
  if_pos h

/-- The overrides of a companion: none once its order is DONE, else the tanks of the order at their end masses (R73). -/
theorem companionOverrides_eq {s : State} {c : Companion} {o : Order} (h : orderById s c.order = some o) :
    companionOverrides s c = if o.state = .done then [] else endOverrides o := by
  rw [companionOverrides, h]

theorem gateOverrides_eq {s : State} {y : Step} {h : Hold} {ends : Companion → List (Nat × Int)} (hrec : holdRec s y.hold = some h)
    (hends : ∀ c ∈ y.companions, companionOverrides s c = ends c) :
    gateOverrides s y = (23 + y.hold, (h.mass : Int) + y.planned) :: y.companions.flatMap ends := by
  rw [gateOverrides, hrec, List.flatMap_congr hends]
  simp

/-! ### SREQ -/

theorem whenAdmitted_inCall {s : State} (h : s.call = .inCall) (l : Link) (k : Nat) (act : State → State) :
    whenAdmitted inCallOnly l k s act = act s := by
  rw [whenAdmitted, h]
  rfl

theorem currentNamed_eq_none {s : State} {x : Int} (h : ∀ y, currentStep s = some y → x ≠ y.number) : currentNamed s x = none := by
  rw [currentNamed, Option.filter_eq_none_iff]
  exact fun y hy hx => h y hy (of_decide_eq_true hx).symm

theorem currentNamed_current {s : State} {y : Step} (h : currentStep s = some y) : currentNamed s y.number = some y := by
  rw [currentNamed, h, Option.filter_some, if_pos (decide_eq_true rfl)]

/-- The hold timer's expiry for a step that starts to wait now (R142). -/
theorem holdExpiry_eq (s : State) (y : Step) :
    let code : Int := (y.holdPeriod.map Int.ofNat).getD s.settings.hp
    holdExpiry s y = s.clocks.uptime + if code = 1 then 60 else if code = 2 then 240 else 960 := by
  intro code
  have hseconds : (holdSeconds code).toNat = if code = 1 then 60 else if code = 2 then 240 else 960 := by
    unfold holdSeconds
    split_ifs <;> rfl
  exact congrArg _ hseconds

theorem sreq_notCurrent (k : Nat) {s : State} {x : Int} (h : ∀ y, currentStep s = some y → x ≠ y.number) :
    sreq k x s = reply s .terminal k .sequence [] := by
  rw [sreq, currentNamed_eq_none h]
  rfl

section Current

variable (k : Nat) {s : State} {y : Step} (hcurrent : currentStep s = some y)
include hcurrent

theorem sreq_refused (hplanned : y.state ≠ .planned) (hblocked : y.state ≠ .blocked) :
    sreq k y.number s = reply s .terminal k .state [] := by
  simp [sreq, currentNamed_current hcurrent, hplanned, hblocked, refuse]

variable (hstate : y.state = .planned ∨ y.state = .blocked)
include hstate

/-- An SREQ that finds a check unmet waits (R142). -/
theorem sreq_unmet {r : WaitReason} (h : firstUnmet s y = some r) : sreq k y.number s = startWaiting s y k r := by
  rcases hstate with hy | hy <;> simp [sreq, currentNamed_current hcurrent, hy, h]

/-- With every check met the step becomes EVALUATING, and the reply waits (R143). -/
theorem sreq_met (h : firstUnmet s y = none) : sreq k y.number s = enterEvaluating (hold s .terminal k) y (some k) := by
  rcases hstate with hy | hy <;> simp [sreq, currentNamed_current hcurrent, hy, h]

end Current

/-! ### The recheck -/

theorem recheck_noneWaiting {s : State} (h : ∀ y ∈ s.pour.plan, y.state ≠ .waiting) : recheck s = s := by
  have hnone : waitingStep s = none := List.find?_eq_none.2 fun y hy => by simpa using h y hy
  rw [recheck, hnone]

theorem waitingStep_eq {s : State} {before after : List Step} {y : Step} (hplan : s.pour.plan = before ++ y :: after)
    (hbefore : ∀ z ∈ before, z.state ≠ .waiting) (hy : y.state = .waiting) : waitingStep s = some y := by
  have hnone : before.find? (fun z => decide (z.state = .waiting)) = none := List.find?_eq_none.2 fun z hz => by simpa using hbefore z hz
  rw [waitingStep, hplan, List.find?_append, hnone, Option.none_or, List.find?_cons, decide_eq_true hy]

theorem recheck_unmet {s : State} {y : Step} {r : WaitReason} (hwaiting : waitingStep s = some y) (h : firstUnmet s y = some r) :
    recheck s = modStep s y.number fun z => { z with waitReason := some r } := by
  simp only [recheck, hwaiting, h]

theorem recheck_met {s : State} {y : Step} (hwaiting : waitingStep s = some y) (h : firstUnmet s y = none) :
    recheck s = enterEvaluating s y none := by
  simp only [recheck, hwaiting, h]

/-! ### The hold timer -/

section Timer

variable {n : Nat} {s : State} {y : Step} (hstep : stepByNumber s n = some y)
include hstep

theorem holdExpired_notDue (h : due y.holdTimer s.clocks.uptime = false) : holdExpired n s = s := by
  simp [holdExpired, hstep, now, h]

theorem stepByNumber_number : y.number = n := by simpa using List.find?_some hstep

/-- At the expiry a WAITING or EVALUATING step is BLOCKED with TIMEOUT, and the gate's preview for it is discarded (R146). -/
theorem holdExpired_due (h : due y.holdTimer s.clocks.uptime = true) (hstate : y.state = .waiting ∨ y.state = .evaluating) :
    let u := blockStep s y rnTimeout
    holdExpired n s = if s.pour.preview = .forStep n then { u with pour := { u.pour with preview := .discard } } else u := by
  intro u
  have hactive : (decide (y.state = .waiting) || decide (y.state = .evaluating)) = true := by simpa using hstate
  have hpour : u.pour = (modStep s y.number fun z => { z with state := .blocked, holdTimer := none }).pour :=
    ((handTerminal_path _ _).andThen (ds := [.terminal, .term, .attention]) (raise_path _ (by decide) _)).changesOnly .pour (by decide)
  have hpreview : u.pour.preview = s.pour.preview := (congrArg Pour.preview hpour).trans rfl
  rw [holdExpired, hstep]
  simp only [hactive, now, h, Bool.and_self, if_true]
  rw [discardPreviewFor, hpreview]
  rfl

end Timer

/-- Settles O49, by the checks, the SREQ, the gate's preview, the recheck and the hold timer in turn. -/
theorem sreqAsksLeaveToPour : Obligations.SreqAsksLeaveToPour := by
  refine ⟨fun s y => ?_, fun k s x hasked hcall => ?_, fun s y h ends hrec hends => ?_, fun s => ⟨recheck_noneWaiting, ?_⟩,
    fun n s y hpower hstep => ?_⟩
  · intro ballast hull
    have hballast : ballastMet s y = true ↔ ballast := ballastMet_iff
    have hhull : hullMet s = true ↔ hull := hullMet_iff
    exact ⟨firstUnmet_report, fun hreport hb => firstUnmet_ballast hreport (hballast.not.2 hb),
      fun hreport hb hh => firstUnmet_hull hreport (hballast.2 hb) (hhull.not.2 hh),
      fun hreport hb hh => firstUnmet_none hreport (hballast.2 hb) (hhull.2 hh)⟩
  · have hexec : exec (.sreq k) s = .next (sreq k x s) :=
      (exec_asked (r := .sreq x) hasked).trans (congrArg _ (whenAdmitted_inCall hcall .terminal k _))
    rw [hexec]
    refine ⟨fun hother => congrArg _ (sreq_notCurrent k hother), fun y hy hx => ?_⟩
    subst hx
    refine ⟨fun hplanned hblocked => congrArg _ (sreq_refused k hy hplanned hblocked), fun hstate => ?_⟩
    refine ⟨fun r hunmet => ?_, fun hmet => ?_⟩
    · rw [sreq_unmet k hy hstate hunmet, startWaiting, holdExpiry_eq]
    · rw [sreq_met k hy hstate hmet]
      exact ⟨fun hbusy => congrArg _ (enterEvaluating_waits (s := hold s .terminal k) hbusy y (some k)),
        fun hnone => congrArg _ (enterEvaluating_asks (s := hold s .terminal k) hnone y (some k))⟩
  · refine gateOverrides_eq hrec fun c hc => ?_
    obtain ⟨o, ho, hoends⟩ := hends c hc
    rw [companionOverrides_eq ho, hoends]
  · intro before after y hplan hbefore hy put
    have hwaiting := waitingStep_eq hplan hbefore hy
    refine ⟨fun r hunmet => recheck_unmet hwaiting hunmet, fun hmet => ?_⟩
    rw [recheck_met hwaiting hmet]
    exact ⟨fun hbusy => enterEvaluating_waits hbusy y none, fun hnone => enterEvaluating_asks hnone y none⟩
  · intro u
    have hexec : exec (.holdTimerExpiry n) s = .next (holdExpired n s) := event_powered hpower _
    rw [hexec]
    refine ⟨fun hnotDue => congrArg _ (holdExpired_notDue hstep hnotDue), fun hdue hstate => congrArg _ ?_⟩
    have hblocked : blockStep s y rnTimeout = u := by
      rw [blockStep, stepByNumber_number hstep]
      rfl
    rw [holdExpired_due hstep hdue hstate, hblocked]

end Sys2Proof.Machine
end

section
/-! PROOFS. What the order engine, the arbiter and a trigger leave of the plan: they change it by rechecks alone, and a recheck moves WAITING steps only (R116 to R129, R145, R171 to R175). -/

namespace Sys2Proof.Machine

/-! ### Plans in which only WAITING steps have moved -/

/-- The plan `q` is `p` with changes of WAITING steps alone, none of which is numbered anew or finished by them (R145). -/
def WaitingMoved (p q : List Step) : Prop :=
  ∃ f : Step → Step, q = p.map f ∧ ∀ y, (f y).number = y.number ∧ stepFinished (f y) = stepFinished y ∧ (y.state ≠ .waiting → f y = y)

/-- Between the two states the plan is changed by rechecks alone (R145). -/
def RechecksOnly (s t : State) : Prop := (s.pour.plan.map Step.number).Nodup → WaitingMoved s.pour.plan t.pour.plan

theorem WaitingMoved.refl (p : List Step) : WaitingMoved p p := ⟨id, (List.map_id p).symm, fun _ => ⟨rfl, rfl, fun _ => rfl⟩⟩

theorem WaitingMoved.trans {p q r : List Step} (h : WaitingMoved p q) (h' : WaitingMoved q r) : WaitingMoved p r := by
  obtain ⟨f, rfl, hf⟩ := h
  obtain ⟨g, rfl, hg⟩ := h'
  refine ⟨g ∘ f, List.map_map, fun y => ⟨(hg _).1.trans (hf y).1, (hg _).2.1.trans (hf y).2.1, fun hy => ?_⟩⟩
  have hfy : f y = y := (hf y).2.2 hy
  rw [Function.comp_apply, hfy]
  exact (hg y).2.2 hy

theorem WaitingMoved.numbers {p q : List Step} (h : WaitingMoved p q) : q.map Step.number = p.map Step.number := by
  obtain ⟨f, rfl, hf⟩ := h
  rw [List.map_map]
  exact List.map_congr_left fun y _ => (hf y).1

/-- A step that is not WAITING stands as it was. -/
theorem WaitingMoved.mem {p q : List Step} (h : WaitingMoved p q) {y : Step} (hy : y ∈ p) (hstate : y.state ≠ .waiting) : y ∈ q := by
  obtain ⟨f, rfl, hf⟩ := h
  exact List.mem_map.2 ⟨y, hy, (hf y).2.2 hstate⟩

/-- The first unfinished step, where it is not WAITING, stays the first. -/
theorem WaitingMoved.current {p q : List Step} (h : WaitingMoved p q) {y : Step} (hy : p.find? (fun z => !stepFinished z) = some y)
    (hstate : y.state ≠ .waiting) : q.find? (fun z => !stepFinished z) = some y := by
  obtain ⟨f, rfl, hf⟩ := h
  have hfinished : (fun z => !stepFinished z) ∘ f = fun z => !stepFinished z := funext fun z => congrArg _ (hf z).2.1
  rw [List.find?_map, hfinished, hy, Option.map_some, (hf y).2.2 hstate]

theorem RechecksOnly.refl (s : State) : RechecksOnly s s := fun _ => WaitingMoved.refl _

theorem RechecksOnly.trans {s t u : State} (h : RechecksOnly s t) (h' : RechecksOnly t u) : RechecksOnly s u := fun hn =>
  (h hn).trans (h' (by rwa [(h hn).numbers]))

theorem RechecksOnly.ite {c : Prop} [Decidable c] {s t u : State} (h : RechecksOnly s t) (h' : RechecksOnly s u) :
    RechecksOnly s (if c then t else u) := by
  split
  · exact h
  · exact h'

theorem RechecksOnly.after {s t u : State} (h : RechecksOnly t u) (hplan : t.pour.plan = s.pour.plan := by rfl) : RechecksOnly s u := by
  rwa [RechecksOnly, ← hplan]

/-- What does not touch the pour gate does not touch the plan. -/
theorem Path.rechecksOnly {bs : List Block} {s t : State} (p : Path bs s t) (h : .pour ∉ bs := by decide) : RechecksOnly s t := fun _ => by
  have hpour : t.pour = s.pour := p.changesOnly .pour h
  rw [hpour]
  exact .refl _

theorem foldl_rechecksOnly {α : Type} {f : State → α → State} (h : ∀ s x, RechecksOnly s (f s x)) (xs : List α) (s : State) :
    RechecksOnly s (xs.foldl f s) := by
  induction xs generalizing s with
  | nil => exact .refl s
  | cons x xs ih => exact (h s x).trans (ih _)

theorem foldl_fst_rechecksOnly {α β : Type} {f : State × β → α → State × β} (h : ∀ acc x, RechecksOnly acc.1 (f acc x).1) (xs : List α)
    (acc : State × β) : RechecksOnly acc.1 (xs.foldl f acc).1 := by
  induction xs generalizing acc with
  | nil => exact .refl _
  | cons x xs ih => exact (h acc x).trans (ih _)

/-! ### The recheck and the triggers -/

/-- A change of the WAITING step alone, with a plan whose steps have different numbers. -/
theorem modStep_rechecksOnly {s : State} {y : Step} (hy : y ∈ s.pour.plan) (hstate : y.state = .waiting) {f : Step → Step}
    (hf : ∀ z, (f z).number = z.number) (hfinished : stepFinished (f y) = false) : RechecksOnly s (modStep s y.number f) := by
  intro hn
  refine ⟨fun z => if z = y then f y else z, List.map_congr_left fun z hz => ?_, fun z => ?_⟩
  · have hsame : z.number = y.number ↔ z = y := ⟨List.inj_on_of_nodup_map hn hz hy, congrArg Step.number⟩
    by_cases hzy : z = y
    · subst hzy
      simp
    · simp [hsame, hzy]
  · have hopen : stepFinished y = false := by simp [stepFinished, hstate]
    by_cases hzy : z = y
    · subst hzy
      simp [hf, hfinished, hopen, hstate]
    · simp [hzy]

/-- The gate's preview changes no step (R143). -/
theorem askGate_rechecksOnly (s : State) (y : Step) : RechecksOnly s (askGate s y) :=
  (placePreview_path (setPour s { s.pour with preview := .forStep y.number }) rfl).rechecksOnly

theorem recheck_rechecksOnly (s : State) : RechecksOnly s (recheck s) := by
  cases hwaiting : waitingStep s with
  | none =>
    rw [recheck, hwaiting]
    exact .refl s
  | some y =>
    have hy : y ∈ s.pour.plan := List.mem_of_find?_eq_some hwaiting
    have hstate : y.state = .waiting := by simpa using List.find?_some hwaiting
    cases hunmet : firstUnmet s y with
    | some r =>
      rw [recheck_unmet hwaiting hunmet]
      exact modStep_rechecksOnly hy hstate (fun _ => rfl) (by simp [stepFinished, hstate])
    | none =>
      rw [recheck_met hwaiting hunmet, enterEvaluating]
      have hmoved : RechecksOnly s (modStep s y.number fun z => { z with state := .evaluating, replyPending := none }) :=
        modStep_rechecksOnly hy hstate (fun _ => rfl) rfl
      exact .ite (hmoved.trans (askGate_rechecksOnly _ y)) hmoved

theorem recordLeft_rechecksOnly (s : State) (serial : Nat) : RechecksOnly s (recordLeft s serial) := by
  refine RechecksOnly.trans ?_ (recheck_rechecksOnly _)
  exact .ite (.refl s) (.refl s)

theorem joinQueue_rechecksOnly (s : State) (x : Report) : RechecksOnly s (joinQueue s x) := by
  unfold joinQueue
  split
  · exact .refl s
  · refine .ite (.refl s) (RechecksOnly.trans ?_ (recordLeft_rechecksOnly _ _))
    exact .ite (.refl s) (.refl s)

theorem trigger_rechecksOnly (s : State) (k : ReportKind) (y : Option Step) : RechecksOnly s (trigger s k y) := by
  unfold trigger
  split
  · exact .refl s
  · exact joinQueue_rechecksOnly s _

/-! ### Orders that move and stop -/

theorem moveOrder_rechecksOnly (s : State) (id : Nat) (f : Order → Order) : RechecksOnly s (moveOrder s id f) :=
  recheck_rechecksOnly (modOrder s id f)

theorem queueOrder_rechecksOnly (s : State) (id : Nat) (f : Order → Order) : RechecksOnly s (queueOrder s id f) :=
  moveOrder_rechecksOnly s id _

theorem failOrder_rechecksOnly (s : State) (id : Nat) (f : Order → Order) : RechecksOnly s (failOrder s id f) :=
  moveOrder_rechecksOnly s id _

theorem orderReleased_rechecksOnly (s : State) (id : Nat) (ns : List Nat) : RechecksOnly s (orderReleased s id ns) := by
  have hmove : ∀ f, RechecksOnly s (moveOrder s id f) := moveOrder_rechecksOnly s id
  unfold orderReleased
  split
  · exact .refl s
  · refine .ite (.refl s) ?_
    split
    case h_1 | h_2 | h_3 => exact hmove _
    case h_4 => exact .ite (.ite (hmove _) (queueOrder_rechecksOnly s id _)) (hmove _)
    case h_5 => exact .ite (hmove _) (hmove _)
    case h_6 => exact failOrder_rechecksOnly s id _
    case h_7 | h_8 | h_9 | h_10 => exact .ite (queueOrder_rechecksOnly s id _) (failOrder_rechecksOnly s id _)
    case h_11 | h_12 => exact .refl s

theorem releaseAttempt_rechecksOnly (s : State) (a : Attempt) : RechecksOnly s (releaseAttempt s a) := by
  unfold releaseAttempt
  refine RechecksOnly.trans ?_ (foldl_path noticeIfAvailable_path _ _).rechecksOnly
  exact (orderReleased_rechecksOnly _ _ _).after

theorem checkRelease_rechecksOnly (s : State) (id : Nat) : RechecksOnly s (checkRelease s id) := by
  unfold checkRelease
  split
  · exact .ite (releaseAttempt_rechecksOnly s _) (.refl s)
  · exact .refl s

theorem takeDown_rechecksOnly (s : State) (a : Attempt) : RechecksOnly s (takeDown s a) := by
  unfold takeDown
  refine RechecksOnly.trans ?_ (checkRelease_rechecksOnly _ _)
  exact (foldl_path takeDownPump_path _ _).rechecksOnly.after

theorem stopRequest_rechecksOnly (s : State) (id : Nat) : RechecksOnly s (stopRequest s id) := by
  unfold stopRequest
  split
  · exact .refl s
  · split
    · exact releaseAttempt_rechecksOnly s _
    · exact takeDown_rechecksOnly s _
    · exact takeDown_rechecksOnly s _
    · exact .refl s

theorem stopOrder_rechecksOnly (s : State) (id : Nat) (r : Reason) : RechecksOnly s (stopOrder s id r) := by
  unfold stopOrder
  split
  · exact .ite ((moveOrder_rechecksOnly s id _).trans (stopRequest_rechecksOnly _ id)) (.refl s)
  · exact .refl s

/-! ### Orders that start -/

theorem completionTest_rechecksOnly (s : State) (id : Nat) : RechecksOnly s (completionTest s id) := by
  unfold completionTest
  split
  · refine .ite ?_ (.refl s)
    split
    · exact stopOrder_rechecksOnly s id _
    · exact .refl s
  · exact .refl s

theorem orderStarted_rechecksOnly (s : State) (id : Nat) : RechecksOnly s (orderStarted s id) := by
  unfold orderStarted
  split
  · exact .ite ((moveOrder_rechecksOnly s id _).trans (completionTest_rechecksOnly _ id)) (.refl s)
  · exact .refl s

theorem orderPriming_rechecksOnly (s : State) (id : Nat) : RechecksOnly s (orderPriming s id) := by
  unfold orderPriming
  split
  · exact .ite (moveOrder_rechecksOnly s id _) (.refl s)
  · exact .refl s

theorem checkProven_rechecksOnly (s : State) (n : Nat) : RechecksOnly s (checkProven s n) := by
  unfold checkProven
  refine .ite ?_ (.refl s)
  dsimp only
  split
  · exact .ite (orderStarted_rechecksOnly _ _).after (.refl s)
  · exact .refl s

theorem prime_rechecksOnly (s : State) (a : Attempt) : RechecksOnly s (prime s a) := by
  unfold prime
  refine RechecksOnly.trans ?_ (foldl_rechecksOnly checkProven_rechecksOnly _ _)
  exact (orderPriming_rechecksOnly _ _).after

theorem checkLinedUp_rechecksOnly (s : State) (id : Nat) : RechecksOnly s (checkLinedUp s id) := by
  unfold checkLinedUp
  split
  · exact .ite (prime_rechecksOnly s _) (.refl s)
  · exact .refl s

theorem startRequest_rechecksOnly (s : State) (o : Order) (pumps : List Nat) : RechecksOnly s (startRequest s o pumps) := by
  unfold startRequest
  refine .ite (RechecksOnly.trans ?_ (checkLinedUp_rechecksOnly _ _)) (.refl s)
  exact (moveOrder_rechecksOnly _ _ _).after

/-! ### The arbiter -/

theorem considerOrder_rechecksOnly (acc : State × List Order) (o : Order) : RechecksOnly acc.1 (considerOrder acc o).1 := by
  unfold considerOrder
  split
  · exact .refl _
  · split <;> exact .refl _
  · exact startRequest_rechecksOnly _ _ _

theorem preemptFor_rechecksOnly (acc : State × List Nat) (o : Order) : RechecksOnly acc.1 (preemptFor acc o).1 := by
  unfold preemptFor
  split
  · exact stopOrder_rechecksOnly _ _ _
  · exact .refl _

theorem returnPreempted_rechecksOnly (s : State) (id : Nat) : RechecksOnly s (returnPreempted s id) := by
  unfold returnPreempted
  split
  · exact .ite (.ite (.refl s) (queueOrder_rechecksOnly s id _)) (.refl s)
  · exact .refl s

theorem arbiterRun_rechecksOnly (s : State) : RechecksOnly s (arbiterRun s) :=
  ((foldl_fst_rechecksOnly considerOrder_rechecksOnly _ (s, [])).trans (foldl_fst_rechecksOnly preemptFor_rechecksOnly _ (_, []))).trans
    (foldl_rechecksOnly returnPreempted_rechecksOnly _ _)

theorem settleRuns_rechecksOnly (n : Nat) (s : State) : RechecksOnly s (settleRuns n s) := by
  induction n generalizing s with
  | zero => exact .refl s
  | succ n ih =>
    rw [settleRuns]
    exact .ite ((arbiterRun_rechecksOnly (setOrders s { s.orders with runOwed := false })).trans (ih _)) (.refl s)

theorem settleArbiter_rechecksOnly (s : State) : RechecksOnly s (settleArbiter s) := settleRuns_rechecksOnly 64 s

/-- At hull stop the order engine leaves the plan to rechecks (R128). -/
theorem ordersHullStop_rechecksOnly (s : State) : RechecksOnly s (ordersHullStop s) := by
  unfold ordersHullStop
  refine RechecksOnly.trans ?_ (settleArbiter_rechecksOnly _)
  exact foldl_rechecksOnly (fun t id => stopOrder_rechecksOnly t id .hull) _ s

end Sys2Proof.Machine
end

section
/-! PROOFS. A RED result halts the pour; hull stop and hull clear at the order engine (R78, R79, R128, R129, R152; log 14). -/

namespace Sys2Proof.Machine

/-! ### A step that stands in the plan -/

/-- The step stands in the plan, whose steps have different numbers. -/
def Stands (y : Step) (s : State) : Prop := (s.pour.plan.map Step.number).Nodup ∧ y ∈ s.pour.plan

/-- The steps of a lawful plan have different numbers (R134). -/
theorem PourOk.numbers_nodup {p : Pour} (h : PourOk p) : (p.plan.map Step.number).Nodup := by
  rw [h.1, upTo_eq_range]
  exact List.nodup_range.map (add_left_injective 1)

theorem Stands.stepByNumber {y : Step} {s : State} (h : Stands y s) : stepByNumber s y.number = some y := by
  obtain ⟨hn, hy⟩ := h
  cases hfind : Machine.stepByNumber s y.number with
  | none => exact absurd (decide_eq_true rfl) (List.find?_eq_none.1 hfind y hy)
  | some z =>
    rw [List.inj_on_of_nodup_map hn (List.mem_of_find?_eq_some hfind) hy (stepByNumber_number hfind)]

/-- Rechecks leave a step that is not WAITING where it stands (R145). -/
theorem Stands.rechecked {y : Step} {s t : State} (h : Stands y s) (hstate : y.state ≠ .waiting) (ht : RechecksOnly s t) : Stands y t :=
  ⟨by rw [(ht h.1).numbers]; exact h.1, (ht h.1).mem h.2 hstate⟩

theorem numbers_modStep (s : State) (n : Nat) {f : Step → Step} (hf : ∀ z, (f z).number = z.number) :
    (modStep s n f).pour.plan.map Step.number = s.pour.plan.map Step.number := by
  refine List.map_map.trans (List.map_congr_left fun z _ => ?_)
  rw [Function.comp_apply, apply_ite Step.number, hf, ite_self]

theorem Stands.modStep_self {y : Step} {s : State} (h : Stands y s) {f : Step → Step} (hf : ∀ z, (f z).number = z.number) :
    Stands (f y) (modStep s y.number f) :=
  ⟨by rw [numbers_modStep s _ hf]; exact h.1, List.mem_map.2 ⟨y, h.2, if_pos rfl⟩⟩

theorem Stands.modStep_other {y : Step} {s : State} (h : Stands y s) {n : Nat} (hn : y.number ≠ n) {f : Step → Step}
    (hf : ∀ z, (f z).number = z.number) : Stands y (modStep s n f) :=
  ⟨by rw [numbers_modStep s _ hf]; exact h.1, List.mem_map.2 ⟨y, h.2, if_neg hn⟩⟩

/-- The report of another step leaves a step as it stands (R155). -/
theorem Stands.reportMarked {y : Step} {s : State} (h : Stands y s) (hwaiting : y.state ≠ .waiting) (hreporting : y.state ≠ .reporting) :
    Stands y (reportMarked s) := by
  cases hfind : reportingStep s with
  | none =>
    rw [Machine.reportMarked, hfind]
    exact h
  | some z =>
    have hz : z.state = .reporting := by simpa using List.find?_some hfind
    have hne : y.number ≠ z.number := fun hnumber =>
      hreporting (List.inj_on_of_nodup_map h.1 h.2 (List.mem_of_find?_eq_some hfind) hnumber ▸ hz)
    have htriggered : Stands y (trigger s .step (some z)) := h.rechecked hwaiting (trigger_rechecksOnly s _ _)
    have hkept : Stands y (setPour (trigger s .step (some z)) { (trigger s .step (some z)).pour with outstanding := nextSerial s .step }) :=
      htriggered
    rw [Machine.reportMarked, hfind]
    exact hkept.modStep_other hne fun _ => rfl

/-! ### The halt -/

/-- A step as a halt leaves it (R151, R152). -/
def haltedBy (c : HaltCause) (y : Step) : Step :=
  { y with
    state := .halted, haltCause := some c, tallyAtHalt := y.lastTally, runOnRaised := false, loaderStopped := false
    overshootMark := y.overshootMark || decide (c = .overshoot) }

theorem halt_pouring {s : State} {y : Step} (hcurrent : currentStep s = some y) (hstate : y.state = .pouring) (c : HaltCause) :
    halt s c = haltStep s y c := by
  rw [halt, hcurrent]
  exact if_pos hstate

/-- A halted step stands in the plan with its cause and its tally at halt (R152). -/
theorem Stands.haltStep {y : Step} {s : State} (h : Stands y s) (c : HaltCause) : Stands (haltedBy c y) (haltStep s y c) := by
  have hhalted : Stands (haltedBy c y) (modStep s y.number (haltedBy c)) := h.modStep_self fun _ => rfl
  have hsent : RechecksOnly (modStep s y.number (haltedBy c))
      (raise (handTerminal (modStep s y.number (haltedBy c)) (.halt y.number (haltCode c))) pourHalted (some y.number)) :=
    ((handTerminal_path _ _).andThen (ds := [.terminal, .term, .attention]) (raise_path _ (by decide) _)).rechecksOnly
  exact hhalted.rechecked nofun (hsent.trans (trigger_rechecksOnly _ _ _))

theorem currentStep_rechecked {s t : State} (ht : RechecksOnly s t) (hn : (s.pour.plan.map Step.number).Nodup) {y : Step}
    (hcurrent : currentStep s = some y) (hstate : y.state ≠ .waiting) : currentStep t = some y :=
  (ht hn).current hcurrent hstate

/-! ### A RED result -/

theorem resultReported_rechecksOnly (s : State) (r : EvalResult) : RechecksOnly s (resultReported s r) :=
  .ite (trigger_rechecksOnly (resultTaken s r) _ _).after (.after (.refl (resultTaken s r)))

theorem resultSignalled_red {s : State} {r : EvalResult} (hred : r.band = .red) (hstop : s.hull.stop = .clear) :
    resultSignalled s r = pourHullStop (ordersHullStop (resultReported s r)) :=
  if_pos ⟨hstop, by rw [stopFor_clear hstop, if_pos hred]⟩

/-- Once the RED result is signalled the step that was POURING stands HALTED for HULL (R79, R152). -/
theorem resultSignalled_halts {s : State} {r : EvalResult} {y : Step} (hred : r.band = .red) (hstop : s.hull.stop = .clear)
    (hn : (s.pour.plan.map Step.number).Nodup) (hcurrent : currentStep s = some y) (hstate : y.state = .pouring) :
    Stands (haltedBy .hull y) (resultSignalled s r) := by
  have hnotWaiting : y.state ≠ .waiting := by simp [hstate]
  have hstopped : RechecksOnly s (ordersHullStop (resultReported s r)) :=
    (resultReported_rechecksOnly s r).trans (ordersHullStop_rechecksOnly _)
  have hstands : Stands y (ordersHullStop (resultReported s r)) :=
    Stands.rechecked ⟨hn, List.mem_of_find?_eq_some hcurrent⟩ hnotWaiting hstopped
  rw [resultSignalled_red hred hstop, pourHullStop, halt_pouring (currentStep_rechecked hstopped hn hcurrent hnotWaiting) hstate]
  exact (hstands.haltStep .hull).rechecked nofun (recheck_rechecksOnly _)

theorem liveComplete_halts {s : State} {m : Bool} {i : Inputs} {y : Step} (hrun : s.engine.running = some { kind := .live m, inputs := i })
    (hred : (evaluate true i s.settings.wt).band = .red) (hstop : s.hull.stop = .clear) (hn : (s.pour.plan.map Step.number).Nodup)
    (hcurrent : currentStep s = some y) (hstate : y.state = .pouring) : Stands (haltedBy .hull y) (liveComplete s) := by
  have hsignalled := resultSignalled_halts hred hstop hn hcurrent hstate
  have htaken : Stands (haltedBy .hull y) (takeLiveResult s (evaluate true i s.settings.wt) m) := by
    rw [takeLiveResult_eq]
    split
    · exact hsignalled.reportMarked nofun nofun
    · exact hsignalled
  rw [liveComplete_running hrun]
  exact htaken.rechecked nofun ((finishEvaluation_path _ _).rechecksOnly.trans (settleArbiter_rechecksOnly _))

/-! ### The order engine at the hull signals -/

theorem runningState_eq (x : OrderState) : runningState x = (decide (x = .lineup) || decide (x = .starting) || decide (x = .active)) := by
  cases x <;> rfl

theorem ordersHullStop_eq (s : State) : ordersHullStop s = settleArbiter (callArbiter
    (((ordersList s).filter fun o => (o.state = .lineup || o.state = .starting || o.state = .active) && o.direction = some .loading).foldl
      (fun u o => stopOrder u o.id .hull) s)) := by
  simp only [ordersHullStop, List.foldl_map, runningState_eq]

theorem ordersHullClear_eq (s : State) : ordersHullClear s = settleArbiter (callArbiter
    (((ordersList s).filter fun o => o.state = .suspended && o.reason = some .hull).foldl (fun u o => returnHull u o.id) s)) := by
  rw [ordersHullClear, suspendedFor, List.foldl_map]

/-- An order is held when it is not MANUAL and windows hold a tank that it needs (R117, R129). -/
theorem orderHeld_iff {s : State} {o : Order} : orderHeld s o = true
    ↔ o.manual = false ∧ ∃ t, (t = o.tank ∨ o.dest = some t) ∧ heldBy s.orders.windows t = true := by
  rw [orderHeld, Bool.and_eq_true, Bool.not_eq_true', Bool.or_eq_true]
  cases o.dest <;> simp [or_and_right, exists_or]

section Suspended

variable {s : State} {o : Order} (horders : OrdersOk s.orders) (ho : some o ∈ s.orders.slots)
include horders ho

theorem returnHull_held (h : orderHeld s o = true) : returnHull s o.id = placed s o { o with reason := some .held } := by
  simp only [returnHull, orderById_of_mem horders ho, if_pos h]
  exact modOrder_put horders ho _

theorem returnHull_queued (h : ¬orderHeld s o = true) :
    returnHull s o.id = callArbiter (recheck (placed s o { o with state := .queued })) := by
  simp only [returnHull, orderById_of_mem horders ho, if_neg h]
  exact congrArg (fun u => callArbiter (recheck u)) (modOrder_put horders ho _)

end Suspended

/-- Settles O34: the halt is followed through the completion, then the order engine's part at each signal. -/
theorem redResultHaltsThePour : Obligations.RedResultHaltsThePour := by
  refine ⟨fun s m i y hpower hrun hpour hred hstop hcurrent hstate => ?_, fun s loading suspended hloading hsuspended => ?_,
    fun s o horders ho => ?_⟩
  · have hexec : exec .liveEvaluationComplete s = .next (liveComplete s) := event_powered hpower _
    have hstopped : (liveComplete s).hull.stop = .stopped := by
      rw [liveComplete_hull hrun]
      exact if_pos (.inl hred)
    have hstands := liveComplete_halts hrun hred hstop hpour.numbers_nodup hcurrent hstate
    exact ⟨_, _, hexec, hstopped, hstands.stepByNumber, rfl, rfl, rfl⟩
  · subst hloading hsuspended
    exact ⟨ordersHullStop_eq s, ordersHullClear_eq s⟩
  · intro put held
    have hheld : orderHeld s o = true ↔ held := orderHeld_iff
    exact ⟨fun h => returnHull_held horders ho (hheld.2 h), fun h => returnHull_queued horders ho (hheld.not.2 h)⟩

end Sys2Proof.Machine
end

section
/-! PROOFS. ORDR: its numbers and target, the slot of the order table, the tests of the tanks, and the entry into admission (R73, R108 to R115; log 10, 11). -/

namespace Sys2Proof.Machine

/-! ### The numbers and the target -/

theorem ordrShape_iff {f : OrdrFields} : ordrShape f = true ↔ f.tl.isSome ≠ f.tm.isSome ∧ f.dt.isSome = decide (f.ac = 2) := by
  rw [ordrShape, Bool.and_eq_true, bne_iff_ne, beq_iff_eq]

theorem natIn_range {lo hi : Nat} {x : Int} (h : natIn lo hi x ≠ none) : lo ≤ x ∧ x ≤ hi := by_contra fun hout => h (natIn_outside hout)

theorem natUpTo_range {hi : Nat} {x : Int} (h : natUpTo hi x ≠ none) : 0 ≤ x ∧ x ≤ hi :=
  by_contra fun hout => h (natUpTo_eq_none (by omega))

theorem actionNamed_range {ac : Int} (h : actionNamed ac ≠ none) : 0 ≤ ac ∧ ac ≤ 2 := by
  revert h
  unfold actionNamed
  split_ifs with h0 h1 h2
  · omega
  · omega
  · omega
  · exact fun h => absurd rfl h

theorem actionNamed_actionCode (a : Action) : actionNamed (actionCode a) = some a := by cases a <;> rfl

/-- Numbers are read from an ORDR only where each field lies in its range (R111, test 3). -/
theorem ordrNumbers_ranges {f : OrdrFields} {n : OrdrNumbers} (h : ordrNumbers f = some n) :
    (1 ≤ f.oi ∧ f.oi ≤ 255) ∧ (0 ≤ f.ac ∧ f.ac ≤ 2) ∧ (0 ≤ f.pr ∧ f.pr ≤ 3) ∧ (0 ≤ f.rt ∧ f.rt ≤ 7) ∧ (0 ≤ f.tk ∧ f.tk ≤ 23)
      ∧ ∀ d, f.dt = some d → 0 ≤ d ∧ d ≤ 23 := by
  unfold ordrNumbers at h
  split at h
  · next hid hact hpr hrt htk hdt =>
    refine ⟨natIn_range (by simp [hid]), actionNamed_range (by simp [hact]), natUpTo_range (by simp [hpr]), natUpTo_range (by simp [hrt]),
      natUpTo_range (by simp [htk]), fun d hd => natUpTo_range fun hnone => ?_⟩
    simp [inRangeIfPresent, hd, hnone] at hdt
  · cases h

theorem ordrNumbers_outside {f : OrdrFields} (h : ¬(1 ≤ f.oi ∧ f.oi ≤ 255) ∨ ¬(0 ≤ f.ac ∧ f.ac ≤ 2) ∨ ¬(0 ≤ f.pr ∧ f.pr ≤ 3)
    ∨ ¬(0 ≤ f.rt ∧ f.rt ≤ 7) ∨ ¬(0 ≤ f.tk ∧ f.tk ≤ 23) ∨ ∃ d, f.dt = some d ∧ ¬(0 ≤ d ∧ d ≤ 23)) : ordrNumbers f = none := by
  refine Option.eq_none_iff_forall_ne_some.2 fun n hn => ?_
  obtain ⟨hid, hact, hpr, hrt, htk, hdt⟩ := ordrNumbers_ranges hn
  rcases h with h | h | h | h | h | ⟨d, hd, h⟩
  · exact h hid
  · exact h hact
  · exact h hpr
  · exact h hrt
  · exact h htk
  · exact h (hdt d hd)

/-- A destination in its range, or none, is read as it is given (R111, test 3). -/
theorem inRangeIfPresent_natCast {hi : Nat} {x : Option Nat} (h : ∀ d, x = some d → d ≤ hi) :
    inRangeIfPresent hi (x.map Int.ofNat) = some x := by
  cases x with
  | none => rfl
  | some d => exact congrArg (Option.map some) (natUpTo_natCast (h d rfl))

theorem ordrNumbers_inside {f : OrdrFields} {id tk pr rt : Nat} {act : Action} {dt : Option Nat} (hoi : f.oi = id) (hid : 1 ≤ id)
    (hid' : id ≤ 255) (htk : f.tk = tk) (htk' : tk ≤ 23) (hpr : f.pr = pr) (hpr' : pr ≤ 3) (hrt : f.rt = rt) (hrt' : rt ≤ 7)
    (hac : f.ac = actionCode act) (hdt : f.dt = dt.map Int.ofNat) (hdt' : ∀ d, dt = some d → d ≤ 23) :
    ordrNumbers f = some { id := id, tank := tk, dest := dt, action := act, priority := pr, retries := rt, manual := flagOf (f.mf.getD 0) } := by
  simp only [ordrNumbers, hoi, hac, hpr, hrt, htk, hdt, natIn_inside hid hid', actionNamed_actionCode, natUpTo_natCast hpr',
    natUpTo_natCast hrt', natUpTo_natCast htk', inRangeIfPresent_natCast hdt']

theorem targetOf_level {f : OrdrFields} {l : Int} (htl : f.tl = some l) (h : f.tl.isSome ≠ f.tm.isSome) : targetOf f = some (.level l) := by
  have htm : f.tm = none := by simpa [htl] using h
  rw [targetOf, htl, htm]

theorem targetOf_mass {f : OrdrFields} {m : Int} (htl : f.tl = none) (htm : f.tm = some m) : targetOf f = some (.mass m) := by
  rw [targetOf, htl, htm]

/-! ### The slot of the order table -/

theorem indexOf?_eq_none {α : Type} {p : α → Bool} {xs : List α} : indexOf? p xs = none ↔ ∀ x ∈ xs, p x = false := by
  induction xs with
  | nil => simp [indexOf?]
  | cons x xs ih =>
    rw [indexOf?, List.forall_mem_cons, ← ih]
    cases p x <;> simp

/-- A sorted list has no entry before an earlier one, where `before` is a strict order and incomparable entries are exchangeable. -/
theorem sortBy_pairwise {α : Type} {before : α → α → Bool} (hasymm : ∀ a b, before a b = true → before b a = false)
    (htrans : ∀ a b c, before b a = false → before c b = false → before c a = false) (xs : List α) :
    (sortBy before xs).Pairwise fun a b => before b a = false := by
  have hinsert : ∀ (x : α) (ys : List α), (ys.Pairwise fun a b => before b a = false) →
      (insertBy before x ys).Pairwise fun a b => before b a = false := by
    intro x ys
    induction ys with
    | nil => exact fun _ => List.pairwise_singleton _ _
    | cons y ys ih =>
      intro hsorted
      obtain ⟨hy, hys⟩ := List.pairwise_cons.1 hsorted
      unfold insertBy
      split
      · next hxy => exact List.pairwise_cons.2 ⟨List.forall_mem_cons.2
          ⟨hasymm x y hxy, fun z hz => htrans x y z (hasymm x y hxy) (hy z hz)⟩, hsorted⟩
      · next hxy =>
        refine List.pairwise_cons.2 ⟨fun z hz => ?_, ih hys⟩
        rcases List.mem_cons.1 ((insertBy_perm before x ys).mem_iff.1 hz) with rfl | hz
        · exact Bool.eq_false_iff.2 hxy
        · exact hy z hz
  induction xs with
  | nil => exact List.Pairwise.nil
  | cons x xs ih => exact hinsert x _ ih

theorem reuseBefore_eq_false {a b : Order} : reuseBefore b a = false
    ↔ a.ended.getD 0 < b.ended.getD 0 ∨ (a.ended.getD 0 = b.ended.getD 0 ∧ a.rank ≤ b.rank) := by
  simp only [reuseBefore, Bool.or_eq_false_iff, Bool.and_eq_false_iff, decide_eq_false_iff_not]
  omega

/-- The terminal orders sorted for reuse: the first ended no later than any other (R111, test 5). -/
theorem reuse_pairwise (os : List Order) : (sortBy reuseBefore os).Pairwise fun a b => reuseBefore b a = false := by
  refine sortBy_pairwise (fun a b h => ?_) (fun a b c hba hcb => ?_) os
  · have hnot : ¬reuseBefore a b = false := by simp [h]
    rw [reuseBefore_eq_false] at hnot ⊢
    omega
  · rw [reuseBefore_eq_false] at hba hcb ⊢
    omega

/-- A slot that an order may take: an empty one, or with none empty that of the terminal order that ended first, by rank among those that ended at once (R111, test 5; log 10). -/
def SlotForOrder (slots : List (Option Order)) (i : Nat) : Prop :=
  slots[i]? = some none
    ∨ ((∀ y ∈ slots, y ≠ none) ∧ ∃ y, slots[i]? = some (some y) ∧ terminalState y.state = true
      ∧ ∀ z, some z ∈ slots → terminalState z.state = true →
          y.ended.getD 0 < z.ended.getD 0 ∨ (y.ended.getD 0 = z.ended.getD 0 ∧ y.rank ≤ z.rank))

theorem mem_ordersList {s : State} {o : Order} : o ∈ ordersList s ↔ some o ∈ s.orders.slots := by simp [ordersList]

theorem mem_reusable {s : State} {o : Order} :
    o ∈ sortBy reuseBefore ((ordersList s).filter fun o => terminalState o.state)
      ↔ some o ∈ s.orders.slots ∧ terminalState o.state = true := by
  rw [(sortBy_perm reuseBefore _).mem_iff, List.mem_filter, mem_ordersList]

/-- A table of orders that are all under way has no slot for another (R111, test 5). -/
theorem orderSlot_full {s : State} (h : ∀ x ∈ s.orders.slots, ∃ o, x = some o ∧ terminalState o.state = false) : orderSlot s = none := by
  have hoccupied : indexOf? Option.isNone s.orders.slots = none := indexOf?_eq_none.2 fun x hx => by
    obtain ⟨o, rfl, -⟩ := h x hx
    rfl
  have hnone : sortBy reuseBefore ((ordersList s).filter fun o => terminalState o.state) = [] :=
    List.eq_nil_iff_forall_not_mem.2 fun o ho => by
      obtain ⟨hslot, hterminal⟩ := mem_reusable.1 ho
      obtain ⟨_, ⟨⟩, hlive⟩ := h _ hslot
      simp [hlive] at hterminal
  simp only [orderSlot, hoccupied, hnone]

theorem orderSlot_of_empty {s : State} {i : Nat} (h : indexOf? Option.isNone s.orders.slots = some i) :
    orderSlot s = some i ∧ SlotForOrder s.orders.slots i := by
  obtain ⟨x, hx, hnone⟩ := indexOf?_some h
  rw [Option.isNone_iff_eq_none] at hnone
  subst hnone
  exact ⟨by rw [orderSlot, h], .inl hx⟩

/-- Without an empty slot the order takes that of the terminal order sorted first for reuse (R111, test 5). -/
theorem orderSlot_of_reused {s : State} (horders : OrdersOk s.orders) (hfull : indexOf? Option.isNone s.orders.slots = none)
    {y : Order} {ys : List Order} (hsorted : sortBy reuseBefore ((ordersList s).filter fun o => terminalState o.state) = y :: ys) :
    ∃ i, orderSlot s = some i ∧ SlotForOrder s.orders.slots i := by
  have hreusable : ∀ z, z ∈ y :: ys ↔ some z ∈ s.orders.slots ∧ terminalState z.state = true := fun z => hsorted ▸ mem_reusable
  obtain ⟨hy, hterminal⟩ := (hreusable y).1 List.mem_cons_self
  have hfirst : ∀ w ∈ ys, reuseBefore w y = false := (List.pairwise_cons.1 (hsorted ▸ reuse_pairwise _)).1
  have hslot : orderSlot s = indexOf? (fun x => x.any fun z => z.id = y.id) s.orders.slots := by rw [orderSlot, hfull, hsorted]
  cases hi : indexOf? (fun x : Option Order => x.any fun z => z.id = y.id) s.orders.slots with
  | none => simpa using indexOf?_eq_none.1 hi _ hy
  | some i =>
    obtain ⟨x, hx, hany⟩ := indexOf?_some hi
    obtain ⟨z, rfl, hz⟩ := (Option.any_eq_true _ _).1 hany
    obtain rfl : z = y := horders.eq_of_id (List.mem_of_getElem? hx) hy (of_decide_eq_true hz)
    refine ⟨i, hslot.trans hi, .inr ⟨fun w hw hnone => ?_, z, hx, hterminal, fun w hw hended => ?_⟩⟩
    · subst hnone
      exact absurd (indexOf?_eq_none.1 hfull _ hw) (by simp)
    · rcases List.mem_cons.1 ((hreusable w).2 ⟨hw, hended⟩) with rfl | hrest
      · exact .inr ⟨rfl, le_rfl⟩
      · exact reuseBefore_eq_false.1 (hfirst w hrest)

theorem orderSlot_found {s : State} (horders : OrdersOk s.orders)
    (h : ∃ x ∈ s.orders.slots, ∀ o, x = some o → terminalState o.state = true) :
    ∃ i, orderSlot s = some i ∧ SlotForOrder s.orders.slots i := by
  cases hempty : indexOf? Option.isNone s.orders.slots with
  | some i => exact ⟨i, orderSlot_of_empty hempty⟩
  | none =>
    obtain ⟨x, hx, hterminal⟩ := h
    obtain ⟨o, rfl⟩ : ∃ o, x = some o := Option.isSome_iff_exists.1 (by simpa using indexOf?_eq_none.1 hempty x hx)
    have ho := mem_reusable.2 ⟨hx, hterminal o rfl⟩
    cases hsorted : sortBy reuseBefore ((ordersList s).filter fun o => terminalState o.state) with
    | nil =>
      rw [hsorted] at ho
      cases ho
    | cons y ys => exact orderSlot_of_reused horders hempty hsorted

/-! ### The tests of the tanks -/

/-- A tank that the numbers of an ORDR name (R112). -/
def NamesTank (n : OrdrNumbers) (t : Nat) : Prop := t = n.tank ∨ n.dest = some t

theorem namedTanks_any {n : OrdrNumbers} {p : Nat → Bool} : (namedTanks n).any p = true ↔ ∃ t, NamesTank n t ∧ p t = true := by
  have hmem : ∀ t, t ∈ namedTanks n ↔ NamesTank n t := fun t => by simp [namedTanks, NamesTank]
  simp only [List.any_eq_true, hmem]

theorem undeclared_iff {s : State} {n : OrdrNumbers} :
    ((namedTanks n).any (fun t => (tankData s t).isNone) || decide (n.dest = some n.tank)) = true
      ↔ (∃ t, NamesTank n t ∧ tankData s t = none) ∨ n.dest = some n.tank := by
  simp only [Bool.or_eq_true, namedTanks_any, Option.isNone_iff_eq_none, decide_eq_true_iff]

theorem offRoute_iff {s : State} {n : OrdrNumbers} :
    (n.dest.any fun d => mainOf s d != mainOf s n.tank) = true ↔ ∃ d, n.dest = some d ∧ mainOf s d ≠ mainOf s n.tank := by
  simp only [Option.any_eq_true, bne_iff_ne]

theorem outOfGauge_iff {s : State} {t : Nat} :
    outOfGauge s t = true ↔ ∀ r, s.tanks[t]? = some r → r.gauge = .withdrawn ∨ r.gauge = .unmapped := by
  unfold outOfGauge tankRec
  cases s.tanks[t]? with
  | none => simp
  | some r => cases hg : r.gauge <;> simp [gaugeInUse, hg]

theorem onOrder_iff {s : State} {t : Nat} :
    (!(ordersOn s t).isEmpty) = true
      ↔ ∃ o, some o ∈ s.orders.slots ∧ terminalState o.state = false ∧ (o.tank = t ∨ o.dest = some t) := by
  simp [ordersOn, ordersList, needs, or_iff_not_imp_left]

section Tanks

variable {s : State} {n : OrdrNumbers}

theorem tankTests_range (h : (∃ t, NamesTank n t ∧ tankData s t = none) ∨ n.dest = some n.tank) : tankTests s n = some .range :=
  if_pos (undeclared_iff.2 h)

variable (hdeclared : ∀ t, NamesTank n t → tankData s t ≠ none) (hdiffer : n.dest ≠ some n.tank)
include hdeclared hdiffer

theorem declared_test : ¬((namedTanks n).any (fun t => (tankData s t).isNone) || decide (n.dest = some n.tank)) = true := by
  rw [undeclared_iff]
  exact not_or.2 ⟨fun ⟨t, ht, hnone⟩ => hdeclared t ht hnone, hdiffer⟩

theorem tankTests_route (h : ∃ d, n.dest = some d ∧ mainOf s d ≠ mainOf s n.tank) : tankTests s n = some .route := by
  rw [tankTests, if_neg (declared_test hdeclared hdiffer), if_pos (offRoute_iff.2 h)]

variable (hroute : ∀ d, n.dest = some d → mainOf s d = mainOf s n.tank)
include hroute

omit hdeclared hdiffer in
theorem onRoute_test : ¬(n.dest.any fun d => mainOf s d != mainOf s n.tank) = true :=
  offRoute_iff.not.2 fun ⟨d, hd, hne⟩ => hne (hroute d hd)

theorem tankTests_noGauge (h : ∃ t, NamesTank n t ∧ ∀ r, s.tanks[t]? = some r → r.gauge = .withdrawn ∨ r.gauge = .unmapped) :
    tankTests s n = some .noGauge := by
  have hout : (namedTanks n).any (outOfGauge s) = true := namedTanks_any.2 (h.imp fun _ ht => ⟨ht.1, outOfGauge_iff.2 ht.2⟩)
  rw [tankTests, if_neg (declared_test hdeclared hdiffer), if_neg (onRoute_test hroute), if_pos hout]

variable (hgauge : ∀ t, NamesTank n t → ∃ r, s.tanks[t]? = some r ∧ (r.gauge = .normal ∨ r.gauge = .suspect))
include hgauge

omit hdeclared hdiffer hroute in
theorem inGauge_test : ¬(namedTanks n).any (outOfGauge s) = true := by
  rw [namedTanks_any]
  rintro ⟨t, ht, hout⟩
  obtain ⟨r, hr, huse⟩ := hgauge t ht
  rcases huse with huse | huse <;> simpa [huse] using outOfGauge_iff.1 hout r hr

theorem tankTests_conflict
    (h : ∃ t o, NamesTank n t ∧ some o ∈ s.orders.slots ∧ terminalState o.state = false ∧ (o.tank = t ∨ o.dest = some t)) :
    tankTests s n = some .conflict := by
  have hordered : ((namedTanks n).any fun t => !(ordersOn s t).isEmpty) = true := by
    obtain ⟨t, o, ht, ho⟩ := h
    exact namedTanks_any.2 ⟨t, ht, onOrder_iff.2 ⟨o, ho⟩⟩
  rw [tankTests, if_neg (declared_test hdeclared hdiffer), if_neg (onRoute_test hroute), if_neg (inGauge_test hgauge), if_pos hordered]

variable (hfree : ∀ t o, NamesTank n t → some o ∈ s.orders.slots → terminalState o.state = false → o.tank ≠ t ∧ o.dest ≠ some t)
include hfree

/-- Past the other tests the windows alone decide (R112). -/
theorem tankTests_windows :
    tankTests s n = if (!n.manual && (namedTanks n).any (heldBy s.orders.windows)) = true then some .held else none := by
  have hunordered : ¬((namedTanks n).any fun t => !(ordersOn s t).isEmpty) = true := by
    rw [namedTanks_any]
    rintro ⟨t, ht, hon⟩
    obtain ⟨o, ho, hlive, hneeds⟩ := onOrder_iff.1 hon
    exact not_or.2 (hfree t o ht ho hlive) hneeds
  rw [tankTests, if_neg (declared_test hdeclared hdiffer), if_neg (onRoute_test hroute), if_neg (inGauge_test hgauge), if_neg hunordered]

theorem tankTests_held (hmanual : n.manual = false) (h : ∃ t, NamesTank n t ∧ heldBy s.orders.windows t = true) :
    tankTests s n = some .held := by
  rw [tankTests_windows hdeclared hdiffer hroute hgauge hfree, namedTanks_any.2 h, hmanual]
  rfl

theorem tankTests_passed (h : n.manual = true ∨ ∀ t, NamesTank n t → heldBy s.orders.windows t = false) : tankTests s n = none := by
  rw [tankTests_windows hdeclared hdiffer hroute hgauge hfree]
  refine if_neg fun hheld => ?_
  rw [Bool.and_eq_true, Bool.not_eq_true', namedTanks_any] at hheld
  obtain ⟨hmanual, t, ht, hwindow⟩ := hheld
  rcases h with h | h
  · simp [h] at hmanual
  · simp [h t ht] at hwindow

end Tanks

/-! ### ORDR -/

theorem orderById_eq_none {s : State} {id : Nat} (h : ∀ o, some o ∈ s.orders.slots → o.id ≠ id) : orderById s id = none := by
  refine Option.eq_none_iff_forall_ne_some.2 fun o ho => ?_
  obtain ⟨hmem, hid⟩ := mem_of_orderById ho
  exact h o hmem hid

theorem tankBoth_eq {s : State} {t : Nat} {d : TankData} {r : Tank} (hdata : tankData s t = some d) (hrec : s.tanks[t]? = some r) :
    tankBoth s t = some (d, r) := by rw [tankBoth, hdata, tankRec, hrec]

theorem ordr_of_refused {s : State} {k : Nat} {f : OrdrFields} {oc : Oc} (h : ordrTests s k f = .inl oc) :
    ordr k f s = reply s .console k oc [] := by
  rw [ordr, h]
  rfl

theorem ordrTests_format {s : State} (k : Nat) {f : OrdrFields} (h : f.tl.isSome = f.tm.isSome ∨ f.dt.isSome ≠ decide (f.ac = 2)) :
    ordrTests s k f = .inl .format := by
  have hshape : ordrShape f = false := Bool.eq_false_iff.2 fun hshape => by
    obtain ⟨htarget, hdest⟩ := ordrShape_iff.1 hshape
    exact h.elim htarget fun hne => hne hdest
  rw [ordrTests, hshape]
  rfl

section Shaped

variable {s : State} (k : Nat) {f : OrdrFields} (hshape : ordrShape f = true)
include hshape

theorem ordrTests_unnumbered (h : ordrNumbers f = none) : ordrTests s k f = .inl .range := by
  simp [ordrTests, hshape, h]

variable {n : OrdrNumbers} {g : Target} (hnumbers : ordrNumbers f = some n) (htarget : targetOf f = some g)
include hnumbers htarget

/-- An ORDR under the id of an order in the table is refused with CONFLICT (R111, test 4). -/
theorem ordrTests_taken {o : Order} (ho : some o ∈ s.orders.slots) (hid : o.id = n.id) : ordrTests s k f = .inl .conflict := by
  have htaken : (orderById s n.id).isSome = true := Option.isSome_iff_ne_none.2 fun hnone => by
    have hmem : o ∈ ordersList s := mem_ordersList.2 ho
    exact absurd (decide_eq_true hid) (List.find?_eq_none.1 hnone o hmem)
  simp [ordrTests, hshape, hnumbers, htarget, htaken]

variable (hnew : orderById s n.id = none)
include hnew

theorem ordrTests_full (h : orderSlot s = none) : ordrTests s k f = .inl .full := by
  simp [ordrTests, hshape, hnumbers, htarget, hnew, h]

variable {i : Nat} (hslot : orderSlot s = some i)
include hslot

theorem ordrTests_tanks {oc : Oc} (h : tankTests s n = some oc) : ordrTests s k f = .inl oc := by
  simp [ordrTests, hshape, hnumbers, htarget, hnew, hslot, h]

variable (htanks : tankTests s n = none) {d : TankData} {r : Tank} (hboth : tankBoth s n.tank = some (d, r))
include htanks hboth

theorem ordrTests_underived (h : derive n.action d r (n.dest.bind (tankBoth s)) g = none) : ordrTests s k f = .inl .range := by
  simp [ordrTests, hshape, hnumbers, htarget, hnew, hslot, htanks, hboth, h]

theorem ordrTests_derived {x : Derived} (h : derive n.action d r (n.dest.bind (tankBoth s)) g = some x) :
    ordrTests s k f = .inr (i, newOrder n g x k) := by
  simp [ordrTests, hshape, hnumbers, htarget, hnew, hslot, htanks, hboth, h]

end Shaped

section Passed

variable {s : State} {k i : Nat} {f : OrdrFields} {o : Order} (hpassed : ordrTests s k f = .inr (i, o))
include hpassed

theorem ordr_busy (h : 4 ≤ (s.engine.previews.filter fun e => !fromGate e).length) : ordr k f s = reply s .console k .busy [] := by
  have hfull : ¬hasRoom s (admissionEntry o) = true := (hasRoom_iff rfl).not.2 (not_lt.2 h)
  simp only [ordr, hpassed, if_neg hfull]
  rfl

/-- An ORDR that passes enters admission: its record in its slot, its reply waiting, its preview the newest of the queue (R115). -/
theorem ordr_admits (h : (s.engine.previews.filter fun e => !fromGate e).length < 4) :
    ordr k f s = choose { hold s .console k with
      orders := { s.orders with slots := modAt s.orders.slots i fun _ => some o }
      engine := { s.engine with previews := s.engine.previews ++ [admissionEntry o] } } := by
  have hroom : hasRoom s (admissionEntry o) = true := (hasRoom_iff rfl).2 h
  simp only [ordr, hpassed, if_pos hroom]
  rfl

end Passed

/-- The destination of a TRANSFER joins the source at its end mass (R73, R115). -/
theorem endOverrides_spec (o : Order) :
    (o.dest = none → endOverrides o = [(o.tank, (o.endSource : Int))])
    ∧ ∀ d m, o.dest = some d → o.endDest = some m → endOverrides o = [(o.tank, (o.endSource : Int)), (d, (m : Int))] :=
  ⟨fun hdest => by rw [endOverrides, hdest], fun d m hdest hend => by rw [endOverrides, hdest, hend]⟩

/-- Settles O42, by the tests of R111 and R112 in their order. -/
theorem ordrTestsAndEntersAdmission : Obligations.OrdrTestsAndEntersAdmission := by
  refine ⟨endOverrides_spec, fun k s f hasked hcall horders => ?_⟩
  have hexec : exec (.ordr k) s = .next (ordr k f s) :=
    (exec_asked (r := .ordr f) hasked).trans (congrArg _ (whenAdmitted_inCall hcall .console k _))
  have hrefused : ∀ {oc}, ordrTests s k f = .inl oc → exec (.ordr k) s = .next (reply s .console k oc []) := fun h =>
    hexec.trans (congrArg _ (ordr_of_refused h))
  refine ⟨fun h => hrefused (ordrTests_format k h), fun hone hdest => ?_⟩
  have hshape : ordrShape f = true := ordrShape_iff.2 ⟨hone, hdest⟩
  refine ⟨flagOf (f.mf.getD 0), fun hset => by rw [hset]; rfl, fun hclear => by rcases hclear with h | h <;> rw [h] <;> rfl,
    fun h => hrefused (ordrTests_unnumbered k hshape (ordrNumbers_outside h)), ?_⟩
  intro id tk pr rt act dt g hoi hid hid' htk htk' hpr hpr' hrt hrt' hac hdt hdt' hg needed
  have hnumbers := ordrNumbers_inside hoi hid hid' htk htk' hpr hpr' hrt hrt' hac hdt hdt'
  have htarget : targetOf f = some g := by
    cases htl : f.tl with
    | some l => rw [targetOf_level htl hone, hg, htl]
    | none =>
      obtain ⟨m, htm⟩ : ∃ m, f.tm = some m := Option.ne_none_iff_exists'.1 (by simpa [htl] using hone.symm)
      rw [targetOf_mass htl htm, hg, htl, htm]
  refine ⟨fun ⟨o, ho, hoid⟩ => hrefused (ordrTests_taken k hshape hnumbers htarget ho hoid), fun hnew => ?_⟩
  have hnone := orderById_eq_none hnew
  refine ⟨fun hfull => hrefused (ordrTests_full k hshape hnumbers htarget hnone (orderSlot_full hfull)), fun hreusable => ?_⟩
  obtain ⟨i, hslot, htakes⟩ := orderSlot_found horders hreusable
  have htested : ∀ {oc}, tankTests s _ = some oc → exec (.ordr k) s = .next (reply s .console k oc []) := fun h =>
    hrefused (ordrTests_tanks k hshape hnumbers htarget hnone hslot h)
  refine ⟨fun h => htested (tankTests_range h), fun hdeclared hdiffer => ?_⟩
  refine ⟨fun h => htested (tankTests_route hdeclared hdiffer h), fun hroute => ?_⟩
  refine ⟨fun h => htested (tankTests_noGauge hdeclared hdiffer hroute h), fun hgauge => ?_⟩
  refine ⟨fun h => htested (tankTests_conflict hdeclared hdiffer hroute hgauge h), fun hfree => ?_⟩
  refine ⟨fun hmanual h => htested (tankTests_held hdeclared hdiffer hroute hgauge hfree hmanual h), fun hopen d r hdata hrec => ?_⟩
  have htanks := tankTests_passed
    (n := { id := id, tank := tk, dest := dt, action := act, priority := pr, retries := rt, manual := flagOf (f.mf.getD 0) })
    hdeclared hdiffer hroute hgauge hfree hopen
  have hboth := tankBoth_eq hdata hrec
  refine ⟨fun h => hrefused (ordrTests_underived k hshape hnumbers htarget hnone hslot htanks hboth h), fun x hx => ?_⟩
  have hpassed := ordrTests_derived k hshape hnumbers htarget hnone hslot htanks hboth hx
  exact ⟨fun hfull => hexec.trans (congrArg _ (ordr_busy hpassed hfull)),
    fun hroom => ⟨i, htakes, hexec.trans (congrArg _ (ordr_admits hpassed hroom))⟩⟩

end Sys2Proof.Machine
end

section
/-! PROOFS. Requests and events apart, and what keeps the laws of plant, orders, pour, links, reports and attention (R12, R87 to R91, R108 to R111, R134, R158, R174, R175, R184, R190). -/

namespace Sys2Proof.Machine

/-! ### Requests and events -/

/-- What an event command makes of a part that has power; a request's command and POWER_ON are none. -/
def eventEffect : Instr → State → State
  | .warmReset => warmReset
  | .uptimeSecond => oneSecond
  | .powerLoss => losePower
  | .startByteFound l bytes => huntIn l bytes
  | .frameReceived l bytes | .frameDiscarded l bytes => collectIn l bytes
  | .frameIncompleteTimeout l => dropStale l
  | .frameTransmitStart l => chooseFrame l
  | .replyTransmitComplete l => frameSent l
  | .delivery l => deliver l
  | .profileChecksComplete => checksEnd
  | .nonVolatileWriteComplete back => writeEnd back
  | .scanPeriodTick => scanTick
  | .conversionComplete code => conversion code.toNat
  | .liveEvaluationComplete => liveComplete
  | .previewComplete => previewComplete
  | .valveLimitChange v l x => fun s => if v ≤ xv then lineChange (limitLine v l) x (limitEvent v l x) s else s
  | .strokeTimerExpiry v => strokeExpired v
  | .pressureProvenChange n x => fun s => if isPump n then lineChange (provenLine n) x (provenEvent n x) s else s
  | .pumpRunningFeedbackChange n x => fun s => if isPump n then lineChange (runningLine n) x (runningEvent n x) s else s
  | .proveTimerExpiry id => proveExpired id
  | .pumpStopTimerExpiry n => stopExpired n
  | .stallWindowExpiry id => stallExpired id
  | .holdTimerExpiry n => holdExpired n
  | .settleTimerExpiry n => settleExpired n
  | .quietTimerExpiry => quietExpired
  | _ => id

/-- Every command is POWER_ON, serves a request or is an event. -/
theorem exec_cases (c : Instr) : c = .powerOn ∨ (∃ r k, c = Request.command k r) ∨ ∀ s, exec c s = event s (eventEffect c) := by
  cases c with
  | powerOn => exact .inl rfl
  | popn k => exact .inr (.inl ⟨.popn, k, rfl⟩)
  | pdat k => exact .inr (.inl ⟨.pdat [] 0 [], k, rfl⟩)
  | pcls k => exact .inr (.inl ⟨.pcls 0, k, rfl⟩)
  | copn k => exact .inr (.inl ⟨.copn, k, rfl⟩)
  | cend k => exact .inr (.inl ⟨.cend, k, rfl⟩)
  | clks k => exact .inr (.inl ⟨.clks 0, k, rfl⟩)
  | setp k => exact .inr (.inl ⟨.setp [], k, rfl⟩)
  | gcal k => exact .inr (.inl ⟨.gcal 0 none none none, k, rfl⟩)
  | tmap k => exact .inr (.inl ⟨.tmap 0 0, k, rfl⟩)
  | dens k => exact .inr (.inl ⟨.dens 0 0, k, rfl⟩)
  | sndg k => exact .inr (.inl ⟨.sndg 0 0, k, rfl⟩)
  | gqry k => exact .inr (.inl ⟨.gqry none none, k, rfl⟩)
  | prev k => exact .inr (.inl ⟨.prev [], k, rfl⟩)
  | hqry k => exact .inr (.inl ⟨.hqry, k, rfl⟩)
  | prst k => exact .inr (.inl ⟨.prst 0, k, rfl⟩)
  | xovr k => exact .inr (.inl ⟨.xovr none, k, rfl⟩)
  | gang k => exact .inr (.inl ⟨.gang 0 0, k, rfl⟩)
  | ordr k => exact .inr (.inl ⟨.ordr ⟨0, 0, 0, 0, 0, none, none, none, none⟩, k, rfl⟩)
  | ocan k => exact .inr (.inl ⟨.ocan 0, k, rfl⟩)
  | orel k => exact .inr (.inl ⟨.orel 0, k, rfl⟩)
  | oqry k => exact .inr (.inl ⟨.oqry none, k, rfl⟩)
  | hwin k => exact .inr (.inl ⟨.hwin 0 none none none, k, rfl⟩)
  | plan k => exact .inr (.inl ⟨.plan 0 0 0 [] none, k, rfl⟩)
  | pclr k => exact .inr (.inl ⟨.pclr none, k, rfl⟩)
  | hcor k => exact .inr (.inl ⟨.hcor 0 0, k, rfl⟩)
  | sreq k => exact .inr (.inl ⟨.sreq 0, k, rfl⟩)
  | sfrc k => exact .inr (.inl ⟨.sfrc 0, k, rfl⟩)
  | sskp k => exact .inr (.inl ⟨.sskp 0, k, rfl⟩)
  | scan k => exact .inr (.inl ⟨.scan 0, k, rfl⟩)
  | taly k => exact .inr (.inl ⟨.taly 0 0, k, rfl⟩)
  | sfin k => exact .inr (.inl ⟨.sfin 0 0, k, rfl⟩)
  | lstp k => exact .inr (.inl ⟨.lstp 0, k, rfl⟩)
  | tatt k => exact .inr (.inl ⟨.tatt, k, rfl⟩)
  | tdet k => exact .inr (.inl ⟨.tdet, k, rfl⟩)
  | sqry k => exact .inr (.inl ⟨.sqry none, k, rfl⟩)
  | rcfg k => exact .inr (.inl ⟨.rcfg ⟨0, none, none, none, none, []⟩, k, rfl⟩)
  | rreq k => exact .inr (.inl ⟨.rreq, k, rfl⟩)
  | aenb k => exact .inr (.inl ⟨.aenb 0, k, rfl⟩)
  | aack k => exact .inr (.inl ⟨.aack [], k, rfl⟩)
  | aqry k => exact .inr (.inl ⟨.aqry, k, rfl⟩)
  | wrst k => exact .inr (.inl ⟨.wrst, k, rfl⟩)
  | _ => exact .inr (.inr fun _ => rfl)

/-- What holds between the states before and after POWER_ON, a request's effect, an event's effect and no change at all holds before and after every command. -/
theorem exec_rel {P : State → State → Prop} (hrefl : ∀ s, P s s) (hpowerOn : ∀ s, P s (restartedFrom s (verified s.stored)))
    (hrequest : ∀ r k s, P s (requestEffect k r s)) (hevent : ∀ c s, P s (eventEffect c s)) {c : Instr} {s t : State}
    (h : exec c s = .next t) : P s t := by
  rcases exec_cases c with rfl | ⟨r, k, rfl⟩ | hc
  · cases (exec_powerOn s).symm.trans h
    exact hpowerOn s
  · obtain ⟨act, hexec, -, hact⟩ := exec_serves r k
    cases (hexec s).symm.trans h
    split
    · split
      · next r' _ =>
        rcases hact r' s with ⟨-, heffect⟩ | hignored
        · rw [heffect]
          exact hrequest r' k s
        · rw [hignored]
          exact hrefl s
      · exact hrefl s
    · exact hrefl s
  · cases (hc s).symm.trans h
    split
    · exact hevent c s
    · exact hrefl s

/-! ### Changes that keep the laws -/

/-- `t` comes of `s` by a change that keeps the laws of plant, orders, pour, links, reports and attention. -/
structure KeepsLaws (s t : State) : Prop where
  plant : PlantOk s.plant → PlantOk t.plant
  orders : OrdersOk s.orders → OrdersOk t.orders
  pour : PourOk s.pour → PourOk t.pour
  term : TermOk s.term → TermOk t.term
  reports : ReportsOk s.reports → ReportsOk t.reports
  attention : AttentionOk s.attention → AttentionOk t.attention
  console : PortOk s.console → PortOk t.console
  terminal : PortOk s.terminal → PortOk t.terminal

theorem KeepsLaws.refl (s : State) : KeepsLaws s s := ⟨id, id, id, id, id, id, id, id⟩

theorem KeepsLaws.trans {s t u : State} (p : KeepsLaws s t) (q : KeepsLaws t u) : KeepsLaws s u where
  plant h := q.plant (p.plant h)
  orders h := q.orders (p.orders h)
  pour h := q.pour (p.pour h)
  term h := q.term (p.term h)
  reports h := q.reports (p.reports h)
  attention h := q.attention (p.attention h)
  console h := q.console (p.console h)
  terminal h := q.terminal (p.terminal h)

theorem KeepsLaws.ite {c : Prop} [Decidable c] {s t u : State} (p : KeepsLaws s t) (q : KeepsLaws s u) :
    KeepsLaws s (if c then t else u) := by
  split
  · exact p
  · exact q

theorem Path.keepsLaws {bs : List Block} {s t : State} (p : Path bs s t) : KeepsLaws s t :=
  ⟨p.plantOk, p.ordersOk, p.pourOk, p.termOk, p.reportsOk, p.attentionOk, p.consoleOk, p.terminalOk⟩

/-- The laws are about these pieces alone. -/
def plantAndLinkBlocks : List Block := [.plant, .orders, .pour, .term, .reports, .attention, .console, .terminal]

/-- A change of other pieces keeps the laws. -/
theorem ChangesOnly.keepsLaws {bs : List Block} {s t : State} (h : ChangesOnly bs s t)
    (hbs : ∀ b ∈ plantAndLinkBlocks, b ∉ bs := by decide) : KeepsLaws s t where
  plant := Eq.mpr (congrArg _ (h .plant (hbs _ (by decide))))
  orders := Eq.mpr (congrArg _ (h .orders (hbs _ (by decide))))
  pour := Eq.mpr (congrArg _ (h .pour (hbs _ (by decide))))
  term := Eq.mpr (congrArg _ (h .term (hbs _ (by decide))))
  reports := Eq.mpr (congrArg _ (h .reports (hbs _ (by decide))))
  attention := Eq.mpr (congrArg _ (h .attention (hbs _ (by decide))))
  console := Eq.mpr (congrArg _ (h .console (hbs _ (by decide))))
  terminal := Eq.mpr (congrArg _ (h .terminal (hbs _ (by decide))))

/-- The plant set, its input lines included. -/
theorem setPlant_keepsLaws (s : State) {x : Plant} (h : PlantOk s.plant → PlantOk x) : KeepsLaws s (setPlant s x) :=
  { KeepsLaws.refl s with plant := h }

/-- The order engine set, its windows and rank counter included. -/
theorem setOrders_keepsLaws (s : State) {x : Orders} (h : OrdersOk s.orders → OrdersOk x) : KeepsLaws s (setOrders s x) :=
  { KeepsLaws.refl s with orders := h }

theorem setAttention_keepsLaws (s : State) {x : Attention} (h : AttentionOk s.attention → AttentionOk x) : KeepsLaws s (setAttention s x) :=
  { KeepsLaws.refl s with attention := h }

/-- A reset gives every block values that keep its law; the input lines keep their number (R24). -/
theorem restartedFrom_keepsLaws (s : State) (p : ProfileState) : KeepsLaws s (restartedFrom s p) where
  plant h := PlantOk.initial h.1
  orders _ := OrdersOk.initial
  pour _ := PourOk.initial
  term _ := TermOk.initial
  reports _ := ReportsOk.initial
  attention _ := AttentionOk.initial
  console _ := PortOk.initial
  terminal _ := PortOk.initial

end Sys2Proof.Machine
end

section
/-! PROOFS. Every command keeps the laws of plant, orders, pour, links, reports and attention (R12, R87 to R91, R108 to R111, R134, R158, R174, R175, R184, R190; log 51). -/

namespace Sys2Proof.Machine

/-! ### Call control, settings and the profile store -/

theorem reply_keepsLaws (s : State) (l : Link) (k : Nat) (oc : Oc) (fs : List (Field × Val)) : KeepsLaws s (reply s l k oc fs) :=
  (reply_path s l k oc fs).keepsLaws

theorem whenAdmitted_keepsLaws {l : Link} {s : State} {act : State → State} (h : KeepsLaws s (act s)) (admitted : CallState → Bool) (k : Nat) :
    KeepsLaws s (whenAdmitted admitted l k s act) :=
  .ite h (reply_keepsLaws s l k .state [])

theorem copn_keepsLaws (k : Nat) (s : State) : KeepsLaws s (copn k s) := by
  have hcall : KeepsLaws s (setCall s .inCall) := (setCall_changesOnly (bs := [.call]) (by decide) s _).keepsLaws
  exact .ite (((hcall.trans (openCall_path s).keepsLaws).trans (liveRequest_path _ false).keepsLaws).trans (reply_keepsLaws _ _ k _ _))
    (reply_keepsLaws s _ k _ _)

/-- The call end empties the order table, but for the rank counter (R19, R108). -/
theorem endOrders_keepsLaws (s : State) : KeepsLaws s (endOrders s) :=
  (setOrders_keepsLaws s (x := { Orders.initial with rank := s.orders.rank }) fun _ => OrdersOk.initial).trans (clearHeld_path _).keepsLaws

theorem endCall_keepsLaws (s : State) : KeepsLaws s (endCall s) := by
  have hcall : KeepsLaws s (setCall s .closing) := (setCall_changesOnly (bs := [.call]) (by decide) s _).keepsLaws
  have hpour := hcall.trans ((triggerDeparture_path _).keepsLaws.trans (endPour_path _).keepsLaws)
  exact (hpour.trans (endOrders_keepsLaws _)).trans (endCall_tail_path _).keepsLaws

theorem cend_keepsLaws (k : Nat) (s : State) : KeepsLaws s (cend k s) :=
  .ite (reply_keepsLaws s _ k _ _) (.ite (reply_keepsLaws s _ k _ _) ((endCall_keepsLaws s).trans (reply_keepsLaws _ _ k _ _)))

theorem clks_keepsLaws (k : Nat) (cl : Int) (s : State) : KeepsLaws s (clks k cl s) := by
  unfold clks
  split
  · exact reply_keepsLaws s _ k _ _
  · exact (setClocks_changesOnly (bs := [.clocks]) (by decide) s _).keepsLaws.trans (reply_keepsLaws _ _ k _ _)

theorem setp_keepsLaws (k : Nat) (vs : List (Field × Int)) (s : State) : KeepsLaws s (setp k vs s) := by
  have hset := (setSettings_changesOnly (bs := [.settings]) (by decide) s (putAll s.settings vs)).keepsLaws
  exact .ite (reply_keepsLaws s _ k _ _)
    ((hset.trans (.ite (liveRequest_path _ _).keepsLaws (.refl _))).trans (reply_keepsLaws _ _ k _ _))

theorem setProfile_keepsLaws (s : State) (x : ProfileState) : KeepsLaws s (setProfile s x) :=
  (setProfile_changesOnly (bs := [.profile]) (by decide) s x).keepsLaws

theorem setStored_keepsLaws (s : State) (x : StoredCopy) : KeepsLaws s (setStored s x) :=
  (setStored_changesOnly (bs := [.stored]) (by decide) s x).keepsLaws

theorem popn_keepsLaws (k : Nat) (s : State) : KeepsLaws s (popn k s) := by
  have hopened : KeepsLaws s (reply (openLoad s) .console k .ok []) :=
    (openLoad_changesOnly (bs := [.profile, .stored]) (by decide) (by decide) s).keepsLaws.trans (reply_keepsLaws _ _ k _ _)
  have hwithdrawn : KeepsLaws s (reply (withdrawProfile s) .console k .ok []) :=
    (withdrawn_changesOnly s).keepsLaws.trans (answered_path s k).keepsLaws
  unfold popn
  split
  · exact hopened
  · exact .ite (reply_keepsLaws s _ k _ _) hopened
  · exact .ite hwithdrawn (reply_keepsLaws s _ k _ _)

theorem pdat_keepsLaws (k : Nat) (sn : List Byte) (xi : Int) (sd : List Byte) (s : State) : KeepsLaws s (pdat k sn xi sd s) := by
  have href : ∀ oc fs, KeepsLaws s (reply s .console k oc fs) := fun oc fs => reply_keepsLaws s _ k oc fs
  cases hp : s.profile with
  | empty => rw [pdat_notLoading (by simp [hp])]; exact href _ _
  | valid p => rw [pdat_notLoading (by simp [hp])]; exact href _ _
  | loading r =>
    simp only [pdat, hp]
    split
    · exact href _ _
    · split
      · exact href _ _
      · split
        · exact href _ _
        · split
          · exact href _ _
          · split
            · exact href _ _
            · exact (setProfile_keepsLaws s (.loading _)).trans (reply_keepsLaws _ _ k _ _)

theorem pcls_keepsLaws (k : Nat) (cr : Crc32) (s : State) : KeepsLaws s (pcls k cr s) := by
  unfold pcls
  split
  · split
    · exact reply_keepsLaws s _ k _ _
    · exact (setProfile_keepsLaws s (.loading _)).trans (hold_path _ .console k).keepsLaws
  · exact reply_keepsLaws s _ k _ _

theorem checksEnd_keepsLaws (s : State) : KeepsLaws s (checksEnd s) := by
  have hfail : ∀ k oc fs, KeepsLaws s (reply (failLoad s) .console k oc fs) := fun k oc fs =>
    (setProfile_keepsLaws s .empty).trans (reply_keepsLaws _ _ k oc fs)
  unfold checksEnd
  split
  · split
    · split
      · exact .refl s
      · split
        · exact hfail _ _ _
        · split
          · exact hfail _ _ _
          · exact setProfile_keepsLaws s (.loading _)
    · exact .refl s
  · exact .refl s

theorem announceProfile_keepsLaws (s : State) : KeepsLaws s (announceProfile s) :=
  ((setCall_changesOnly (bs := [.call, .tanks]) (by decide) s _).trans (setTanks_changesOnly (by decide) _ _)).keepsLaws.trans
    (resetHull_path _).keepsLaws

theorem writeEnd_keepsLaws (back : List Byte) (s : State) : KeepsLaws s (writeEnd back s) := by
  unfold writeEnd
  split
  · split
    · split
      · exact .refl s
      · refine .ite ?_ ?_
        · exact (((setStored_keepsLaws s _).trans (setProfile_keepsLaws _ (.valid _))).trans (reply_keepsLaws _ _ _ _ _)).trans
            (announceProfile_keepsLaws _)
        · exact ((setStored_keepsLaws s _).trans (setProfile_keepsLaws _ .empty)).trans (reply_keepsLaws _ _ _ _ _)
    · exact .refl s
  · exact .refl s

/-! ### The order table -/

/-- Orders dropped from the table leave it lawful (R108). -/
theorem OrdersOk.drop {x : Orders} (h : OrdersOk x) (p : Option Order → Bool) :
    OrdersOk { x with slots := x.slots.map fun o => if p o then none else o } := by
  obtain ⟨hlength, hwindows, hnodup, horders⟩ := h
  refine ⟨by simpa using hlength, hwindows, ?_, fun o ho => ?_⟩
  · have hsub : ((x.slots.map fun o => if p o then none else o).filterMap fun o => o.map Order.id).Sublist
        (x.slots.filterMap fun o => o.map Order.id) := by
      generalize x.slots = slots
      induction slots with
      | nil => exact List.Sublist.slnil
      | cons o slots ih =>
        rw [List.map_cons]
        by_cases hp : p o = true
        · rw [if_pos hp, List.filterMap_cons_none rfl, List.filterMap_cons]
          split
          · exact ih
          · exact ih.cons _
        · rw [if_neg hp, List.filterMap_cons, List.filterMap_cons]
          split
          · exact ih
          · exact ih.cons_cons _
    exact hnodup.sublist hsub
  · obtain ⟨y, hy, hyo⟩ := List.mem_map.1 ho
    split at hyo
    · cases hyo
    · exact horders o (hyo ▸ hy)

/-- A new order in a slot, under an id that the table does not hold, leaves it lawful (R108, R111). -/
theorem OrdersOk.enter {x : Orders} (h : OrdersOk x) {o : Order} (ho : OrderOk o) (hnew : ∀ y, some y ∈ x.slots → y.id ≠ o.id) (i : Nat) :
    OrdersOk { x with slots := modAt x.slots i fun _ => some o } := by
  obtain ⟨hlength, hwindows, hnodup, horders⟩ := h
  refine ⟨by simpa using hlength, hwindows, ?_, fun y hy => ?_⟩
  · have hout : o.id ∉ x.slots.filterMap fun z => z.map Order.id := fun hmem => by
      obtain ⟨z, hz, hzid⟩ := List.mem_filterMap.1 hmem
      obtain ⟨y, rfl, hyid⟩ := Option.map_eq_some_iff.1 hzid
      exact hnew y hz hyid
    show ((modAt x.slots i fun _ => some o).filterMap fun z => z.map Order.id).Nodup
    generalize x.slots = slots at hnodup hout
    induction slots generalizing i with
    | nil => exact hnodup
    | cons z slots ih =>
      have hsub : (slots.filterMap fun z => z.map Order.id).Sublist ((z :: slots).filterMap fun z => z.map Order.id) :=
        (List.sublist_cons_self z slots).filterMap _
      cases i with
      | zero => exact List.nodup_cons.2 ⟨fun hmem => hout (hsub.subset hmem), hnodup.sublist hsub⟩
      | succ i =>
        have hrest := ih i (hnodup.sublist hsub) fun hmem => hout (hsub.subset hmem)
        cases z with
        | none => exact hrest
        | some y =>
          refine List.nodup_cons.2 ⟨fun hmem => ?_, hrest⟩
          obtain ⟨w, hw, hwid⟩ := List.mem_filterMap.1 hmem
          rcases mem_modAt hw with hold | ⟨_, _, rfl⟩
          · exact (List.nodup_cons.1 hnodup).1 (List.mem_filterMap.2 ⟨w, hold, hwid⟩)
          · exact hout (List.mem_filterMap.2 ⟨some y, List.mem_cons_self, hwid.symm⟩)
  · rcases mem_modAt hy with hold | ⟨_, _, hset⟩
    · exact horders y hold
    · cases hset
      exact ho

/-- The numbers of an ORDR lie in the ranges of an order (R109, R111). -/
theorem ordrNumbers_ok {f : OrdrFields} {n : OrdrNumbers} (h : ordrNumbers f = some n) (g : Target) (x : Derived) (k : Nat) :
    OrderOk (newOrder n g x k) := by
  have hupTo : ∀ {hi : Nat} {v : Int} {m : Nat}, natUpTo hi v = some m → m ≤ hi := fun {hi v m} hm => by
    have hrange := natUpTo_range (hi := hi) (x := v) (by simp [hm])
    unfold natUpTo at hm
    split at hm
    · cases hm
      omega
    · cases hm
  have hin : ∀ {lo hi : Nat} {v : Int} {m : Nat}, natIn lo hi v = some m → lo ≤ m ∧ m ≤ hi := fun {lo hi v m} hm => by
    have hrange := natIn_range (lo := lo) (hi := hi) (x := v) (by simp [hm])
    unfold natIn at hm
    split at hm
    · cases hm
      omega
    · cases hm
  unfold ordrNumbers at h
  split at h
  · next id a pr rt tk dt hid _ hpr hrt _ _ =>
    cases h
    refine ⟨(hin hid).1, (hin hid).2, hupTo hpr, hupTo hrt, ?_⟩
    show (if x.toMove = 0 then 100 else 0) ≤ 100
    split <;> decide
  · cases h

/-- An ORDR that passes its tests makes a lawful order under an id that the table does not hold (R111). -/
theorem ordrTests_inr {s : State} {k i : Nat} {f : OrdrFields} {o : Order} (h : ordrTests s k f = .inr (i, o)) :
    OrderOk o ∧ ∀ y, some y ∈ s.orders.slots → y.id ≠ o.id := by
  unfold ordrTests at h
  split at h
  · cases h
  · split at h
    · next n g hnumbers _ =>
      split at h
      · cases h
      · next hfree =>
        split at h
        · cases h
        · split at h
          · cases h
          · split at h
            · cases h
            · split at h
              · cases h
              · cases h
                refine ⟨ordrNumbers_ok hnumbers g _ k, fun y hy hid => hfree ?_⟩
                have hfound : orderById s n.id ≠ none := fun hnone =>
                  absurd (decide_eq_true hid) (List.find?_eq_none.1 hnone y (mem_ordersList.2 hy))
                exact Option.isSome_iff_ne_none.2 hfound
    · cases h

theorem ordr_keepsLaws (k : Nat) (f : OrdrFields) (s : State) : KeepsLaws s (ordr k f s) := by
  unfold ordr
  split
  · exact reply_keepsLaws s _ k _ _
  · next i o hpassed =>
    obtain ⟨hok, hnew⟩ := ordrTests_inr hpassed
    split
    · next hroom =>
      have hentered : KeepsLaws s (setOrders s { s.orders with slots := modAt s.orders.slots i fun _ => some o }) :=
        setOrders_keepsLaws s fun h => h.enter hok hnew i
      refine hentered.trans (Path.keepsLaws (bs := [.console, .engine]) ?_)
      exact (hold_path _ .console k).andThen (placePreview_path _ (by rw [hasRoom_hold]; exact hroom))
    · exact reply_keepsLaws s _ k _ _

theorem orel_keepsLaws (k : Nat) (oi : Int) (s : State) : KeepsLaws s (orel k oi s) := by
  unfold orel
  split
  · exact reply_keepsLaws s _ k _ _
  · exact .ite ((setOrders_keepsLaws s fun h => h.drop _).trans (reply_keepsLaws _ _ k _ _)) (reply_keepsLaws s _ k _ _)

/-- An admission ends with the order dropped or queued under the next rank (R115). -/
theorem admissionResult_keepsLaws (s : State) (id : Nat) (r : EvalResult) (reference : Option Int) :
    KeepsLaws s (admissionResult s id r reference) := by
  have hdropped : ∀ o oc fs, KeepsLaws s (answerOrdr (dropOrder s id) o oc fs) := fun o oc fs =>
    (setOrders_keepsLaws s fun h => h.drop _).trans (answerOrdr_path _ o oc fs).keepsLaws
  unfold admissionResult
  split
  · exact .refl s
  · refine .ite (.refl s) (.ite (hdropped _ _ _) (.ite (hdropped _ _ _) ?_))
    refine KeepsLaws.trans ?_ (answerOrdr_path _ _ _ _).keepsLaws
    refine (setOrders_keepsLaws s (x := { s.orders with rank := s.orders.rank + 1 }) fun h => h).trans (Path.keepsLaws (bs := [.orders, .pour, .engine]) ?_)
    exact queueOrder_path _ id (by intro _; exact ⟨fun h => h, rfl⟩)

theorem previewComplete_keepsLaws (s : State) : KeepsLaws s (previewComplete s) := by
  have hhand : ∀ q r reference, KeepsLaws s (handPreview s q r reference) := fun q r reference => by
    cases q with
    | order id => exact admissionResult_keepsLaws s id r reference
    | gate _ => exact (gateResult_path s r.band).keepsLaws
    | console k => exact reply_keepsLaws s _ k _ _
  unfold previewComplete
  split
  · exact ((hhand _ _ _).trans (finishEvaluation_path _ _).keepsLaws).trans (settleArbiter_path _).keepsLaws
  · exact .refl s

/-- The windows replaced keep their number (R132). -/
theorem setWindows_keepsLaws (s : State) {ws : List Window} (hws : OrdersOk s.orders → ws.length = 4) : KeepsLaws s (setWindows s ws) := by
  have hset : KeepsLaws s (setOrders s { s.orders with windows := ws }) :=
    setOrders_keepsLaws s fun h => ⟨h.1, hws h, h.2.2⟩
  have hfold := fun ids u => (foldl_path (windowsChangedFor_path s.orders.windows) ids u).keepsLaws
  unfold setWindows
  refine (hset.trans (mirrorHeld_path _ ws).keepsLaws).trans (KeepsLaws.trans ?_ (settleArbiter_path _).keepsLaws)
  exact .ite ((hfold _ _).trans (callArbiter_path _).keepsLaws) (hfold _ _)

theorem hwin_keepsLaws (k : Nat) (wn : Int) (wv wb wm : Option Int) (s : State) : KeepsLaws s (hwin k wn wv wb wm s) := by
  unfold hwin
  split
  · exact reply_keepsLaws s _ k _ _
  · refine .ite (reply_keepsLaws s _ k _ _) ((setWindows_keepsLaws s fun h => ?_).trans (reply_keepsLaws _ _ k _ _))
    rw [modAt_length, h.2.1]

end Sys2Proof.Machine
end

section
/-! PROOFS. The plan, the attention unit, the ports and the input lines keep their laws, and so does every step (R12, R85, R87 to R91, R108 to R111, R134 to R136, R158, R174 to R177, R184 to R192; log 14, 51). -/

namespace Sys2Proof.Machine

/-! ### The plan -/

/-- A first part of the plan is numbered from 1 without a gap as well (R134, R136). -/
theorem PourOk.cut {p : Pour} (h : PourOk p) {xs : List Step} (hxs : xs <+: p.plan) : PourOk { p with plan := xs } := by
  obtain ⟨hnumbers, hlength, hholds⟩ := h
  refine ⟨?_, hxs.length_le.trans hlength, hholds⟩
  calc xs.map Step.number = (p.plan.map Step.number).take xs.length := by
        obtain ⟨rest, hrest⟩ := hxs
        rw [List.map_take.symm, ← hrest, List.take_left]
    _ = (upTo xs.length).map (· + 1) := by
        rw [hnumbers, ← List.map_take, upTo_eq_range, upTo_eq_range, List.take_range, min_eq_left hxs.length_le]

/-- A step appended under the next number, up to the 48th, goes on numbering (R134, R135). -/
theorem PourOk.append {p : Pour} (h : PourOk p) {x : Step} (hnext : x.number = p.plan.length + 1) (hmax : x.number ≤ Config.planMax) :
    PourOk { p with plan := p.plan ++ [x] } := by
  obtain ⟨hnumbers, -, hholds⟩ := h
  refine ⟨?_, by simpa [← hnext] using hmax, hholds⟩
  simp only [List.map_append, List.length_append, List.length_singleton, hnumbers, hnext, upTo_eq_range, List.range_succ, List.map_cons,
    List.map_nil]

/-- PLAN writes a step whose number is at most one above the last and at most 48 (R135). -/
theorem planTests_inr {s : State} {st hd pt : Int} {cp : List Companion} {hc : Option Int} {x : Step}
    (h : planTests s st hd pt cp hc = .inr x) : x.number ≤ lastStep s + 1 ∧ x.number ≤ Config.planMax := by
  unfold planTests at h
  split at h
  · cases h
  · split at h
    · next n _ p c hn _ _ _ =>
      split at h
      · cases h
      · split at h
        · cases h
        · split at h
          · cases h
          · split at h
            · cases h
            · next hsequence =>
              split at h
              · cases h
              · cases h
                have hrange := natIn_range (lo := 1) (hi := 48) (x := st) (by simp [hn])
                refine ⟨not_lt.1 hsequence, ?_⟩
                unfold natIn at hn
                split at hn
                · cases hn
                  show st.toNat ≤ 48
                  omega
                · cases hn
    · cases h

theorem plan_keepsLaws (k : Nat) (st hd pt : Int) (cp : List Companion) (hc : Option Int) (s : State) :
    KeepsLaws s (plan k st hd pt cp hc s) := by
  unfold plan
  split
  · exact reply_keepsLaws s _ k _ _
  · next x htests =>
    obtain ⟨hnext, hmax⟩ := planTests_inr htests
    refine KeepsLaws.trans ?_ (reply_keepsLaws _ _ k _ _)
    unfold writeStep
    split
    · exact (modStep_path s _ _ fun _ _ => rfl).keepsLaws
    · next hnew => exact (setPour_path s _ fun h => h.append (le_antisymm hnext (not_le.1 hnew)) hmax).keepsLaws

theorem pclr_keepsLaws (k : Nat) (st : Option Int) (s : State) : KeepsLaws s (pclr k st s) := by
  have hcut : ∀ {xs}, xs <+: s.pour.plan → ∀ fs, KeepsLaws s (reply (cutPlan s xs) .console k .ok fs) := fun hxs fs =>
    (setPour_path s _ fun h => h.cut hxs).keepsLaws.trans (reply_keepsLaws _ _ k _ _)
  unfold pclr
  split
  · refine hcut ?_ _
    unfold withoutPlannedTail
    have hsuffix : s.pour.plan.reverse.dropWhile (fun x => decide (x.state = .planned)) <:+ s.pour.plan.reverse := List.dropWhile_suffix _
    obtain ⟨planned, hplanned⟩ := hsuffix
    exact ⟨planned.reverse, by rw [← List.reverse_append, hplanned, List.reverse_reverse]⟩
  · split
    · exact reply_keepsLaws s _ k _ _
    · exact .ite (hcut ⟨_, List.take_append_drop _ _⟩ _) (reply_keepsLaws s _ k _ _)

/-! ### The attention unit -/

/-- A new mask withdraws the notices of conditions now disabled, and owes one for each pending condition newly enabled (R185). -/
theorem AttentionOk.enable {a : Attention} (h : AttentionOk a) (mask : BitVec 14) : AttentionOk (enableIn a mask) := by
  obtain ⟨hlength, hnodup, howed, hconditions⟩ := h
  refine ⟨hlength, List.nodup_append.2 ⟨hnodup.filter _, ?_, ?_⟩, fun n hn => ?_, hconditions⟩
  · rw [upTo_eq_range]
    exact List.nodup_range.filter _
  · rintro n hn m hm rfl
    have hold : a.mask.getLsbD n = true := (howed n (List.mem_of_mem_filter hn)).1
    have hfresh := (List.mem_filter.1 hm).2
    simp [hold] at hfresh
  · rcases List.mem_append.1 hn with hkept | hfresh
    · obtain ⟨hmem, hmask⟩ := List.mem_filter.1 hkept
      exact ⟨hmask, (howed n hmem).2⟩
    · have htests := (List.mem_filter.1 hfresh).2
      simp only [Bool.and_eq_true] at htests
      exact ⟨htests.1.1, htests.2⟩

/-- An acknowledged condition has its notice withdrawn with its record, or its count cleared (R186). -/
theorem AttentionOk.ack {a : Attention} (h : AttentionOk a) (n : Nat) : AttentionOk (ackIn a n) := by
  unfold ackIn
  split
  · exact h
  · next c hc =>
    have hok := h.2.2.2 n c hc
    have hself : ∀ {c'}, a.conditions[n]? = some c' → c' = c := fun hc' => Option.some.inj (hc'.symm.trans hc)
    split
    · next hlevel =>
      simp only [ConditionOk, hlevel, if_true] at hok
      split
      · exact h
      · refine h.modCond (fun c' hc' => ?_) (fun c' hc' hn => ?_)
        · rw [hself hc', ConditionOk, if_pos hlevel]
          exact ⟨Nat.zero_le 255, hok.2⟩
        · have hpending := (h.2.2.1 n hn).2
          rw [isPending, hc] at hpending
          rw [hself hc']
          exact hpending
    · next hlatched =>
      rw [ConditionOk, if_neg hlatched] at hok
      split
      · refine h.withdraw_modCond fun c' hc' => ?_
        rw [hself hc', ConditionOk, if_neg hlatched]
        exact ⟨Nat.zero_le 255, hok.2.1, fun _ => ⟨rfl, rfl, rfl⟩⟩
      · exact h

theorem AttentionOk.ackAll {a : Attention} (h : AttentionOk a) (ns : List Nat) : AttentionOk (ns.foldl ackIn a) := by
  induction ns generalizing a with
  | nil => exact h
  | cons n ns ih => exact ih (h.ack n)

theorem aenb_keepsLaws (k : Nat) (em : Int) (s : State) : KeepsLaws s (aenb k em s) := by
  unfold aenb
  split
  · exact reply_keepsLaws s _ k _ _
  · exact (setAttention_keepsLaws s fun h => h.enable _).trans (reply_keepsLaws _ _ k _ _)

theorem aack_keepsLaws (k : Nat) (cn : List Int) (s : State) : KeepsLaws s (aack k cn s) := by
  unfold aack
  split
  · exact reply_keepsLaws s _ k _ _
  · exact (setAttention_keepsLaws s fun h => h.ackAll _).trans (reply_keepsLaws _ _ k _ _)

/-! ### Receivers -/

/-- A receiver replaced keeps its port's law where it collects from a start byte (R188). -/
theorem setRx_keepsLaws (s : State) (l : Link) {r : Receiver}
    (h : PortOk (portOf s l) → r.collecting = true → r.bytes.head? = some 0x5A#8) : KeepsLaws s (setRx s l r) :=
  Path.keepsLaws (setPort_path s l _ fun hport => ⟨hport.1, hport.2.1, hport.2.2.1, h hport⟩)

theorem huntOn_keepsLaws (s : State) (l : Link) (held : List Byte) (at_ : Nat) : KeepsLaws s (huntOn s l held at_) :=
  setRx_keepsLaws s l fun _ => nofun

theorem fromStart_head (bytes : List Byte) (h : (fromStart bytes).isEmpty = false) : (fromStart bytes).head? = some 0x5A#8 := by
  induction bytes with
  | nil => cases h
  | cons b bytes ih =>
    unfold fromStart at h ⊢
    split
    · next hstart => exact congrArg some hstart
    · next hother =>
      rw [if_neg hother] at h
      exact ih h

theorem huntIn_keepsLaws (l : Link) (bytes : List Byte) (s : State) : KeepsLaws s (huntIn l bytes s) :=
  .ite (.refl s) (setRx_keepsLaws s l fun _ hfound => fromStart_head _ (by simpa using hfound))

/-- A port reply is placed while fewer than 8 wait (R190). -/
theorem portReply_keepsLaws (s : State) (l : Link) (h : portRepliesWaiting (portOf s l) < Config.portReplyMax) (kind : List Byte) (tag : Byte)
    (oc : Oc) (fs : List (Field × Val)) : KeepsLaws s (portReply s l kind tag oc fs) := by
  refine Path.keepsLaws (setPort_path s l _ fun hport => ⟨hport.1, hport.2.1, ?_, hport.2.2.2⟩)
  rw [portRepliesWaiting, List.filter_append, List.length_append]
  exact h

/-- The next arrival number depends on the slots alone, which the receiver does not set (R190; log 51). -/
theorem nextArrival_huntOn (s : State) (l : Link) (held : List Byte) (at_ : Nat) :
    nextArrival (portOf (huntOn s l held at_) l) = nextArrival (portOf s l) := by
  rw [huntOn, setRx, portOf_setPort]
  rfl

theorem portRepliesWaiting_huntOn (s : State) (l : Link) (held : List Byte) (at_ : Nat) :
    portRepliesWaiting (portOf (huntOn s l held at_) l) = portRepliesWaiting (portOf s l) := by
  rw [huntOn, setRx, portOf_setPort]
  rfl

/-- A request that is taken has the next arrival number (log 51). -/
theorem arrival_of_dealWith {s : State} {l : Link} {kind : List Byte} {tag : Byte} {body : List Byte} {k : Nat} {sl : Slot}
    (h : dealWith s l kind tag body = .slot k sl) : sl.arrival = nextArrival (portOf s l) := by
  unfold dealWith at h
  split at h
  · cases h
  · split at h
    · cases h
    · split at h
      · cases h
      · split at h
        · cases h
        · cases h
          rfl

theorem collectIn_keepsLaws (l : Link) (bytes : List Byte) (s : State) : KeepsLaws s (collectIn l bytes s) := by
  unfold collectIn
  dsimp only
  split
  · exact .refl s
  · next hcollecting =>
    split
    · refine setRx_keepsLaws s l fun hport _ => ?_
      have hhead := hport.2.2.2 (by simp_all)
      rw [List.head?_append, hhead]
      rfl
    · exact huntOn_keepsLaws s l _ _
    · split
      · split
        · next hroom =>
          refine (huntOn_keepsLaws s l _ _).trans (portReply_keepsLaws _ l ?_ _ _ _ _)
          rw [portRepliesWaiting_huntOn]
          exact hroom
        · exact huntOn_keepsLaws s l _ _
      · next hslot =>
        refine (huntOn_keepsLaws s l _ _).trans (takeSlot_path _ l _ ?_).keepsLaws
        rw [arrival_of_dealWith hslot, nextArrival_huntOn]

theorem dropStale_keepsLaws (l : Link) (s : State) : KeepsLaws s (dropStale l s) := .ite (huntOn_keepsLaws s l _ _) (.refl s)

/-! ### Transmitters -/

theorem beginTx_keepsLaws (s : State) (l : Link) (f : TxFrame) : KeepsLaws s (beginTx s l f) :=
  Path.keepsLaws (setPort_path s l _ fun h => h)

theorem beginReport_keepsLaws (s : State) (l : Link) (r : Report) : KeepsLaws s (beginReport s l r) := by
  refine KeepsLaws.trans ?_ (beginTx_keepsLaws _ l _)
  refine Path.keepsLaws (setReports_path s _ fun h => ⟨?_, h.2⟩)
  rw [List.length_map]
  exact h.1

/-- The frame that leaves the outgoing queue leaves no more port replies waiting (R190, R192). -/
theorem PortOk.tail {p : Port} (h : PortOk p) {f : Class1} {rest : List Class1} (hqueue : p.queue = f :: rest) :
    PortOk { p with queue := rest } := by
  obtain ⟨hslots, harrivals, hreplies, hrx⟩ := h
  refine ⟨hslots, harrivals, le_trans ?_ hreplies, hrx⟩
  rw [portRepliesWaiting, portRepliesWaiting, hqueue]
  exact ((List.sublist_cons_self f rest).filter _).length_le

/-- The notice that is sent is owed no longer (R184). -/
theorem AttentionOk.tail {a : Attention} (h : AttentionOk a) {n : Nat} {rest : List Nat} (howed : a.owed = n :: rest) :
    AttentionOk { a with owed := rest } := by
  obtain ⟨hlength, hnodup, hpending, hconditions⟩ := h
  rw [howed] at hnodup hpending
  exact ⟨hlength, (List.nodup_cons.1 hnodup).2, fun m hm => hpending m (List.mem_cons_of_mem n hm), hconditions⟩

theorem chooseFrame_keepsLaws (l : Link) (s : State) : KeepsLaws s (chooseFrame l s) := by
  unfold chooseFrame
  split
  · exact .refl s
  · split
    · next hqueue => exact (setPort_path s l _ fun h => h.tail hqueue).keepsLaws.trans (beginTx_keepsLaws _ l _)
    · split
      · exact .refl s
      · split
        · next hnote =>
          split at hnote
          · exact (setAttention_keepsLaws s fun h => h.tail hnote).trans (beginTx_keepsLaws _ l _)
          · cases hnote
        · split
          · exact beginReport_keepsLaws s l _
          · exact .refl s

theorem frameSent_keepsLaws (l : Link) (s : State) : KeepsLaws s (frameSent l s) := by
  have hfree : KeepsLaws s (freeTx s l) := (freeTx_path s l).keepsLaws
  unfold frameSent
  split
  · split
    · exact .ite (restartedFrom_keepsLaws s _) (hfree.trans (freeSlotAt_path _ l _).keepsLaws)
    · exact hfree
  · exact hfree
  · exact hfree
  · exact .refl s

theorem deliverQueued_keepsLaws (l : Link) (s : State) : KeepsLaws s (deliverQueued l s) := by
  have hset : ∀ queue : List Report, queue.length ≤ s.reports.queue.length → KeepsLaws s (setReports s { s.reports with queue := queue }) :=
    fun queue hqueue => Path.keepsLaws (setReports_path s _ fun h => ⟨hqueue.trans h.1, h.2⟩)
  unfold deliverQueued
  split
  · exact .refl s
  · refine .ite ((hset _ ?_).trans (recordLeft_path _ _).keepsLaws) (hset _ (List.length_map _).le)
    exact (List.length_filter_le _ _).trans (List.length_map _).le

theorem deliver_keepsLaws (l : Link) (s : State) : KeepsLaws s (deliver l s) := by
  unfold deliver
  split
  · next carried _ _ =>
    refine KeepsLaws.trans ?_ (closingCheck_path _).keepsLaws
    refine KeepsLaws.trans ?_ (deliverQueued_keepsLaws l _)
    refine (freeTx_path s l).keepsLaws.trans (setReports_path _ _ fun h => ?_).keepsLaws
    cases l
    · exact ⟨h.1, (Nat.sub_le _ _).trans h.2.1, h.2.2⟩
    · exact ⟨h.1, h.2.1, (Nat.sub_le _ _).trans h.2.2.1, h.2.2.2⟩
  · exact .refl s

/-! ### Input lines and the clock -/

/-- An input line changed leaves a lawful plant (R84, R85). -/
theorem setLines_keepsLaws (s : State) (i : Nat) (f : InputLine → InputLine) :
    KeepsLaws s (setPlant s { s.plant with lines := modAt s.plant.lines i f }) :=
  setPlant_keepsLaws s fun h => ⟨by simpa using h.1, h.2⟩

theorem lineChange_keepsLaws {act : State → State} (h : ∀ u, Path ballastBlocks u (act u)) (i : Nat) (x : Bool) (s : State) :
    KeepsLaws s (lineChange i x act s) :=
  .ite ((setLines_keepsLaws s i _).trans ((h _).trans (settleArbiter_path _)).keepsLaws) (.refl s)

theorem sampleLine_keepsLaws (s : State) (i : Nat) : KeepsLaws s (sampleLine s i) := by
  unfold sampleLine
  split
  · exact .refl s
  · next l _ =>
    have hsample := setLines_keepsLaws s i fun _ => l.sample s.settings.db
    exact .ite hsample (hsample.trans ((lineEvent_path i _ _).trans (settleArbiter_path _)).keepsLaws)

theorem refreshChain_keepsLaws (s : State) : KeepsLaws s (refreshChain s) := by
  unfold refreshChain
  generalize upTo 66 = lines
  induction lines generalizing s with
  | nil => exact .refl s
  | cons i lines ih => exact (sampleLine_keepsLaws s i).trans (ih _)

/-- A second counted by a pump leaves its start line and its state (R90, R101). -/
theorem PumpOk.tick {p : Pump} (h : PumpOk p) : PumpOk p.tick := by
  unfold Pump.tick
  split <;> exact h

theorem oneSecond_keepsLaws (s : State) : KeepsLaws s (oneSecond s) := by
  refine (setClocks_changesOnly (bs := [.clocks]) (by decide) s _).keepsLaws.trans (setPlant_keepsLaws _ fun h => ?_)
  obtain ⟨hlines, hlength, hvalves, hpumps, hrest⟩ := h
  exact ⟨hlines, by rw [List.length_map]; exact hlength, hvalves, List.forall_mem_map.2 fun p hp => (hpumps p hp).tick, hrest⟩

/-! ### Every step -/

/-- Every request keeps the laws. -/
theorem requestEffect_keepsLaws (r : Request) (k : Nat) (s : State) : KeepsLaws s (requestEffect k r s) := by
  cases r with
  | popn => exact popn_keepsLaws k s
  | pdat sn xi sd => exact pdat_keepsLaws k sn xi sd s
  | pcls cr => exact pcls_keepsLaws k cr s
  | copn => exact copn_keepsLaws k s
  | cend => exact cend_keepsLaws k s
  | clks cl => exact clks_keepsLaws k cl s
  | setp vs => exact setp_keepsLaws k vs s
  | tmap tk gc => exact whenAdmitted_keepsLaws (tmap_path k tk gc s).keepsLaws _ k
  | gcal gc zc gn ofs => exact whenAdmitted_keepsLaws (gcal_path k gc zc gn ofs s).keepsLaws _ k
  | dens tk dn => exact whenAdmitted_keepsLaws (dens_path k tk dn s).keepsLaws _ k
  | sndg tk lv => exact whenAdmitted_keepsLaws (sndg_path k tk lv s).keepsLaws _ k
  | gqry tk gc => exact (gqry_path k tk gc s).keepsLaws
  | prev fields => exact whenAdmitted_keepsLaws (prev_path k fields s).keepsLaws _ k
  | hqry => exact reply_keepsLaws s _ k _ _
  | prst pu => exact (whenPlantAdmitted_path (by decide) (prst_path k pu s) k).keepsLaws
  | xovr xm => exact (whenPlantAdmitted_path (by decide) (xovr_path k xm s) k).keepsLaws
  | gang ga gm => exact (whenPlantAdmitted_path (by decide) (gang_path k ga gm s) k).keepsLaws
  | ordr f => exact whenAdmitted_keepsLaws (ordr_keepsLaws k f s) _ k
  | ocan oi => exact whenAdmitted_keepsLaws (ocan_path k oi s).keepsLaws _ k
  | orel oi => exact whenAdmitted_keepsLaws (orel_keepsLaws k oi s) _ k
  | oqry oi => exact (oqry_path k oi s).keepsLaws
  | hwin wn wv wb wm => exact whenAdmitted_keepsLaws (hwin_keepsLaws k wn wv wb wm s) _ k
  | plan st hd pt cp hc => exact whenAdmitted_keepsLaws (plan_keepsLaws k st hd pt cp hc s) _ k
  | pclr st => exact whenAdmitted_keepsLaws (pclr_keepsLaws k st s) _ k
  | sfrc st => exact whenAdmitted_keepsLaws (sfrc_path k st s).keepsLaws _ k
  | sskp st => exact whenAdmitted_keepsLaws (sskp_path k st s).keepsLaws _ k
  | hcor hd ms => exact whenAdmitted_keepsLaws (hcor_path k hd ms s).keepsLaws _ k
  | rreq => exact whenAdmitted_keepsLaws (rreq_path k s).keepsLaws _ k
  | rcfg f => exact (rcfg_path k f s).keepsLaws
  | aenb em => exact aenb_keepsLaws k em s
  | aack cn => exact aack_keepsLaws k cn s
  | aqry => exact reply_keepsLaws s _ k _ _
  | wrst =>
    exact (setWrstPending_changesOnly (bs := [.wrstPending]) (by decide) s true).keepsLaws.trans (reply_keepsLaws _ _ k _ _)
  | tatt => exact (tatt_path k s).keepsLaws
  | tdet => exact (tdet_path k s).keepsLaws
  | sreq st => exact whenAdmitted_keepsLaws (sreq_path k st s).keepsLaws _ k
  | taly hd ty => exact whenAdmitted_keepsLaws (taly_path k hd ty s).keepsLaws _ k
  | sfin st fn => exact whenAdmitted_keepsLaws (sfin_path k st fn s).keepsLaws _ k
  | lstp st => exact whenAdmitted_keepsLaws (lstp_path k st s).keepsLaws _ k
  | scan st => exact whenAdmitted_keepsLaws (scan_path k st s).keepsLaws _ k
  | sqry st => exact (sqry_path k st s).keepsLaws

/-- Every event keeps the laws. -/
theorem eventEffect_keepsLaws (c : Instr) (s : State) : KeepsLaws s (eventEffect c s) := by
  cases c with
  | warmReset => exact restartedFrom_keepsLaws s _
  | uptimeSecond => exact oneSecond_keepsLaws s
  | powerLoss => exact (losePower_preserves s).changes.keepsLaws
  | startByteFound l bytes => exact huntIn_keepsLaws l bytes s
  | frameReceived l bytes => exact collectIn_keepsLaws l bytes s
  | frameDiscarded l bytes => exact collectIn_keepsLaws l bytes s
  | frameIncompleteTimeout l => exact dropStale_keepsLaws l s
  | frameTransmitStart l => exact chooseFrame_keepsLaws l s
  | replyTransmitComplete l => exact frameSent_keepsLaws l s
  | delivery l => exact deliver_keepsLaws l s
  | profileChecksComplete => exact checksEnd_keepsLaws s
  | nonVolatileWriteComplete back => exact writeEnd_keepsLaws back s
  | scanPeriodTick => exact (scanTick_path s).keepsLaws
  | conversionComplete code => exact (conversion_path (Nat.le_of_lt_succ code.isLt) s).keepsLaws
  | liveEvaluationComplete => exact (liveComplete_path s).keepsLaws
  | previewComplete => exact previewComplete_keepsLaws s
  | valveLimitChange v l x => exact .ite (lineChange_keepsLaws (limitEvent_path v l x) _ x s) (.refl s)
  | strokeTimerExpiry v => exact (strokeExpired_path v s).keepsLaws
  | pressureProvenChange n x => exact .ite (lineChange_keepsLaws (provenEvent_path n x) _ x s) (.refl s)
  | pumpRunningFeedbackChange n x => exact .ite (lineChange_keepsLaws (runningEvent_path n x) _ x s) (.refl s)
  | proveTimerExpiry id => exact (proveExpired_path id s).keepsLaws
  | pumpStopTimerExpiry n => exact (stopExpired_path n s).keepsLaws
  | stallWindowExpiry id => exact (stallExpired_path id s).keepsLaws
  | holdTimerExpiry n => exact (holdExpired_path n s).keepsLaws
  | settleTimerExpiry n => exact (settleExpired_path n s).keepsLaws
  | quietTimerExpiry => exact (quietExpired_path s).keepsLaws
  | _ => exact .refl s

/-- A step keeps the laws: it refreshes the chain or runs the front command. -/
theorem step_keepsLaws {s t : State} (h : step s = .next t) : KeepsLaws s t := by
  unfold step at h
  split at h
  · cases h
    exact .ite (refreshChain_keepsLaws s) (.refl s)
  · next c rest _ =>
    refine ((setPending_changesOnly (bs := [.pending]) (by decide) s rest).keepsLaws).trans ?_
    exact exec_rel .refl (fun u => restartedFrom_keepsLaws u _) requestEffect_keepsLaws eventEffect_keepsLaws h

end Sys2Proof.Machine
end

section
/-! PROOFS. No step leaves a run of the arbiter owed, and so the laws of plant and links (R116; log 14). -/

namespace Sys2Proof.Machine

/-! ### Runs owed -/

/-- If no run of the arbiter is owed in `s`, none is owed in `t` (log 14). -/
def LeavesNoRun (s t : State) : Prop := s.orders.runOwed = false → t.orders.runOwed = false

theorem LeavesNoRun.refl (s : State) : LeavesNoRun s s := id

theorem LeavesNoRun.trans {s t u : State} (p : LeavesNoRun s t) (q : LeavesNoRun t u) : LeavesNoRun s u := q ∘ p

theorem LeavesNoRun.ite {c : Prop} [Decidable c] {s t u : State} (p : LeavesNoRun s t) (q : LeavesNoRun s u) :
    LeavesNoRun s (if c then t else u) := by
  split
  · exact p
  · exact q

/-- A change of other pieces calls for no run. -/
theorem ChangesOnly.leavesNoRun {bs : List Block} {s t : State} (h : ChangesOnly bs s t) (hbs : .orders ∉ bs := by decide) :
    LeavesNoRun s t :=
  fun howed => (congrArg Orders.runOwed (h .orders hbs)).trans howed

/-- The end of an event makes every run that is owed (R116). -/
theorem settleArbiter_leavesNoRun (s u : State) : LeavesNoRun s (settleArbiter u) := fun _ => settleArbiter_done u

theorem reply_leavesNoRun (s : State) (k : Nat) (oc : Oc) (fs : List (Field × Val)) : LeavesNoRun s (reply s .console k oc fs) :=
  (reply_path s .console k oc fs).changesOnly.leavesNoRun

/-- An event whose runs are made before it is answered. -/
theorem answered_leavesNoRun (s u : State) (k : Nat) (oc : Oc) (fs : List (Field × Val)) :
    LeavesNoRun s (reply (settleArbiter u) .console k oc fs) :=
  (settleArbiter_leavesNoRun s u).trans (reply_leavesNoRun _ k oc fs)

/-- A change of one order's record calls for no run; nor does its announcement (R145). -/
theorem moveOrder_leavesNoRun (s : State) (id : Nat) (f : Order → Order) : LeavesNoRun s (moveOrder s id f) :=
  LeavesNoRun.trans (t := modOrder s id f) (fun h => h) (recheck_path _).changesOnly.leavesNoRun

/-! ### Requests -/

theorem cend_leavesNoRun (k : Nat) (s : State) : LeavesNoRun s (cend k s) := by
  have hended : LeavesNoRun s (endCall s) := fun _ =>
    (endCall_tail_path (endOrders (endPour (triggerDeparture (setCall s .closing))))).changesOnly.leavesNoRun (by decide) rfl
  exact .ite (reply_leavesNoRun s k _ _) (.ite (reply_leavesNoRun s k _ _) (hended.trans (reply_leavesNoRun _ k _ _)))

theorem gcal_leavesNoRun (k : Nat) (gc : Int) (zc gn ofs : Option Int) (s : State) : LeavesNoRun s (gcal k gc zc gn ofs s) := by
  unfold gcal
  split
  · exact reply_leavesNoRun s k _ _
  · exact answered_leavesNoRun s _ k _ _

theorem tmap_leavesNoRun (k : Nat) (tk gc : Int) (s : State) : LeavesNoRun s (tmap k tk gc s) := by
  unfold tmap
  split
  · exact .ite (reply_leavesNoRun s k _ _) (.ite (reply_leavesNoRun s k _ _) (answered_leavesNoRun s _ k _ _))
  · exact reply_leavesNoRun s k _ _

theorem prst_leavesNoRun (k : Nat) (pu : Int) (s : State) : LeavesNoRun s (prst k pu s) := by
  unfold prst
  split
  · exact reply_leavesNoRun s k _ _
  · exact .ite (reply_leavesNoRun s k _ _) (.ite (reply_leavesNoRun s k _ _) (answered_leavesNoRun s _ k _ _))

theorem xovr_leavesNoRun (k : Nat) (xm : Option Int) (s : State) : LeavesNoRun s (xovr k xm s) := by
  unfold xovr
  split
  · exact reply_leavesNoRun s k _ _
  · split
    · exact reply_leavesNoRun s k _ _
    · exact .ite (reply_leavesNoRun s k _ _) (.ite (reply_leavesNoRun s k _ _) (.ite (reply_leavesNoRun s k _ _)
        (answered_leavesNoRun s _ k _ _)))

theorem gang_leavesNoRun (k : Nat) (ga gm : Int) (s : State) : LeavesNoRun s (gang k ga gm s) := by
  unfold gang
  split
  · exact .ite (reply_leavesNoRun s k _ _) (.ite (reply_leavesNoRun s k _ _) (answered_leavesNoRun s _ k _ _))
  · exact reply_leavesNoRun s k _ _

theorem ordr_leavesNoRun (k : Nat) (f : OrdrFields) (s : State) : LeavesNoRun s (ordr k f s) := by
  unfold ordr
  split
  · exact reply_leavesNoRun s k _ _
  · next i o _ =>
    split
    · next hroom =>
      refine LeavesNoRun.trans (t := setOrders s { s.orders with slots := modAt s.orders.slots i fun _ => some o }) (fun h => h) ?_
      refine Path.changesOnly (bs := [.console, .engine]) ?_ |>.leavesNoRun
      exact (hold_path _ .console k).andThen (placePreview_path _ (by rw [hasRoom_hold]; exact hroom))
    · exact reply_leavesNoRun s k _ _

theorem ocan_leavesNoRun (k : Nat) (oi : Int) (s : State) : LeavesNoRun s (ocan k oi s) := by
  unfold ocan
  split
  · exact reply_leavesNoRun s k _ _
  · split
    · exact (moveOrder_leavesNoRun s _ _).trans (reply_leavesNoRun _ k _ _)
    · exact (moveOrder_leavesNoRun s _ _).trans (reply_leavesNoRun _ k _ _)
    · exact answered_leavesNoRun s _ k _ _
    · exact answered_leavesNoRun s _ k _ _
    · exact answered_leavesNoRun s _ k _ _
    all_goals exact reply_leavesNoRun s k _ _

theorem orel_leavesNoRun (k : Nat) (oi : Int) (s : State) : LeavesNoRun s (orel k oi s) := by
  unfold orel
  split
  · exact reply_leavesNoRun s k _ _
  · exact .ite (fun h => reply_leavesNoRun _ k _ _ h) (reply_leavesNoRun s k _ _)

theorem hwin_leavesNoRun (k : Nat) (wn : Int) (wv wb wm : Option Int) (s : State) : LeavesNoRun s (hwin k wn wv wb wm s) := by
  unfold hwin
  split
  · exact reply_leavesNoRun s k _ _
  · exact .ite (reply_leavesNoRun s k _ _) (answered_leavesNoRun s _ k _ _)

theorem whenAdmitted_leavesNoRun {s : State} {act : State → State} (h : LeavesNoRun s (act s)) (admitted : CallState → Bool) (k : Nat) :
    LeavesNoRun s (whenAdmitted admitted .console k s act) :=
  .ite h (reply_leavesNoRun s k _ _)

theorem whenPlantAdmitted_leavesNoRun {s : State} {act : State → State} (h : LeavesNoRun s (act s)) (k : Nat) :
    LeavesNoRun s (whenPlantAdmitted k s act) :=
  .ite h (reply_leavesNoRun s k _ _)

/-- No request leaves a run owed: those that touch the order engine make the runs they call for. -/
theorem requestEffect_leavesNoRun (r : Request) (k : Nat) (s : State) : LeavesNoRun s (requestEffect k r s) := by
  cases r with
  | cend => exact cend_leavesNoRun k s
  | gcal gc zc gn ofs => exact whenAdmitted_leavesNoRun (gcal_leavesNoRun k gc zc gn ofs s) _ k
  | tmap tk gc => exact whenAdmitted_leavesNoRun (tmap_leavesNoRun k tk gc s) _ k
  | prst pu => exact whenPlantAdmitted_leavesNoRun (prst_leavesNoRun k pu s) k
  | xovr xm => exact whenPlantAdmitted_leavesNoRun (xovr_leavesNoRun k xm s) k
  | gang ga gm => exact whenPlantAdmitted_leavesNoRun (gang_leavesNoRun k ga gm s) k
  | ordr f => exact whenAdmitted_leavesNoRun (ordr_leavesNoRun k f s) _ k
  | ocan oi => exact whenAdmitted_leavesNoRun (ocan_leavesNoRun k oi s) _ k
  | orel oi => exact whenAdmitted_leavesNoRun (orel_leavesNoRun k oi s) _ k
  | hwin wn wv wb wm => exact whenAdmitted_leavesNoRun (hwin_leavesNoRun k wn wv wb wm s) _ k
  | _ => exact (requestEffect_preserves _ k s).changes.leavesNoRun (by simp only [Request.command, touches]; decide)

/-! ### Events -/

theorem lineChange_leavesNoRun (i : Nat) (x : Bool) (act : State → State) (s : State) : LeavesNoRun s (lineChange i x act s) :=
  .ite (settleArbiter_leavesNoRun s _) (.refl s)

theorem conversion_leavesNoRun (code : Nat) (s : State) : LeavesNoRun s (conversion code s) := by
  unfold conversion
  split
  · exact .refl s
  · split
    · exact .refl s
    · exact settleArbiter_leavesNoRun s _

theorem liveComplete_leavesNoRun (s : State) : LeavesNoRun s (liveComplete s) := by
  unfold liveComplete
  split
  · exact settleArbiter_leavesNoRun s _
  · exact .refl s

theorem previewComplete_leavesNoRun (s : State) : LeavesNoRun s (previewComplete s) := by
  unfold previewComplete
  split
  · exact settleArbiter_leavesNoRun s _
  · exact .refl s

theorem proveExpired_leavesNoRun (id : Nat) (s : State) : LeavesNoRun s (proveExpired id s) := by
  unfold proveExpired
  split
  · exact .ite (settleArbiter_leavesNoRun s _) (.refl s)
  · exact .refl s

theorem stopExpired_leavesNoRun (n : Nat) (s : State) : LeavesNoRun s (stopExpired n s) := by
  unfold stopExpired
  split
  · exact .ite (settleArbiter_leavesNoRun s _) (.refl s)
  · exact .refl s

theorem stallExpired_leavesNoRun (id : Nat) (s : State) : LeavesNoRun s (stallExpired id s) := by
  unfold stallExpired
  split
  · exact .refl s
  · split
    · exact .refl s
    · exact .ite (.ite (settleArbiter_leavesNoRun s _) (fun h => h)) (.refl s)

/-- A frame sent leaves the order engine alone, or resets it (R193). -/
theorem frameSent_leavesNoRun (l : Link) (s : State) : LeavesNoRun s (frameSent l s) := by
  have hfree : LeavesNoRun s (freeTx s l) := (freeTx_path s l).changesOnly.leavesNoRun (by cases l <;> decide)
  unfold frameSent
  split
  · split
    · exact .ite (fun _ => rfl) (hfree.trans ((freeSlotAt_path _ l _).changesOnly.leavesNoRun (by cases l <;> decide)))
    · exact hfree
  · exact hfree
  · exact hfree
  · exact .refl s

/-- No event leaves a run owed. -/
theorem eventEffect_leavesNoRun (c : Instr) (s : State) : LeavesNoRun s (eventEffect c s) := by
  cases c with
  | warmReset => exact fun _ => rfl
  | uptimeSecond => exact (oneSecond_changesOnly s).leavesNoRun
  | powerLoss => exact (losePower_preserves s).changes.leavesNoRun
  | startByteFound l bytes => exact (huntIn_preserves l bytes s).changes.leavesNoRun (by cases l <;> decide)
  | frameReceived l bytes => exact (collectIn_preserves l bytes s).changes.leavesNoRun (by cases l <;> decide)
  | frameDiscarded l bytes => exact (collectIn_preserves l bytes s).changes.leavesNoRun (by cases l <;> decide)
  | frameIncompleteTimeout l => exact (dropStale_preserves l s).changes.leavesNoRun (by cases l <;> decide)
  | frameTransmitStart l => exact (chooseFrame_preserves l s).changes.leavesNoRun (by cases l <;> decide)
  | replyTransmitComplete l => exact frameSent_leavesNoRun l s
  | delivery l => exact (deliver_preserves l s).changes.leavesNoRun (by cases l <;> decide)
  | profileChecksComplete => exact (checksEnd_preserves s).changes.leavesNoRun
  | nonVolatileWriteComplete back => exact (writeEnd_preserves back s).changes.leavesNoRun (by simp [touches])
  | scanPeriodTick => exact (scanTick_path s).changesOnly.leavesNoRun
  | conversionComplete code => exact conversion_leavesNoRun _ s
  | liveEvaluationComplete => exact liveComplete_leavesNoRun s
  | previewComplete => exact previewComplete_leavesNoRun s
  | valveLimitChange v l x => exact .ite (lineChange_leavesNoRun _ x _ s) (.refl s)
  | strokeTimerExpiry v => exact .ite (settleArbiter_leavesNoRun s _) (.refl s)
  | pressureProvenChange n x => exact .ite (lineChange_leavesNoRun _ x _ s) (.refl s)
  | pumpRunningFeedbackChange n x => exact .ite (lineChange_leavesNoRun _ x _ s) (.refl s)
  | proveTimerExpiry id => exact proveExpired_leavesNoRun id s
  | pumpStopTimerExpiry n => exact stopExpired_leavesNoRun n s
  | stallWindowExpiry id => exact stallExpired_leavesNoRun id s
  | holdTimerExpiry n => exact (holdExpired_path n s).changesOnly.leavesNoRun
  | settleTimerExpiry n => exact (settleExpired_path n s).changesOnly.leavesNoRun
  | quietTimerExpiry => exact (quietExpired_path s).changesOnly.leavesNoRun
  | _ => exact .refl s

/-! ### Every step -/

theorem sampleLine_leavesNoRun (s : State) (i : Nat) : LeavesNoRun s (sampleLine s i) := by
  unfold sampleLine
  split
  · exact .refl s
  · exact .ite (fun h => h) (settleArbiter_leavesNoRun s _)

theorem refreshChain_leavesNoRun (s : State) : LeavesNoRun s (refreshChain s) := by
  unfold refreshChain
  generalize upTo 66 = lines
  induction lines generalizing s with
  | nil => exact .refl s
  | cons i lines ih => exact (sampleLine_leavesNoRun s i).trans (ih _)

theorem step_leavesNoRun {s t : State} (h : step s = .next t) : LeavesNoRun s t := by
  unfold step at h
  split at h
  · cases h
    exact .ite (refreshChain_leavesNoRun s) (.refl s)
  · next c rest _ =>
    refine LeavesNoRun.trans (t := setPending s rest) (fun h => h) ?_
    exact exec_rel .refl (fun _ _ => rfl) requestEffect_leavesNoRun eventEffect_leavesNoRun h

/-- Settles O60: every step is a change that keeps the laws and leaves no run owed. -/
theorem stepsKeepThePlantAndLinkLaws : Obligations.StepsKeepThePlantAndLinkLaws := by
  intro s t h
  obtain ⟨hplant, horders, hpour, hterm, hreports, hattention, hconsole, hterminal⟩ := step_keepsLaws h
  exact ⟨hplant, horders, hpour, hterm, hreports, hattention, hconsole, hterminal, step_leavesNoRun h⟩

end Sys2Proof.Machine
end

section
/-! PROOFS. Input lines: the debounce, a refresh of the chain and a debounced change (R84, R85, R116; log 1, 3, 24). -/

namespace Sys2Proof.Machine

/-! ### The debounce -/

/-- A line whose hold of its new level has so many samples to come. -/
def holding (l : InputLine) (m : Nat) : InputLine := { l with raw := l.pin, hold := some { samplesLeft := m } }

/-- A line that has taken the level the outside puts on it. -/
def levelTaken (l : InputLine) : InputLine := { l with raw := l.pin, debounced := l.pin, hold := none }

/-- A sample that shows the old level ends a hold (R85). -/
theorem sample_old {l : InputLine} (h : l.pin = l.debounced) (db : Int) : l.sample db = { l with raw := l.pin, hold := none } := if_pos h

/-- The first sample that shows a new level begins a hold of n samples, or with none settles the line at once (R85). -/
theorem sample_begins {l : InputLine} (h : l.pin ≠ l.debounced) (hhold : l.hold = none) (n : Nat) :
    l.sample (10 * n) = if n = 0 then levelTaken l else holding l n := by
  have hleft : ((10 * n : Int) / 10).toNat = n := by omega
  simp only [InputLine.sample, if_neg h, hhold, hleft]
  rfl

/-- Each further sample of the new level counts the hold down (R85). -/
theorem sample_holding {l : InputLine} (h : l.pin ≠ l.debounced) (db : Int) (m : Nat) :
    (holding l (m + 1)).sample db = if m = 0 then levelTaken l else holding l m := by
  simp only [InputLine.sample, holding, if_neg h, Nat.add_sub_cancel]
  rfl

/-- A hold of m + 1 samples keeps the debounced level for m samples and ends at the next (R85). -/
theorem iter_holding {l : InputLine} (h : l.pin ≠ l.debounced) (db : Int) (m : Nat) :
    (∀ k, k ≤ m → (iter (InputLine.sample db) k (holding l (m + 1))).debounced = l.debounced)
      ∧ iter (InputLine.sample db) (m + 1) (holding l (m + 1)) = levelTaken l := by
  induction m with
  | zero =>
    refine ⟨fun k hk => ?_, (sample_holding h db 0).trans (if_pos rfl)⟩
    obtain rfl := Nat.le_zero.1 hk
    rfl
  | succ m ih =>
    have hnext : (holding l (m + 2)).sample db = holding l (m + 1) := (sample_holding h db (m + 1)).trans (if_neg (Nat.succ_ne_zero m))
    refine ⟨fun k hk => ?_, ?_⟩
    · cases k with
      | zero => rfl
      | succ k =>
        rw [iter, hnext]
        exact ih.1 k (Nat.le_of_succ_le_succ hk)
    · rw [iter, hnext]
      exact ih.2

/-- With DB at 10 n ms a new level is taken n samples after the sample that began its hold (R85). -/
theorem debounce_spec {l : InputLine} (h : l.pin ≠ l.debounced) (hhold : l.hold = none) (n : Nat) :
    (∀ k, k ≤ n → (iter (InputLine.sample (10 * n)) k l).debounced = l.debounced)
      ∧ (iter (InputLine.sample (10 * n)) (n + 1) l).debounced = l.pin := by
  have hfirst := sample_begins h hhold n
  cases n with
  | zero =>
    refine ⟨fun k hk => ?_, ?_⟩
    · obtain rfl := Nat.le_zero.1 hk
      rfl
    · rw [iter, hfirst, if_pos rfl]
      rfl
  | succ m =>
    rw [if_neg (Nat.succ_ne_zero m)] at hfirst
    obtain ⟨hkept, hends⟩ := iter_holding h (10 * (m + 1 : Nat)) m
    refine ⟨fun k hk => ?_, ?_⟩
    · cases k with
      | zero => rfl
      | succ k =>
        rw [iter, hfirst]
        exact hkept k (Nat.le_of_succ_le_succ hk)
    · rw [iter, hfirst, hends]
      rfl

/-- A sample that shows a new level goes on with the hold or takes the level (R85). -/
theorem sample_new {l : InputLine} (h : l.pin ≠ l.debounced) (db : Int) :
    ∃ left, l.sample db = if left = 0 then levelTaken l else holding l left := ⟨_, if_neg h⟩

/-- A sample that changes the debounced level leaves the line settled at the new one (R85). -/
theorem sample_changed {l : InputLine} {db : Int} (h : (l.sample db).debounced = !l.debounced) :
    l.sample db = InputLine.settledAt (!l.debounced) l := by
  have hpin : l.pin ≠ l.debounced := fun hold => by
    rw [sample_old hold] at h
    exact Bool.not_ne_self _ h.symm
  obtain ⟨left, hsample⟩ := sample_new hpin db
  rw [hsample] at h ⊢
  by_cases hleft : left = 0
  · rw [if_pos hleft, levelTaken, Bool.eq_not_of_ne hpin]
    rfl
  · rw [if_neg hleft] at h
    exact absurd h.symm (Bool.not_ne_self _)

/-! ### A debounced change of a line -/

theorem lineOn_eq {p : Plant} {i : Nat} {l : InputLine} (h : p.lines[i]? = some l) : lineOn p i = l.debounced := by rw [lineOn, h]; rfl

/-- A change of a line to the level it has changes nothing (log 1). -/
theorem lineChange_same {s : State} {i : Nat} {x : Bool} (h : lineOn s.plant i = x) (act : State → State) : lineChange i x act s = s := by
  simp [lineChange, h]

theorem lineChange_new {s : State} {i : Nat} {x : Bool} (hi : i < s.plant.lines.length) (h : lineOn s.plant i = !x) (act : State → State) :
    lineChange i x act s = settleArbiter (act (setLine s i x)) := by
  simp [lineChange, h, hi]

theorem lineOn_setLine_self {s : State} {i : Nat} (hi : i < s.plant.lines.length) (x : Bool) : lineOn (setLine s i x).plant i = x := by
  have hline : (setLine s i x).plant.lines[i]? = (s.plant.lines[i]?).map (InputLine.settledAt x) := modAt_getElem?_self _ _ _
  rw [lineOn, hline, List.getElem?_eq_getElem hi]
  rfl

theorem lineOn_setLine_other (s : State) {i j : Nat} (h : i ≠ j) (x : Bool) : lineOn (setLine s i x).plant j = lineOn s.plant j := by
  have hline : (setLine s i x).plant.lines[j]? = s.plant.lines[j]? := modAt_getElem?_other _ _ h
  rw [lineOn, hline, lineOn]

theorem exec_valveLimitChange {s : State} (hpower : s.powered = true) {v : Nat} (hv : v ≤ 28) (l : Limit) (x : Bool) :
    exec (.valveLimitChange v l x) s = .next (lineChange (limitLine v l) x (limitEvent v l x) s) :=
  (event_powered hpower _).trans (congrArg _ (if_pos hv))

theorem exec_pressureProvenChange {s : State} (hpower : s.powered = true) {n : Nat} (h1 : 1 ≤ n) (h4 : n ≤ 4) (x : Bool) :
    exec (.pressureProvenChange n x) s = .next (lineChange (n + 3) x (provenEvent n x) s) :=
  (event_powered hpower _).trans (congrArg _ (if_pos (by simp [isPump, h1, h4])))

theorem exec_pumpRunningFeedbackChange {s : State} (hpower : s.powered = true) {n : Nat} (h1 : 1 ≤ n) (h4 : n ≤ 4) (x : Bool) :
    exec (.pumpRunningFeedbackChange n x) s = .next (lineChange (n - 1) x (runningEvent n x) s) :=
  (event_powered hpower _).trans (congrArg _ (if_pos (by simp [isPump, h1, h4])))

/-! ### A refresh of the chain -/

/-- The command for a debounced change of line `i` (R84). -/
def lineCommand (i : Nat) (x : Bool) : Instr :=
  if i < 4 then .pumpRunningFeedbackChange (i + 1) x
  else if i < 8 then .pressureProvenChange (i - 3) x
  else if i < 37 then .valveLimitChange (i - 8) .openLimit x
  else .valveLimitChange (i - 37) .closedLimit x

/-- A line's command deals with the line's change as the refresh does (R84, R85). -/
theorem exec_lineCommand {s : State} (hpower : s.powered = true) {i : Nat} (hi : i < 66) (x : Bool) :
    exec (lineCommand i x) s = .next (lineChange i x (lineEvent i x) s) := by
  unfold lineCommand lineEvent
  by_cases hrunning : i < 4
  · simp only [if_pos hrunning]
    exact exec_pumpRunningFeedbackChange hpower (by omega) (by omega) x
  · by_cases hproven : i < 8
    · have hline : i - 3 + 3 = i := by omega
      simp only [if_neg hrunning, if_pos hproven]
      rw [exec_pressureProvenChange hpower (by omega) (by omega), hline]
    · by_cases hopen : i < 37
      · have hline : limitLine (i - 8) .openLimit = i := by simp only [limitLine]; omega
        simp only [if_neg hrunning, if_neg hproven, if_pos hopen]
        rw [exec_valveLimitChange hpower (by omega), hline]
      · have hline : limitLine (i - 37) .closedLimit = i := by simp only [limitLine]; omega
        simp only [if_neg hrunning, if_neg hproven, if_neg hopen]
        rw [exec_valveLimitChange hpower (by omega), hline]

/-- A sample whose debounced level stays changes its line alone (R85). -/
theorem sampleLine_steady {s : State} {i : Nat} {l : InputLine} (hl : s.plant.lines[i]? = some l)
    (h : (l.sample s.settings.db).debounced = l.debounced) :
    sampleLine s i = { s with plant := { s.plant with lines := modAt s.plant.lines i fun _ => l.sample s.settings.db } } := by
  simp only [sampleLine, hl, if_pos h]
  rfl

/-- A sample that changes the debounced level is the line's command (R85, R116; log 3). -/
theorem exec_lineCommand_of_changed {s : State} (hpower : s.powered = true) {i : Nat} (hi : i < 66) {l : InputLine}
    (hl : s.plant.lines[i]? = some l) (h : (l.sample s.settings.db).debounced = !l.debounced) :
    exec (lineCommand i (!l.debounced)) s = .next (sampleLine s i) := by
  have hlength : i < s.plant.lines.length := (List.getElem?_eq_some_iff.1 hl).1
  have hchanged : ¬(l.sample s.settings.db).debounced = l.debounced := by rw [h]; exact Bool.not_ne_self _
  rw [exec_lineCommand hpower hi, lineChange_new hlength (by rw [lineOn_eq hl, Bool.not_not])]
  simp only [sampleLine, hl, if_neg hchanged]
  rw [h, sample_changed h]
  rfl

/-- A sample sets its own line and, in what it calls for, no other (R85). -/
theorem sampleLine_lines (s : State) (i : Nat) : (sampleLine s i).plant.lines = modAt s.plant.lines i (InputLine.sample s.settings.db) := by
  cases hl : s.plant.lines[i]? with
  | none =>
    have hnone : modAt s.plant.lines i (InputLine.sample s.settings.db) = s.plant.lines := List.ext_getElem? fun j => by
      rw [modAt_getElem?]
      split
      · next hj => rw [← hj, hl, Option.map_none]
      · rfl
    simp only [sampleLine, hl, hnone]
  | some l =>
    have hset : (modAt s.plant.lines i fun _ => l.sample s.settings.db) = modAt s.plant.lines i (InputLine.sample s.settings.db) :=
      modAt_congr_at fun y hy => by rw [Option.some.inj (hy.symm.trans hl)]
    simp only [sampleLine, hl, ← hset]
    split
    · rfl
    · exact ((lineEvent_path i _ _).trans (settleArbiter_path _)).lines

/-- The part after the samples of the first lines of the chain. -/
def sampledTo (s : State) (i : Nat) : State := (upTo i).foldl sampleLine s

theorem sampledTo_succ (s : State) (i : Nat) : sampledTo s (i + 1) = sampleLine (sampledTo s i) i := by
  rw [sampledTo, upTo, List.foldl_append]
  rfl

theorem sampledTo_changesOnly (s : State) (i : Nat) : ChangesOnly ballastBlocks s (sampledTo s i) := by
  induction i with
  | zero => exact ChangesOnly.refl _ s
  | succ i ih =>
    rw [sampledTo_succ]
    exact ih.trans (sampleLine_preserves _ i).changes

/-- Each line is sampled once, in its turn, with DB in force (R85). -/
theorem sampledTo_line (s : State) (i j : Nat) : (sampledTo s i).plant.lines[j]?
    = (s.plant.lines[j]?).map fun l => if j < i then l.sample s.settings.db else l := by
  induction i with
  | zero => simp [sampledTo, upTo]
  | succ i ih =>
    have hsettings : (sampledTo s i).settings = s.settings := sampledTo_changesOnly s i .settings (by decide)
    rw [sampledTo_succ, sampleLine_lines, hsettings, modAt_getElem?, ih]
    cases s.plant.lines[j]? with
    | none => simp
    | some l =>
      by_cases hj : i = j
      · simp [hj]
      · have hlt : j < i + 1 ↔ j < i := by omega
        simp [hj, hlt]

/-- Settles O2. -/
theorem emptyQueueSamplesAndDebounces : Obligations.EmptyQueueSamplesAndDebounces := by
  refine ⟨fun s hqueue => ?_, fun n l hpin hhold => debounce_spec hpin hhold n, fun db l hpin => ?_⟩
  · have hstep : step s = .next (idle s) := by rw [step, hqueue]
    refine ⟨fun hpower => ?_, fun hpower hlength => ?_⟩
    · rw [hstep, idle, hpower]
      rfl
    · have hlines : (sampledTo s 66).plant.lines = s.plant.lines.map (InputLine.sample s.settings.db) := List.ext_getElem? fun j => by
        rw [sampledTo_line, List.getElem?_map]
        refine Option.map_congr fun l hl => ?_
        have hj : j < 66 := hlength ▸ (List.getElem?_eq_some_iff.1 hl).1
        exact if_pos hj
      refine ⟨sampledTo s, rfl, ?_, hlines, sampledTo_changesOnly s 66, fun i l hl => ?_⟩
      · rw [hstep, idle, if_pos hpower]
        rfl
      · have hi : i < 66 := hlength ▸ (List.getElem?_eq_some_iff.1 hl).1
        have hkeeps := sampledTo_changesOnly s i
        have hsettings : (sampledTo s i).settings = s.settings := hkeeps .settings (by decide)
        have hpowered : (sampledTo s i).powered = true := (hkeeps .powered (by decide)).trans hpower
        have hline : (sampledTo s i).plant.lines[i]? = some l := by rw [sampledTo_line, hl]; simp
        refine ⟨hline, fun hsteady => ?_, fun hchanged => ?_⟩
        · rw [← hsettings] at hsteady ⊢
          rw [sampledTo_succ, sampleLine_steady hline hsteady]
        · rw [← hsettings] at hchanged
          rw [sampledTo_succ]
          exact exec_lineCommand_of_changed hpowered hi hline hchanged
  · rw [sample_old hpin]
    exact ⟨rfl, rfl⟩

end Sys2Proof.Machine
end

section
/-! PROOFS. Records of the plant read and changed: pumps, valves, attempts; and valves that follow their limits (R84, R86 to R90; log 1, 2). -/

namespace Sys2Proof.Machine

/-! ### Pumps -/

theorem pumpRec_eq {s : State} {n : Nat} (h : 1 ≤ n) : pumpRec s n = s.plant.pumps[n - 1]? := if_neg (by omega)

theorem pumpRec_of {s : State} {n : Nat} {p : Pump} (h : 1 ≤ n) (hp : s.plant.pumps[n - 1]? = some p) : pumpRec s n = some p :=
  (pumpRec_eq h).trans hp

theorem pumpState_of {s : State} {n : Nat} {p : Pump} (h : 1 ≤ n) (hp : s.plant.pumps[n - 1]? = some p) : pumpState s n = p.state := by
  rw [pumpState, pumpRec_of h hp]
  rfl

theorem available_congr {s t : State} (h : t.plant = s.plant) (n : Nat) : available t n = available s n := by
  rw [available, pumpRec, h]
  rfl

theorem available_iff {s : State} {n : Nat} {p : Pump} (h : 1 ≤ n) (hp : s.plant.pumps[n - 1]? = some p) :
    available s n = true ↔ p.state = .stopped ∧ p.holder = none ∧ runningOn s.plant n = false := by
  simp [available, pumpRec_of h hp, and_assoc]

/-- An entry that is known is replaced by what a change makes of it. -/
theorem modAt_of {α : Type} {xs : List α} {i : Nat} {x : α} (h : xs[i]? = some x) (f : α → α) : modAt xs i f = modAt xs i fun _ => f x :=
  modAt_congr_at fun y hy => by rw [Option.some.inj (hy.symm.trans h)]

/-- A pump's record replaced by what a change makes of it. -/
theorem modPump_of {p : Plant} {n : Nat} {x : Pump} (h : 1 ≤ n) (hx : p.pumps[n - 1]? = some x) (f : Pump → Pump) :
    modPump p n f = { p with pumps := modAt p.pumps (n - 1) fun _ => f x } := by
  rw [modPump, if_neg (by omega), modAt_of hx]

theorem modPumpS_of {s : State} {n : Nat} {x : Pump} (h : 1 ≤ n) (hx : s.plant.pumps[n - 1]? = some x) (f : Pump → Pump) :
    modPumpS s n f = { s with plant := { s.plant with pumps := modAt s.plant.pumps (n - 1) fun _ => f x } } := by
  rw [modPumpS, modPump_of h hx]
  rfl

/-- What a change of one pump makes of each pump's record. -/
theorem modPump_getElem? (p : Plant) (n i : Nat) (f : Pump → Pump) :
    (modPump p n f).pumps[i]? = (p.pumps[i]?).map fun x => if i + 1 = n then f x else x := by
  unfold modPump
  by_cases h0 : n = 0
  · rw [if_pos h0]
    cases p.pumps[i]? <;> simp [h0]
  · rw [if_neg h0, modAt_getElem?]
    by_cases hi : i + 1 = n
    · rw [if_pos (by omega)]
      simp [hi]
    · rw [if_neg (by omega)]
      simp [hi]

/-- The plant has a record for each of its four pumps (R90). -/
theorem PlantOk.pump {p : Plant} (h : PlantOk p) {n : Nat} (h4 : n ≤ 4) (h1 : 1 ≤ n) : ∃ x, p.pumps[n - 1]? = some x := by
  obtain ⟨-, hlength, -⟩ := h
  exact ⟨_, List.getElem?_eq_getElem (by omega)⟩

/-! ### Valves -/

theorem valveState_of {p : Plant} {v : Nat} {w : Valve} (h : p.valves[v]? = some w) : valveState p v = w.state := by rw [valveState, h]; rfl

theorem modValve_of {p : Plant} {v : Nat} {w : Valve} (h : p.valves[v]? = some w) (f : Valve → Valve) :
    modValve p v f = { p with valves := modAt p.valves v fun _ => f w } := by
  rw [modValve, modAt_of h]

theorem modValve_self {p : Plant} {v : Nat} {w : Valve} (h : p.valves[v]? = some w) (f : Valve → Valve) :
    (modValve p v f).valves[v]? = some (f w) := by
  rw [modValve, modAt_getElem?_self, h]
  rfl

theorem modValve_other (p : Plant) {v u : Nat} (h : v ≠ u) (f : Valve → Valve) : (modValve p v f).valves[u]? = p.valves[u]? :=
  modAt_getElem?_other _ _ h

/-- A change of a valve's state is announced (R88). -/
theorem changeValve_changed {s : State} {v : Nat} {w : Valve} (hw : s.plant.valves[v]? = some w) {f : Valve → Valve}
    (h : (f w).state ≠ w.state) : changeValve s v f = valveChanged (setPlant s (modValve s.plant v f)) v := by
  have hstate : valveState (setPlant s (modValve s.plant v f)).plant v ≠ valveState s.plant v := by
    rw [valveState_of hw, setPlant_plant, valveState_of (modValve_self hw f)]
    exact h
  exact if_neg hstate

/-- A valve other than XV that no attempt uses changes alone (R88). -/
theorem changeValve_unused {s : State} {v : Nat} (hv : v ≠ xv) (h : ∀ a ∈ s.plant.attempts, v ∉ a.valves) (f : Valve → Valve) :
    changeValve s v f = setPlant s (modValve s.plant v f) := by
  have hnone : ((setPlant s (modValve s.plant v f)).plant.attempts.filter fun a => a.valves.contains v) = [] :=
    List.filter_eq_nil_iff.2 fun a ha => by simpa using h a ha
  have halone : valveChanged (setPlant s (modValve s.plant v f)) v = setPlant s (modValve s.plant v f) := by
    simp only [valveChanged, if_neg hv, hnone, List.map_nil, List.foldl_nil]
    split <;> rfl
  unfold changeValve
  dsimp only
  rw [halone, ite_self]

/-! ### The table of R88 -/

/-- A valve away from its commanded position arrives where its limit shows, and stays as it is under any other change (R88). -/
theorem limitChanged_moving {w : Valve} (h : w.state = .opening ∨ w.state = .closing ∨ w.state = .fault) (l : Limit) (x : Bool) :
    limitChanged l x w = if x = true ∧ l = commandedLimit w then { w with state := commandedState w, stroke := none } else w := by
  rcases h with h | h | h <;> simp [limitChanged, h]

/-- An OPEN valve that loses its open limit is in FAULT (R88). -/
theorem limitChanged_opened {w : Valve} (h : w.state = .opened) (l : Limit) (x : Bool) :
    limitChanged l x w = if x = false ∧ l = .openLimit then { w with state := .fault } else w := by
  simp [limitChanged, h]

/-- A CLOSED valve that loses its closed limit is in FAULT (R88). -/
theorem limitChanged_closed {w : Valve} (h : w.state = .closed) (l : Limit) (x : Bool) :
    limitChanged l x w = if x = false ∧ l = .closedLimit then { w with state := .fault } else w := by
  simp [limitChanged, h]

/-! ### Limit changes and stroke timers -/

/-- The 66 lines hold each valve's limits (R84). -/
theorem limitLine_lt {p : Plant} (h : PlantOk p) {v : Nat} (hv : v ≤ 28) (l : Limit) : limitLine v l < p.lines.length := by
  rw [h.1]
  cases l <;> simp only [limitLine] <;> omega

theorem exec_valveLimitChange_new {s : State} (hpower : s.powered = true) {v : Nat} (hv : v ≤ 28) (hplant : PlantOk s.plant) {l : Limit} {x : Bool}
    (h : lineOn s.plant (limitLine v l) = !x) :
    exec (.valveLimitChange v l x) s = .next (settleArbiter (changeValve (setLine s (limitLine v l) x) v (limitChanged l x))) :=
  (exec_valveLimitChange hpower hv l x).trans (congrArg _ (lineChange_new (limitLine_lt hplant hv l) h _))

theorem exec_strokeTimerExpiry {s : State} (hpower : s.powered = true) (v : Nat) : exec (.strokeTimerExpiry v) s = .next (strokeExpired v s) :=
  event_powered hpower _

theorem strokeExpired_notDue {s : State} {v : Nat} {w : Valve} (hw : s.plant.valves[v]? = some w) (h : due w.stroke s.clocks.uptime = false) :
    strokeExpired v s = s := by
  have hdue : due ((s.plant.valves[v]?).bind Valve.stroke) (now s) = false := by rw [hw]; exact h
  simp [strokeExpired, hdue]

/-- A due stroke timer takes a moving valve to FAULT (R88). -/
theorem strokeExpired_moving {s : State} {v : Nat} {w : Valve} (hw : s.plant.valves[v]? = some w)
    (hmoving : w.state = .opening ∨ w.state = .closing) (h : due w.stroke s.clocks.uptime = true) :
    strokeExpired v s = settleArbiter (changeValve s v fun _ => { w with state := .fault, stroke := none }) := by
  have hdue : due ((s.plant.valves[v]?).bind Valve.stroke) (now s) = true := by rw [hw]; exact h
  have hfault : ∀ {f : Valve → Valve}, f w = { w with state := .fault, stroke := none } →
      changeValve s v f = changeValve s v fun _ => { w with state := .fault, stroke := none } := fun hf => by
    rw [changeValve, modValve_of hw, hf, changeValve, modValve_of hw]
  rw [strokeExpired, if_pos hdue, hfault]
  rcases hmoving with hstate | hstate <;> simp [hstate]

theorem due_some {e uptime : Nat} : due (some e) uptime = true ↔ e ≤ uptime := decide_eq_true_iff

theorem due_some_false {e uptime : Nat} : due (some e) uptime = false ↔ uptime < e := by simp [due]

/-- Settles O37. -/
theorem valvesFollowTheirLimits : Obligations.ValvesFollowTheirLimits := by
  refine ⟨fun l x w => ⟨fun hstate hx hl => ?_, fun hstate hother => ?_, fun hstate => limitChanged_opened hstate l x,
    fun hstate => limitChanged_closed hstate l x⟩, fun v l x s hpower hv hplant => ⟨fun hsame => ?_, fun hnew howed hunused => ?_⟩,
    fun v e s w hpower hv hw hstroke => ⟨fun hearly => ?_, fun hdue hmoving howed hunused => ?_⟩⟩
  · rw [limitChanged_moving hstate]
    exact if_pos ⟨hx, hl⟩
  · rw [limitChanged_moving hstate]
    exact if_neg hother
  · rw [exec_valveLimitChange hpower (by omega), lineChange_same hsame]
  · have hunused' : ∀ a ∈ (setLine s (limitLine v l) x).plant.attempts, v ∉ a.valves := hunused
    rw [exec_valveLimitChange_new hpower (by omega) hplant hnew, changeValve_unused (Nat.ne_of_lt hv) hunused']
    exact congrArg Host.Outcome.next (settleArbiter_none _ howed)
  · rw [exec_strokeTimerExpiry hpower, strokeExpired_notDue hw (by rw [hstroke]; exact due_some_false.2 hearly)]
  · rw [exec_strokeTimerExpiry hpower, strokeExpired_moving hw hmoving (by rw [hstroke]; exact due_some.2 hdue),
      changeValve_unused (Nat.ne_of_lt hv) hunused]
    exact congrArg Host.Outcome.next (settleArbiter_none _ howed)

end Sys2Proof.Machine
end

section
/-! PROOFS. PRST, XOVR and GANG: their tests, the pump restored, XV commanded and the gang mode set (R21, R100, R103 to R106; log 14, 18, 40). -/

namespace Sys2Proof.Machine

/-! ### The crossover (R104) -/

/-- XV that stands at a limit ends CHANGING and FAULT, and calls for a run (R104, R116). -/
theorem crossoverChanged_arrives {s : State} (h : valveState s.plant xv = .opened ∨ valveState s.plant xv = .closed)
    (hmode : s.plant.crossMode = .changing ∨ s.plant.crossMode = .fault) : crossoverChanged s
      = { s with plant := { s.plant with crossMode := targetMode s.plant.crossTarget }, orders := { s.orders with runOwed := true } } := by
  rcases h with h | h <;> rcases hmode with hmode | hmode <;> simp only [crossoverChanged, h, hmode] <;> rfl

/-- XV that stands at a limit in STRAIGHT or CROSSED changes nothing (R104). -/
theorem crossoverChanged_stands {s : State} (h : valveState s.plant xv = .opened ∨ valveState s.plant xv = .closed)
    (hmode : s.plant.crossMode ≠ .changing ∧ s.plant.crossMode ≠ .fault) : crossoverChanged s = s := by
  rcases h with h | h <;> cases hm : s.plant.crossMode <;> simp_all [crossoverChanged]

/-- XV on its way changes nothing yet (R104). -/
theorem crossoverChanged_moving {s : State} (h : valveState s.plant xv = .opening ∨ valveState s.plant xv = .closing) :
    crossoverChanged s = s := by
  rcases h with h | h <;> simp only [crossoverChanged, h]

/-- The target that a crossover in FAULT is to be returned to (R104). -/
def faultTarget (p : Plant) : CrossTarget :=
  match p.crossMode with
  | .straight => .straight
  | .crossed => .crossed
  | .changing | .fault => p.crossTarget

/-- XV in FAULT takes the crossover with it; the mode it stood in becomes the target (R104). -/
theorem crossoverChanged_fault {s : State} (h : valveState s.plant xv = .fault) :
    crossoverChanged s = { s with plant := { s.plant with crossMode := .fault, crossTarget := faultTarget s.plant } } := by
  cases hmode : s.plant.crossMode with
  | straight | crossed | changing => simp only [crossoverChanged, h, hmode, faultTarget]; rfl
  | fault =>
    have hsame : ({ s.plant with crossMode := .fault, crossTarget := s.plant.crossTarget } : Plant) = s.plant := by rw [← hmode]
    simp only [crossoverChanged, h, hmode, faultTarget, hsame]

/-- A valve commanded open is open or on its way (R87). -/
theorem openCommand_spec (e : Nat) (atLimit : Bool) (w : Valve) : (openCommand e atLimit w).commandedOpen = true
    ∧ ((openCommand e atLimit w).state = .opening ∨ (openCommand e atLimit w).state = .opened) := by
  cases h : w.state <;> cases atLimit <;> simp [openCommand, beginStroke, h]

/-- A valve commanded closed is closed or on its way (R87). -/
theorem closeCommand_spec (e : Nat) (atLimit : Bool) (w : Valve) : (closeCommand e atLimit w).commandedOpen = false
    ∧ ((closeCommand e atLimit w).state = .closing ∨ (closeCommand e atLimit w).state = .closed) := by
  cases h : w.state <;> cases atLimit <;> simp [closeCommand, beginStroke, h]

/-- What a command of XV in CHANGING comes to: the target's mode once XV stands at its limit (R103, R104). -/
theorem crossoverChanged_commanded {s : State} {w : Valve} (hw : s.plant.valves[28]? = some w) (hmode : s.plant.crossMode = .changing)
    (hstate : (w.state = .opening ∨ w.state = .opened) ∨ w.state = .closing ∨ w.state = .closed) :
    (crossoverChanged s).plant.valves[28]? = some w ∧ w.state ≠ .fault ∧ (crossoverChanged s).plant.crossTarget = s.plant.crossTarget
      ∧ (crossoverChanged s).plant.crossMode
        = if w.state = .opening ∨ w.state = .closing then .changing else targetMode s.plant.crossTarget := by
  have hxv : valveState s.plant xv = w.state := valveState_of hw
  have hmoves : w.state = .opening ∨ w.state = .closing → (crossoverChanged s).plant.valves[28]? = some w ∧ w.state ≠ .fault
      ∧ (crossoverChanged s).plant.crossTarget = s.plant.crossTarget ∧ (crossoverChanged s).plant.crossMode
        = if w.state = .opening ∨ w.state = .closing then .changing else targetMode s.plant.crossTarget := fun h => by
    rw [crossoverChanged_moving (hxv ▸ h), if_pos h]
    exact ⟨hw, by rcases h with h | h <;> rw [h] <;> decide, rfl, hmode⟩
  have hstands : w.state = .opened ∨ w.state = .closed → (crossoverChanged s).plant.valves[28]? = some w ∧ w.state ≠ .fault
      ∧ (crossoverChanged s).plant.crossTarget = s.plant.crossTarget ∧ (crossoverChanged s).plant.crossMode
        = if w.state = .opening ∨ w.state = .closing then .changing else targetMode s.plant.crossTarget := fun h => by
    have hstill : ¬(w.state = .opening ∨ w.state = .closing) := by rcases h with h | h <;> rw [h] <;> decide
    rw [crossoverChanged_arrives (hxv ▸ h) (.inl hmode), if_neg hstill]
    exact ⟨hw, by rcases h with h | h <;> rw [h] <;> decide, rfl, rfl⟩
  rcases hstate with (h | h) | h | h
  · exact hmoves (.inl h)
  · exact hstands (.inl h)
  · exact hmoves (.inr h)
  · exact hstands (.inr h)

theorem commandXv_spec {s : State} (hplant : PlantOk s.plant) (hmode : s.plant.crossMode = .changing) {t : CrossTarget}
    (htarget : s.plant.crossTarget = t) : (commandXv s t).plant.crossTarget = t
      ∧ ∃ w, (commandXv s t).plant.valves[28]? = some w ∧ w.commandedOpen = decide (t = .crossed) ∧ w.state ≠ .fault
        ∧ (commandXv s t).plant.crossMode = if w.state = .opening ∨ w.state = .closing then .changing else targetMode t := by
  obtain ⟨w, hw⟩ : ∃ w, s.plant.valves[28]? = some w := ⟨_, List.getElem?_eq_getElem (by rw [hplant.2.2.1]; decide)⟩
  subst htarget
  cases htarget : s.plant.crossTarget with
  | straight =>
    obtain ⟨hcommand, hstate⟩ := closeCommand_spec (strokeExpiry s) (limitOn s.plant xv .closedLimit) w
    obtain ⟨hw', hfault, htarget', hmode'⟩ := crossoverChanged_commanded
      (s := setPlant s (modValve s.plant xv (closeCommand (strokeExpiry s) (limitOn s.plant xv .closedLimit)))) (modValve_self hw _) hmode (.inr hstate)
    exact ⟨htarget'.trans htarget, _, hw', hcommand, hfault, hmode'.trans (by rw [setPlant_plant]; exact congrArg (fun t => ite _ _ (targetMode t)) htarget)⟩
  | crossed =>
    obtain ⟨hcommand, hstate⟩ := openCommand_spec (strokeExpiry s) (limitOn s.plant xv .openLimit) w
    obtain ⟨hw', hfault, htarget', hmode'⟩ := crossoverChanged_commanded
      (s := setPlant s (modValve s.plant xv (openCommand (strokeExpiry s) (limitOn s.plant xv .openLimit)))) (modValve_self hw _) hmode (.inl hstate)
    exact ⟨htarget'.trans htarget, _, hw', hcommand, hfault, hmode'.trans (by rw [setPlant_plant]; exact congrArg (fun t => ite _ _ (targetMode t)) htarget)⟩

/-! ### Pumps that are free -/

/-- A pump that XOVR and GANG do not wait for: STOPPED without a holder, or WITHDRAWN (R103, R105). -/
abbrev Pump.Free (p : Pump) : Prop := (p.state = .stopped ∧ p.holder = none) ∨ p.state = .withdrawn

theorem pumpFree_iff {s : State} {n : Nat} (h : 1 ≤ n) : pumpFree s n = true ↔ ∀ p, s.plant.pumps[n - 1]? = some p → p.Free := by
  unfold pumpFree
  rw [pumpRec_eq h]
  cases s.plant.pumps[n - 1]? <;> simp

theorem groupPumps_range {g : Group} {n : Nat} (h : n ∈ groupPumps g) : 1 ≤ n ∧ n ≤ 4 := by
  cases g <;> simp [groupPumps] at h <;> omega

theorem groupFree_iff {s : State} {g : Group} : (groupPumps g).all (pumpFree s) = true
    ↔ ∀ n ∈ groupPumps g, ∀ p, s.plant.pumps[n - 1]? = some p → p.Free := by
  rw [List.all_eq_true]
  exact forall₂_congr fun n hn => pumpFree_iff (groupPumps_range hn).1

theorem allFree_iff {s : State} (h : PlantOk s.plant) : [1, 2, 3, 4].all (pumpFree s) = true ↔ ∀ p ∈ s.plant.pumps, p.Free := by
  rw [List.all_eq_true]
  constructor
  · intro hfree p hp
    obtain ⟨i, hi⟩ := List.mem_iff_getElem?.1 hp
    have hlt : i < 4 := h.2.1 ▸ (List.getElem?_eq_some_iff.1 hi).1
    have hmem : i + 1 ∈ [1, 2, 3, 4] := by simp; omega
    exact (pumpFree_iff (Nat.le_add_left 1 i)).1 (hfree _ hmem) p hi
  · intro hfree n hn
    have h1 : 1 ≤ n := by simp at hn; omega
    exact (pumpFree_iff h1).2 fun p hp => hfree p (List.mem_of_getElem? hp)

/-! ### The requests -/

/-- With a profile in force a plant request is taken (R21). -/
theorem whenPlantAdmitted_withProfile {s : State} (h : s.call ≠ .noProfile) (k : Nat) (act : State → State) :
    whenPlantAdmitted k s act = act s :=
  if_pos (by simpa [withProfile] using h)

theorem prst_range (k : Nat) {pu : Int} (h : pu < 1 ∨ 4 < pu) (s : State) : prst k pu s = reply s .console k .range (plantView s) := by
  rw [prst, natIn_outside (lo := 1) (hi := 4) (x := pu) (by omega)]
  rfl

section Named

variable {s : State} {n : Nat} {p : Pump} (h1 : 1 ≤ n) (h4 : n ≤ 4) (hp : s.plant.pumps[n - 1]? = some p)
include h1 h4 hp

/-- PRST is refused for a pump that is not WITHDRAWN or not at rest (R100). -/
theorem prst_state (k : Nat) (h : p.state ≠ .withdrawn ∨ runningOn s.plant n = true) :
    prst k n s = reply s .console k .state (plantView s) := by
  simp only [prst, natIn_inside h1 h4, pumpState_of h1 hp]
  by_cases hstate : p.state = .withdrawn
  · have hrunning := h.resolve_left (not_not_intro hstate)
    simp [hstate, hrunning, replyPlant]
  · simp [hstate, replyPlant]

/-- PRST returns a WITHDRAWN pump at rest to use, with a pump-available notice (R100; log 40). -/
theorem prst_restores (k : Nat) (hstate : p.state = .withdrawn) (hrest : runningOn s.plant n = false) :
    let t := settleArbiter { s with
      plant := { s.plant with pumps := modAt s.plant.pumps (n - 1) fun _ => { p with state := .stopped, failures := 0 } }
      orders := { s.orders with runOwed := true } }
    prst k n s = reply t .console k .ok (plantView t) := by
  simp only [prst, natIn_inside h1 h4, pumpState_of h1 hp]
  simp [hstate, hrest, replyPlant, restorePump, modPumpS_of h1 hp, pumpNotice, setOrders]

end Named

/-- The code of a target in XM (R103). -/
def targetNumber : CrossTarget → Int
  | .straight => 0
  | .crossed => 1

theorem targetNamed_targetNumber (t : CrossTarget) : targetNamed (targetNumber t) = some t := by cases t <;> rfl

theorem xovr_range (k : Nat) {xm : Int} (h : xm ≠ 0 ∧ xm ≠ 1) (s : State) : xovr k (some xm) s = reply s .console k .range (plantView s) := by
  simp only [xovr, targetNamed, if_neg h.1, if_neg h.2]
  rfl

section Target

variable {s : State} (hplant : PlantOk s.plant) (k : Nat) (t : CrossTarget)
include hplant

theorem xovr_busy (h : s.plant.crossMode = .changing ∨ ∃ p ∈ s.plant.pumps, ¬p.Free) :
    xovr k (some (targetNumber t)) s = reply s .console k .busy (plantView s) := by
  simp only [xovr, targetNamed_targetNumber]
  by_cases hmode : s.plant.crossMode = .changing
  · rw [if_pos hmode]
    rfl
  · have hbusy : [1, 2, 3, 4].all (pumpFree s) = false := Bool.eq_false_iff.2 fun hfree => by
      obtain ⟨p, hp, hheld⟩ := h.resolve_left hmode
      exact hheld ((allFree_iff hplant).1 hfree p hp)
    rw [if_neg hmode, hbusy]
    rfl

variable (hmode : s.plant.crossMode ≠ .changing) (hfree : ∀ p ∈ s.plant.pumps, p.Free)
include hmode hfree

theorem xovr_same (h : s.plant.crossMode = targetMode t) : xovr k (some (targetNumber t)) s = reply s .console k .ok (plantView s) := by
  simp only [xovr, targetNamed_targetNumber, if_neg hmode, (allFree_iff hplant).2 hfree, if_pos h]
  rfl

theorem xovr_begins (h : s.plant.crossMode ≠ targetMode t) :
    xovr k (some (targetNumber t)) s = reply (beginCrossover s t) .console k .ok (plantView (beginCrossover s t)) := by
  simp only [xovr, targetNamed_targetNumber, if_neg hmode, (allFree_iff hplant).2 hfree, if_neg h]
  rfl

end Target

/-- The code of a group in GA (R105). -/
def groupNumber : Group → Int
  | .a => 0
  | .b => 1

theorem groupNamed_groupNumber (g : Group) : groupNamed (groupNumber g) = some g := by cases g <;> rfl

theorem binary_ite (x : Bool) : binary (if x then 1 else 0) = some x := by cases x <;> rfl

theorem gang_range (k : Nat) {ga gm : Int} (h : (ga ≠ 0 ∧ ga ≠ 1) ∨ (gm ≠ 0 ∧ gm ≠ 1)) (s : State) :
    gang k ga gm s = reply s .console k .range (plantView s) := by
  have hgroup : ga ≠ 0 ∧ ga ≠ 1 → groupNamed ga = none := fun h => by simp [groupNamed, h.1, h.2]
  have hmode : gm ≠ 0 ∧ gm ≠ 1 → binary gm = none := fun h => by simp [binary, h.1, h.2]
  unfold gang
  rcases h with h | h
  · rw [hgroup h]
    rfl
  · rw [hmode h]
    cases groupNamed ga <;> rfl

section Ganged

variable {s : State} (k : Nat) {g : Group} {x : Bool}

theorem gang_busy (h : ∃ n ∈ groupPumps g, ∃ p, s.plant.pumps[n - 1]? = some p ∧ ¬p.Free) :
    gang k (groupNumber g) (if x then 1 else 0) s = reply s .console k .busy (plantView s) := by
  have hbusy : (groupPumps g).all (pumpFree s) = false := Bool.eq_false_iff.2 fun hfree => by
    obtain ⟨n, hn, p, hp, hheld⟩ := h
    exact hheld (groupFree_iff.1 hfree n hn p hp)
  simp only [gang, groupNamed_groupNumber, binary_ite, hbusy]
  rfl

variable (hfree : ∀ n ∈ groupPumps g, ∀ p, s.plant.pumps[n - 1]? = some p → p.Free)
include hfree

theorem gang_same (h : ganged s.plant g = x) : gang k (groupNumber g) (if x then 1 else 0) s = reply s .console k .ok (plantView s) := by
  simp only [gang, groupNamed_groupNumber, binary_ite, groupFree_iff.2 hfree, if_pos h]
  rfl

theorem gang_sets (h : ganged s.plant g ≠ x) :
    let t := settleArbiter (pumpNotice (setPlant s (setGang s.plant g x)))
    gang k (groupNumber g) (if x then 1 else 0) s = reply t .console k .ok (plantView t) := by
  simp only [gang, groupNamed_groupNumber, binary_ite, groupFree_iff.2 hfree, if_neg h]
  rfl

end Ganged

/-- Settles O41. -/
theorem plantRequestsChangeThePlant : Obligations.PlantRequestsChangeThePlant := by
  refine ⟨fun k s pu hasked hcall hplant => ?_, fun k s xm hasked hcall hplant => ?_, fun k s ga gm hasked hcall hplant => ?_⟩
  · have hexec : exec (.prst k) s = .next (prst k pu s) :=
      (exec_asked (r := .prst pu) hasked).trans (congrArg _ (whenPlantAdmitted_withProfile hcall k _))
    refine ⟨fun h => hexec.trans (congrArg _ (prst_range k h s)), fun n p hpu h1 h4 hp => ?_⟩
    subst hpu
    exact ⟨fun h => hexec.trans (congrArg _ (prst_state h1 h4 hp k h)),
      fun hstate hrest => hexec.trans (congrArg _ (prst_restores h1 h4 hp k hstate hrest))⟩
  · have hexec : exec (.xovr k) s = .next (xovr k (some xm) s) :=
      (exec_asked (r := .xovr (some xm)) hasked).trans (congrArg _ (whenPlantAdmitted_withProfile hcall k _))
    refine ⟨fun h => hexec.trans (congrArg _ (xovr_range k h s)), fun target hxm => ?_⟩
    obtain rfl : xm = targetNumber target := hxm.trans (by cases target <;> rfl)
    refine ⟨fun h => hexec.trans (congrArg _ (xovr_busy hplant k target h)), fun hmode hfree =>
      ⟨fun h => hexec.trans (congrArg _ (xovr_same hplant k target hmode hfree h)), fun h => ?_⟩⟩
    obtain ⟨htarget, w, hw, hcommand, hfault, hmode'⟩ := commandXv_spec (t := target)
      (s := setPlant s { s.plant with crossMode := .changing, crossTarget := target }) hplant rfl rfl
    exact ⟨_, w, hexec.trans (congrArg _ (xovr_begins hplant k target hmode hfree h)), htarget, hw, hcommand, hfault, hmode'⟩
  · have hexec : exec (.gang k) s = .next (gang k ga gm s) :=
      (exec_asked (r := .gang ga gm) hasked).trans (congrArg _ (whenPlantAdmitted_withProfile hcall k _))
    refine ⟨fun h => hexec.trans (congrArg _ (gang_range k h s)), fun g x hga hgm => ?_⟩
    obtain rfl : ga = groupNumber g := hga.trans (by cases g <;> rfl)
    subst hgm
    refine ⟨fun h => hexec.trans (congrArg _ (gang_busy k h)), fun hfree =>
      ⟨fun h => hexec.trans (congrArg _ (gang_same k hfree h)), fun h => ?_⟩⟩
    rw [hexec, gang_sets k hfree h]
    cases g <;> rfl

end Sys2Proof.Machine
end

section
/-! PROOFS. The controller lets go of an attempt: the released report's table, what a release leaves, and a stop of a running order; OCAN, OREL and the stall window (R98, R99, R110, R123, R125 to R131; log 2, 14, 26). -/

namespace Sys2Proof.Machine

/-! ### The released report (R126) -/

/-- A change of an order, announced to the pour gate, with the record it comes to. -/
theorem moveOrder_put {s : State} (h : OrdersOk s.orders) {o : Order} (ho : some o ∈ s.orders.slots) (f : Order → Order) :
    moveOrder s o.id f = recheck (placed s o (f o)) :=
  congrArg recheck (modOrder_put h ho f)

/-- The released report changes a STOPPING order alone (R126). -/
theorem orderReleased_ignored {s : State} {id : Nat} {o : Order} (ho : orderById s id = some o) (hstate : o.state ≠ .stopping)
    (withdrawn : List Nat) : orderReleased s id withdrawn = s := by
  rw [orderReleased, ho]
  exact if_pos (by simpa using hstate)

/-- Reasons that count as a failed attempt (R126). -/
def Reason.Counted (r : Reason) : Prop := r = .stall ∨ r = .lineupFail ∨ r = .startFail ∨ r = .trip

section Table

variable {s : State} {o : Order} (horders : OrdersOk s.orders) (ho : some o ∈ s.orders.slots) (hstate : o.state = .stopping) (withdrawn : List Nat)
include horders ho hstate

theorem orderReleased_done (hreason : o.reason = some .target ∨ o.reason = some .destFull) : orderReleased s o.id withdrawn
    = raise (recheck (placed s o { unpumped o with state := .done, ended := some (now s) })) orderDone (some o.id) := by
  have hmoved := moveOrder_put horders ho fun o => { unpumped o with state := .done, ended := some (now s) }
  rw [orderReleased, orderById_of_mem horders ho]
  rcases hreason with hreason | hreason <;> simp only [hstate, hreason, ← hmoved] <;> rfl

theorem orderReleased_cancelled (hreason : o.reason = some .cancel) : orderReleased s o.id withdrawn
    = recheck (placed s o { unpumped o with state := .cancelled, ended := some (now s) }) := by
  have hmoved := moveOrder_put horders ho fun o => { unpumped o with state := .cancelled, ended := some (now s) }
  rw [orderReleased, orderById_of_mem horders ho]
  simp only [hstate, hreason, ← hmoved]
  rfl

theorem orderReleased_hullStopped (hreason : o.reason = some .hull) (hhull : s.hull.stop ≠ .clear) :
    orderReleased s o.id withdrawn = recheck (placed s o { unpumped o with state := .suspended }) := by
  have hmoved := moveOrder_put horders ho fun o => { unpumped o with state := .suspended }
  rw [orderReleased, orderById_of_mem horders ho]
  simp only [hstate, hreason, ← hmoved, if_neg hhull]
  rfl

theorem orderReleased_hullHeld (hreason : o.reason = some .hull) (hhull : s.hull.stop = .clear) (hheld : orderHeld s o = true) :
    orderReleased s o.id withdrawn = recheck (placed s o { unpumped o with state := .suspended, reason := some .held }) := by
  have hmoved := moveOrder_put horders ho fun o => { unpumped o with state := .suspended, reason := some .held }
  rw [orderReleased, orderById_of_mem horders ho]
  simp only [hstate, hreason, ← hmoved, if_pos hhull, if_pos hheld]
  rfl

theorem orderReleased_hullQueued (hreason : o.reason = some .hull) (hhull : s.hull.stop = .clear) (hheld : ¬orderHeld s o = true) :
    orderReleased s o.id withdrawn = callArbiter (recheck (placed s o { unpumped o with state := .queued })) := by
  have hmoved := moveOrder_put horders ho fun o => { unpumped o with state := .queued }
  rw [orderReleased, orderById_of_mem horders ho]
  simp only [hstate, hreason, ← hmoved, if_pos hhull, if_neg hheld]
  rfl

theorem orderReleased_preempted (hreason : o.reason = some .preempted) : orderReleased s o.id withdrawn
    = if withdrawn = [] then recheck (placed s o { unpumped o with state := .suspended })
      else callArbiter (recheck (placed s o { unpumped o with state := .suspended })) := by
  have hmoved := moveOrder_put horders ho fun o => { unpumped o with state := .suspended }
  rw [orderReleased, orderById_of_mem horders ho]
  simp only [hstate, hreason, ← hmoved, List.isEmpty_iff]
  rfl

theorem orderReleased_noGauge (hreason : o.reason = some .noGauge) : orderReleased s o.id withdrawn
    = raise (recheck (placed s o { unpumped o with state := .failed, ended := some (now s) })) orderFailed (some o.id) := by
  have hmoved := moveOrder_put horders ho fun o => { unpumped o with state := .failed, ended := some (now s) }
  rw [orderReleased, orderById_of_mem horders ho]
  simp only [hstate, hreason, ← hmoved]
  rfl

/-- A counted failure queues the order again while retries are left, and fails it after the last (R126). -/
theorem orderReleased_counted {r : Reason} (hreason : o.reason = some r) (hr : r.Counted) : orderReleased s o.id withdrawn
    = if o.attempts + 1 ≤ o.retries then callArbiter (recheck (placed s o { countedAttempt o with state := .queued }))
      else raise (recheck (placed s o { countedAttempt o with state := .failed, ended := some (now s) })) orderFailed (some o.id) := by
  have hqueued := moveOrder_put horders ho fun o => { countedAttempt o with state := .queued }
  have hfailed := moveOrder_put horders ho fun o => { countedAttempt o with state := .failed, ended := some (now s) }
  rw [orderReleased, orderById_of_mem horders ho]
  rcases hr with rfl | rfl | rfl | rfl <;> simp only [hstate, hreason, ← hqueued, ← hfailed] <;> rfl

end Table

/-- The released report of one order leaves the others as they are. -/
theorem orderById_orderReleased_other (s : State) {id j : Nat} (hj : j ≠ id) (withdrawn : List Nat) :
    orderById (orderReleased s id withdrawn) j = orderById s j := by
  have hmoved : ∀ {f : Order → Order}, (∀ o, (f o).id = o.id) → orderById (moveOrder s id f) j = orderById s j :=
    fun hf => orderById_moveOrder_other hj hf
  have hcounted : ∀ o : Order, orderById
      (if o.attempts + 1 ≤ o.retries then queueOrder s id countedAttempt else failOrder s id countedAttempt) j = orderById s j := fun o => by
    split
    · exact hmoved (f := fun o => { countedAttempt o with state := .queued }) fun _ => rfl
    · exact hmoved (f := fun o => { countedAttempt o with state := .failed, ended := some (now s) }) fun _ => rfl
  unfold orderReleased
  split
  · rfl
  · dsimp only
    split
    · rfl
    · split
      · exact hmoved fun _ => rfl
      · exact hmoved fun _ => rfl
      · exact hmoved fun _ => rfl
      · split
        · split
          · exact hmoved fun _ => rfl
          · exact hmoved (f := fun o => { unpumped o with state := .queued }) fun _ => rfl
        · exact hmoved fun _ => rfl
      · split
        · exact hmoved fun _ => rfl
        · exact hmoved (f := fun o => { unpumped o with state := .suspended }) fun _ => rfl
      · exact hmoved (f := fun o => { unpumped o with state := .failed, ended := some (now s) }) fun _ => rfl
      · exact hcounted _
      · exact hcounted _
      · exact hcounted _
      · exact hcounted _
      · rfl
      · rfl

/-! ### A release (R99) -/

/-- The plant after a release: the pumps without a holder, the valves a user less, the order gone from its main and the attempt from the table (R89, R91, R99). -/
def releasedPlant (expiry : Nat) (p : Plant) (a : Attempt) : Plant :=
  let q := leaveMain (a.valves.foldl (releaseValve expiry) (a.pumps.foldl (fun p n => modPump p n fun x => { x with holder := none }) p)) a.main a.order
  { q with attempts := q.attempts.filter fun x => x.order != a.order }

/-- One pump available is enough for the pump-available notice, and a second notice adds nothing (R99, R116). -/
theorem foldl_noticeIfAvailable (ns : List Nat) (s : State) :
    ns.foldl noticeIfAvailable s = if ns.any (available s) then pumpNotice s else s := by
  induction ns generalizing s with
  | nil => rfl
  | cons n ns ih =>
    rw [List.foldl_cons, ih, List.any_cons]
    by_cases hn : available s n = true
    · have hsame : ns.any (available (pumpNotice s)) = ns.any (available s) :=
        congrArg (ns.any ·) (funext fun m => available_congr (s := s) rfl m)
      have htwice : pumpNotice (pumpNotice s) = pumpNotice s := rfl
      rw [noticeIfAvailable, if_pos hn, hn, hsame, htwice, ite_self]
      rfl
    · rw [noticeIfAvailable, if_neg hn, Bool.eq_false_iff.2 hn, Bool.false_or]

/-- A release: the plant, then the released report, then the pump-available notice (R99). -/
theorem releaseAttempt_eq (s : State) (a : Attempt) :
    let p := releasedPlant (strokeExpiry s) s.plant a
    let r := orderReleased (setPlant s p) a.order a.withdrawn
    releaseAttempt s a = if a.pumps.any (available r) then pumpNotice r else r := by
  intro p r
  exact foldl_noticeIfAvailable a.pumps r

theorem orderReleased_plant (s : State) (id : Nat) (w : List Nat) : (orderReleased s id w).plant = s.plant :=
  (orderReleased_path s id w).changesOnly .plant (by decide)

theorem releaseAttempt_plant (s : State) (a : Attempt) : (releaseAttempt s a).plant = releasedPlant (strokeExpiry s) s.plant a := by
  have hreport := orderReleased_plant (setPlant s (releasedPlant (strokeExpiry s) s.plant a)) a.order a.withdrawn
  rw [releaseAttempt_eq]
  split <;> exact hreport

/-! ### What a release keeps of the order table -/

/-- The predicate reads the orders and the clock alone, and a released report keeps it. -/
structure KeptByReleases (I : State → Prop) : Prop where
  congr : ∀ {s t : State}, t.orders.slots = s.orders.slots → t.clocks = s.clocks → I s → I t
  released : ∀ {s : State} (id : Nat) (w : List Nat), I s → I (orderReleased s id w)

section Kept

variable {I : State → Prop} (hI : KeptByReleases I)
include hI

theorem KeptByReleases.path {bs : List Block} {s t : State} (p : Path bs s t) (h : I s) (hbs : .orders ∉ bs := by decide) : I t :=
  hI.congr (congrArg Orders.slots (p.changesOnly .orders hbs)) p.clocks h

theorem KeptByReleases.releaseAttempt {s : State} (a : Attempt) (h : I s) : I (releaseAttempt s a) := by
  have hreport : I (orderReleased (setPlant s (releasedPlant (strokeExpiry s) s.plant a)) a.order a.withdrawn) :=
    hI.released _ _ (hI.congr (s := s) rfl rfl h)
  rw [releaseAttempt_eq]
  split
  · exact hI.congr (s := orderReleased _ _ _) rfl rfl hreport
  · exact hreport

theorem KeptByReleases.checkRelease {s : State} (id : Nat) (h : I s) : I (checkRelease s id) := by
  unfold Machine.checkRelease
  split
  · split
    · exact hI.releaseAttempt _ h
    · exact h
  · exact h

theorem KeptByReleases.takeDown {s : State} (a : Attempt) (h : I s) : I (takeDown s a) := by
  have hpumps : Path [.plant, .attention] s
      (a.pumps.foldl takeDownPump (setPlant s (modAttempt s.plant a.order fun x => { x with phase := .takingDown, prove := none }))) :=
    ((setAttempts_path s _ _).mono (by decide)).trans (foldl_path takeDownPump_path _ _)
  exact hI.checkRelease _ (hI.path hpumps h)

theorem KeptByReleases.stopRequest {s : State} (id : Nat) (h : I s) : I (stopRequest s id) := by
  unfold Machine.stopRequest
  split
  · exact h
  · split
    · exact hI.releaseAttempt _ h
    · exact hI.takeDown _ h
    · exact hI.takeDown _ h
    · exact h

end Kept

/-- An order is in the table with a record of the kind, which may depend on the uptime. -/
def OrderIs (id : Nat) (P : Nat → Order → Prop) (s : State) : Prop := ∃ o, orderById s id = some o ∧ P (now s) o

theorem OrderIs.congr {id : Nat} {P : Nat → Order → Prop} {s t : State} (horders : t.orders.slots = s.orders.slots)
    (hclocks : t.clocks = s.clocks) (h : OrderIs id P s) : OrderIs id P t := by
  obtain ⟨o, ho, hP⟩ := h
  refine ⟨o, (orderById_congr horders id).trans ho, ?_⟩
  rwa [now, hclocks]

/-- What holds of one order through its own released report is kept by every release. -/
theorem keptByReleases_orderIs {id : Nat} {P : Nat → Order → Prop}
    (h : ∀ s w, OrderIs id P s → OrderIs id P (orderReleased s id w)) : KeptByReleases (OrderIs id P) where
  congr := OrderIs.congr
  released {s} j w hs := by
    by_cases hj : id = j
    · subst hj
      exact h s w hs
    · obtain ⟨o, ho, hP⟩ := hs
      refine ⟨o, (orderById_orderReleased_other s hj w).trans ho, ?_⟩
      rwa [now, (orderReleased_path s j w).clocks]

/-! ### The fate of a stopped order (R125, R126) -/

/-- A record to which the released report may bring an order that stops for CANCEL or for a counted reason (R126). -/
def LeftFor (t : Nat) (r : Reason) (o : Order) : Prop :=
  (r = .cancel ∧ o.state = .cancelled ∧ o.pumps = [] ∧ o.ended = some t) ∨ (r.Counted ∧ (o.state = .queued ∨ o.state = .failed))

/-- An order that has been stopped for CANCEL or for a counted reason: STOPPING, or moved on by the released report. -/
def StoppedFor (r : Reason) (t : Nat) (o : Order) : Prop :=
  o.reason = some r ∧ o.stall = none ∧ (o.state = .stopping ∨ LeftFor t r o)

theorem OrderIs.moved {s : State} {id : Nat} {o : Order} (ho : orderById s id = some o) {P : Nat → Order → Prop} {f : Order → Order}
    (hf : (f o).id = o.id) (h : P (now s) (f o)) : OrderIs id P (moveOrder s id f) := by
  refine ⟨f o, orderById_moveOrder ho (hf.trans (mem_of_orderById ho).2), ?_⟩
  have hclocks : (moveOrder s id f).clocks = s.clocks := (recheck_path _).clocks
  rwa [now, hclocks]

/-- A change of another order, announced to the pour gate. -/
theorem OrderIs.moved_other {s : State} {id j : Nat} (hj : j ≠ id) {P : Nat → Order → Prop} (h : OrderIs j P s) {f : Order → Order}
    (hf : ∀ o, (f o).id = o.id) : OrderIs j P (moveOrder s id f) := by
  obtain ⟨o, ho, hP⟩ := h
  refine ⟨o, (orderById_moveOrder_other hj hf).trans ho, ?_⟩
  have hclocks : (moveOrder s id f).clocks = s.clocks := (recheck_path _).clocks
  rwa [now, hclocks]

theorem stoppedFor_released {id : Nat} {r : Reason} (hr : r = .cancel ∨ r.Counted) (s : State) (w : List Nat)
    (h : OrderIs id (StoppedFor r) s) : OrderIs id (StoppedFor r) (orderReleased s id w) := by
  obtain ⟨o, ho, hP⟩ := h
  have ⟨hreason, hstall, _⟩ := hP
  by_cases hstate : o.state = .stopping
  · have hcounted : r.Counted → OrderIs id (StoppedFor r)
        (if o.attempts + 1 ≤ o.retries then queueOrder s id countedAttempt else failOrder s id countedAttempt) := fun hr => by
      split
      · exact OrderIs.congr (s := moveOrder s id fun o => { countedAttempt o with state := .queued }) rfl rfl
          (OrderIs.moved ho rfl ⟨hreason, hstall, .inr (.inr ⟨hr, .inl rfl⟩)⟩)
      · exact OrderIs.congr (s := moveOrder s id fun o => { countedAttempt o with state := .failed, ended := some (now s) }) rfl rfl
          (OrderIs.moved ho rfl ⟨hreason, hstall, .inr (.inr ⟨hr, .inr rfl⟩)⟩)
    have hgo : (o.state != .stopping) = false := by rw [hstate]; rfl
    rw [orderReleased, ho]
    dsimp only
    rw [hgo, hreason]
    rcases hr with rfl | hr
    · exact OrderIs.moved ho rfl ⟨hreason, hstall, .inr (.inl ⟨rfl, rfl, rfl, rfl⟩)⟩
    · have hqueue := hcounted hr
      rcases hr with rfl | rfl | rfl | rfl <;> exact hqueue
  · rw [orderReleased_ignored ho hstate]
    exact ⟨o, ho, hP⟩

theorem keptByReleases_stoppedFor (id : Nat) {r : Reason} (hr : r = .cancel ∨ r.Counted) : KeptByReleases (OrderIs id (StoppedFor r)) :=
  keptByReleases_orderIs (stoppedFor_released hr)

/-- A stop of a running order (R125). -/
theorem stopOrder_running {s : State} {id : Nat} {o : Order} (ho : orderById s id = some o) (hrunning : runningState o.state = true) (r : Reason) :
    stopOrder s id r = stopRequest (moveOrder s id fun o => { o with state := .stopping, reason := some r, stall := none }) id := by
  rw [stopOrder, ho]
  exact if_pos hrunning

theorem stopOrder_ignored {s : State} {id : Nat} {o : Order} (ho : orderById s id = some o) (hrunning : ¬runningState o.state = true) (r : Reason) :
    stopOrder s id r = s := by
  rw [stopOrder, ho]
  exact if_neg hrunning

/-- A running order stopped for CANCEL or for a counted reason is STOPPING, or its attempt has been released at once (R99, R125, R126). -/
theorem stoppedFor_stopOrder {s : State} {id : Nat} {o : Order} (ho : orderById s id = some o) (hrunning : runningState o.state = true)
    {r : Reason} (hr : r = .cancel ∨ r.Counted) : OrderIs id (StoppedFor r) (stopOrder s id r) := by
  rw [stopOrder_running ho hrunning]
  exact (keptByReleases_stoppedFor id hr).stopRequest id (OrderIs.moved ho rfl ⟨rfl, rfl, .inl rfl⟩)

theorem runningState_iff {x : OrderState} : runningState x = true ↔ x = .lineup ∨ x = .starting ∨ x = .active := by
  cases x <;> simp [runningState]

/-! ### Stop requests (R98) -/

/-- What a stop request does with the order's attempt, by its phase (R98). -/
theorem stopRequest_none {s : State} {id : Nat} (h : attemptOf s.plant id = none) : stopRequest s id = s := by rw [stopRequest, h]

section Attempted

variable {s : State} {id : Nat} {a : Attempt} (ha : attemptOf s.plant id = some a)
include ha

theorem stopRequest_liningUp (h : a.phase = .liningUp) : stopRequest s id = releaseAttempt s a := by simp only [stopRequest, ha, h]

theorem stopRequest_started (h : a.phase = .priming ∨ a.phase = .running) : stopRequest s id = takeDown s a := by
  rcases h with h | h <;> simp only [stopRequest, ha, h]

theorem stopRequest_takingDown (h : a.phase = .takingDown) : stopRequest s id = s := by simp only [stopRequest, ha, h]

end Attempted

/-! ### A stall (R123) -/

theorem stopOrder_other {s : State} {id j : Nat} (hj : j ≠ id) (r : Reason) {I : Nat → Order → Prop} (hI : KeptByReleases (OrderIs j I))
    (h : OrderIs j I s) : OrderIs j I (stopOrder s id r) := by
  unfold stopOrder
  split
  · split
    · exact hI.stopRequest id (h.moved_other hj fun _ => rfl)
    · exact h
  · exact h

/-- A stalled order: stopped for STALL, or then failed for the lost gauge (R123, R127). -/
def Stalled (t : Nat) (o : Order) : Prop :=
  StoppedFor .stall t o ∨ (o.stall = none ∧ o.reason = some .noGauge ∧ o.state = .failed)

theorem stalled_released {id : Nat} (s : State) (w : List Nat) (h : OrderIs id Stalled s) : OrderIs id Stalled (orderReleased s id w) := by
  obtain ⟨o, ho, hstopped | hfailed⟩ := h
  · obtain ⟨o', ho', hP⟩ := stoppedFor_released (.inr (.inl rfl)) s w ⟨o, ho, hstopped⟩
    exact ⟨o', ho', .inl hP⟩
  · rw [orderReleased_ignored ho (by rw [hfailed.2.2]; decide)]
    exact ⟨o, ho, .inr hfailed⟩

theorem keptByReleases_stalled (id : Nat) : KeptByReleases (OrderIs id Stalled) := keptByReleases_orderIs stalled_released

/-- A gauge-lost notice finds a stalled order STOPPING, fails it from QUEUED, and moves the others without it (R127). -/
theorem stalled_gaugeLostFor {id : Nat} {s : State} (h : OrderIs id Stalled s) (j : Nat) : OrderIs id Stalled (gaugeLostFor s j) := by
  by_cases hj : id = j
  · subst hj
    have ⟨o, ho, hP⟩ := h
    have hfail : OrderIs id Stalled (failOrder s id fun o => { o with reason := some .noGauge }) := by
      have hstall : o.stall = none := hP.elim (·.2.1) (·.1)
      exact OrderIs.congr (s := moveOrder s id fun o => { o with reason := some .noGauge, state := .failed, ended := some (now s) }) rfl rfl
        (OrderIs.moved ho rfl (.inr ⟨hstall, rfl, rfl⟩))
    have hstate : o.state = .stopping ∨ o.state = .queued ∨ o.state = .failed := by
      rcases hP with ⟨-, -, hstopping | ⟨hcancel, -⟩ | ⟨-, hleft⟩⟩ | ⟨-, -, hfailed⟩
      · exact .inl hstopping
      · cases hcancel
      · exact .inr hleft
      · exact .inr (.inr hfailed)
    rw [gaugeLostFor, ho]
    rcases hstate with hstate | hstate | hstate <;> simp only [hstate]
    · exact h
    · exact hfail
    · exact h
  · have hfail : OrderIs id Stalled (failOrder s j fun o => { o with reason := some .noGauge }) :=
      OrderIs.congr (s := moveOrder s j fun o => { o with reason := some .noGauge, state := .failed, ended := some (now s) }) rfl rfl
        (h.moved_other hj fun _ => rfl)
    have hmark : OrderIs id Stalled (modOrder s j fun o => { o with gaugeLost := true }) := by
      obtain ⟨x, hx, hP⟩ := h
      exact ⟨x, (orderById_modOrder_other hj (f := fun o => { o with gaugeLost := true }) fun _ => rfl).trans hx, hP⟩
    have hstop := stopOrder_other hj .noGauge (keptByReleases_stalled id) h
    unfold gaugeLostFor
    split
    · exact h
    · split
      · exact hmark
      · exact hfail
      · exact hfail
      · exact hstop
      · exact hstop
      · exact hstop
      · exact h
      · exact h
      · exact h
      · exact h

theorem stalled_gaugeLost {id : Nat} {s : State} (h : OrderIs id Stalled s) (t : Nat) : OrderIs id Stalled (gaugeLost s t) := by
  unfold gaugeLost
  generalize ordersOn s t = ids
  induction ids generalizing s with
  | nil => exact h
  | cons j ids ih => exact ih (stalled_gaugeLostFor h j)

theorem stalled_badEvent {id : Nat} {s : State} (h : OrderIs id Stalled s) (t : Nat) : OrderIs id Stalled (badEvent s t) := by
  unfold badEvent
  split
  · exact h
  · split
    · exact h
    · dsimp only
      split
      · exact stalled_gaugeLost (s := raise (modTank s t badReading) gaugeWithdrawn (some t)) (OrderIs.congr (s := s) rfl rfl h) t
      · split <;> exact OrderIs.congr (s := s) rfl rfl h

/-- A stall disagreement marks a gauge in use, and no other tank (R40). -/
theorem badEvent_tanks {s : State} {t : Nat} {x : Tank} (hx : s.tanks[t]? = some x) :
    (badEvent s t).tanks = if gaugeInUse x.gauge then modAt s.tanks t badReading else s.tanks := by
  have hlost : ∀ u, (gaugeLost u t).tanks = u.tanks := fun u => (gaugeLost_path u t).changesOnly .tanks (by decide)
  rw [badEvent, tankRec, hx]
  dsimp only
  by_cases huse : gaugeInUse x.gauge = true
  · rw [if_pos huse, huse, Bool.not_true, if_neg Bool.false_ne_true]
    split
    · exact hlost _
    · split <;> rfl
  · rw [if_neg huse, Bool.eq_false_iff.2 huse]
    rfl

theorem movement_eq (o : Order) (baseline level : Nat) :
    movement o baseline level = if o.action = .fill then (level : Int) - baseline else baseline - level := by
  cases h : o.action <;> simp [movement, h]

/-! ### OCAN and OREL (R130, R131) -/

section Named

variable {s : State} {o : Order} (horders : OrdersOk s.orders) (ho : some o ∈ s.orders.slots) (k : Nat)
include horders ho

theorem ocan_state (h : o.state = .admitting ∨ o.state = .stopping ∨ terminalState o.state = true) :
    ocan k o.id s = reply s .console k .state [] := by
  rw [terminalState_iff] at h
  rw [ocan, orderNamed_of_mem horders ho]
  rcases h with h | h | h | h | h <;> simp only [h] <;> rfl

/-- OCAN cancels an order that waits at once (R130). -/
theorem ocan_waiting (h : o.state = .queued ∨ o.state = .suspended) :
    let u := recheck (placed s o { o with state := .cancelled, reason := some .cancel, ended := some (now s) })
    ocan k o.id s = reply u .console k .ok [(.RV, .num 9)] := by
  have hmoved := moveOrder_put horders ho fun o => { o with state := .cancelled, reason := some .cancel, ended := some (now s) }
  have hcancelled : orderById (recheck (placed s o { o with state := .cancelled, reason := some .cancel, ended := some (now s) })) o.id
      = some { o with state := .cancelled, reason := some .cancel, ended := some (now s) } := by
    have hslots := congrArg Orders.slots ((recheck_path (placed s o { o with state := .cancelled, reason := some .cancel, ended := some (now s) })).changesOnly .orders (by decide))
    exact (orderById_congr hslots o.id).trans (orderById_placed horders ho rfl)
  rw [ocan, orderNamed_of_mem horders ho]
  rcases h with h | h <;> simp only [h, hmoved, orderStateField, hcancelled] <;> rfl

theorem ocan_running (h : o.state = .lineup ∨ o.state = .starting ∨ o.state = .active) :
    let u := settleArbiter (stopOrder s o.id .cancel)
    ocan k o.id s = reply u .console k .ok (orderStateField u o.id) := by
  rw [ocan, orderNamed_of_mem horders ho]
  rcases h with h | h | h <;> simp only [h]

theorem orel_state (h : terminalState o.state = false) : orel k o.id s = reply s .console k .state [] := by
  rw [orel, orderNamed_of_mem horders ho]
  simp only [h]
  rfl

/-- OREL frees the slot of a terminal order (R131). -/
theorem orel_frees (h : terminalState o.state = true) : orel k o.id s = reply { s with
    orders := { s.orders with slots := s.orders.slots.map fun x => if x = some o then none else x } } .console k .ok [] := by
  have hslots : (s.orders.slots.map fun x => if x.any fun y => y.id = o.id then none else x)
      = s.orders.slots.map fun x => if x = some o then none else x := by
    refine List.map_congr_left fun z hz => ?_
    cases z with
    | none => rfl
    | some y =>
      by_cases hid : y.id = o.id
      · rw [horders.eq_of_id hz ho hid]
        simp
      · have hne : y ≠ o := fun heq => hid (congrArg Order.id heq)
        simp [hid, hne]
  rw [orel, orderNamed_of_mem horders ho]
  simp only [h, if_true, hslots]
  rfl

/-! ### The stall window -/

variable {w : Stall} (hstall : o.stall = some w)
include hstall

theorem stallExpired_notDue (h : o.state ≠ .active ∨ s.clocks.uptime < w.expiry) : stallExpired o.id s = s := by
  have hnot : ¬(o.state = .active ∧ w.expiry ≤ s.clocks.uptime) := fun ⟨hactive, hdue⟩ =>
    h.elim (· hactive) fun hearly => absurd hdue (not_le.2 hearly)
  simp only [stallExpired, orderById_of_mem horders ho, hstall]
  exact if_neg (by rwa [Bool.and_eq_true, decide_eq_true_iff, due_some])

theorem stallExpired_due (hstate : o.state = .active) (h : w.expiry ≤ s.clocks.uptime) : stallExpired o.id s
    = if movement o w.baseline (levelOf s o.tank) < s.settings.sm then settleArbiter (badEvent (stopOrder s o.id .stall) o.tank)
      else placed s o { o with stall := some (freshStall s o) } := by
  have hput := modOrder_put horders ho fun x => { x with stall := some (freshStall s o) }
  simp only [stallExpired, orderById_of_mem horders ho, hstall, hput]
  exact if_pos (by rw [Bool.and_eq_true, decide_eq_true_iff, due_some]; exact ⟨hstate, h⟩)

end Named

end Sys2Proof.Machine
end

section
/-! PROOFS. Orders stop and leave: OCAN, OREL, the stall window, the stop of a running order and the released report (R98, R110, R123, R125, R126, R128 to R131; log 2, 14, 26). -/

namespace Sys2Proof.Machine

theorem recheck_plant (s : State) : (recheck s).plant = s.plant := (recheck_path s).changesOnly .plant (by decide)

theorem moveOrder_plant (s : State) (id : Nat) (f : Order → Order) : (moveOrder s id f).plant = s.plant := recheck_plant _

section Named

variable {s : State} (horders : OrdersOk s.orders)
include horders

/-- A stop of a running order: STOPPING, then a stop request (R98, R125). -/
theorem stopOrder_placed {o : Order} (ho : some o ∈ s.orders.slots) (hrunning : o.state = .lineup ∨ o.state = .starting ∨ o.state = .active)
    (r : Reason) : stopOrder s o.id r
      = stopRequest (recheck (placed s o { o with state := .stopping, reason := some r, stall := none })) o.id := by
  rw [stopOrder_running (orderById_of_mem horders ho) (runningState_iff.2 hrunning)]
  exact congrArg (stopRequest · o.id) (moveOrder_put horders ho _)

theorem ocan_cases {k : Nat} {oi : Int} (hexec : exec (.ocan k) s = .next (ocan k oi s)) :
    ((∀ o, some o ∈ s.orders.slots → oi ≠ o.id) → exec (.ocan k) s = .next (reply s .console k .range []))
    ∧ ∀ o, some o ∈ s.orders.slots → oi = o.id →
      (o.state = .admitting ∨ o.state = .stopping ∨ terminalState o.state = true → exec (.ocan k) s = .next (reply s .console k .state []))
      ∧ (o.state = .queued ∨ o.state = .suspended →
        ∃ t, exec (.ocan k) s = .next t ∧ ChangesOnly [.orders, .pour, .engine, .console] s t
          ∧ t.orders = { s.orders with
              slots := s.orders.slots.map fun x => if x = some o then some { o with state := .cancelled, reason := some .cancel, ended := some s.clocks.uptime } else x }
          ∧ Replied s t .console k .ok [(.RV, .num 9)])
      ∧ (o.state = .lineup ∨ o.state = .starting ∨ o.state = .active →
        ∃ u o', exec (.ocan k) s = .next (reply (settleArbiter u) .console k .ok (orderStateField (settleArbiter u) o.id))
          ∧ orderById u o.id = some o' ∧ o'.reason = some .cancel ∧ o'.stall = none
          ∧ (o'.state = .stopping ∨ (o'.state = .cancelled ∧ o'.pumps = [] ∧ o'.ended = some s.clocks.uptime))) := by
  refine ⟨fun hnone => ?_, fun o ho hoi => ?_⟩
  · rw [hexec, ocan, orderNamed_eq_none hnone]
    rfl
  subst hoi
  refine ⟨fun h => hexec.trans (congrArg _ (ocan_state horders ho k h)), fun h => ?_, fun h => ?_⟩
  · have hrecheck := (recheck_path (placed s o { o with state := .cancelled, reason := some .cancel, ended := some (now s) })).changesOnly
    refine ⟨_, hexec.trans (congrArg _ (ocan_waiting horders ho k h)), ?_, ?_, ?_⟩
    · exact ((setOrders_changesOnly (by decide) s _).trans (hrecheck.mono (by decide))).trans
        ((reply_path _ .console k .ok _).changesOnly.mono (by decide))
    · exact ((reply_path _ .console k .ok _).changesOnly .orders (by decide)).trans (hrecheck .orders (by decide))
    · exact reply_port_congr (t := s) (l := .console) (hrecheck .console (by decide)) (hrecheck .call (by decide)) k .ok _
  · obtain ⟨o', ho', hreason, hstall, hstate⟩ :=
      stoppedFor_stopOrder (orderById_of_mem horders ho) (runningState_iff.2 h) (r := .cancel) (.inl rfl)
    have hclocks : (stopOrder s o.id .cancel).clocks = s.clocks := (stopOrder_path s o.id .cancel).clocks
    refine ⟨_, o', hexec.trans (congrArg _ (ocan_running horders ho k h)), ho', hreason, hstall, ?_⟩
    rcases hstate with hstopping | ⟨-, hcancelled, hpumps, hended⟩ | ⟨hcounted, -⟩
    · exact .inl hstopping
    · exact .inr ⟨hcancelled, hpumps, by rw [hended, now, hclocks]⟩
    · simp [Reason.Counted] at hcounted

theorem orel_cases {k : Nat} {oi : Int} (hexec : exec (.orel k) s = .next (orel k oi s)) :
    ((∀ o, some o ∈ s.orders.slots → oi ≠ o.id) → exec (.orel k) s = .next (reply s .console k .range []))
      ∧ ∀ o, some o ∈ s.orders.slots → oi = o.id →
        (terminalState o.state = false → exec (.orel k) s = .next (reply s .console k .state []))
        ∧ (terminalState o.state = true → exec (.orel k) s = .next (reply { s with
            orders := { s.orders with slots := s.orders.slots.map fun x => if x = some o then none else x } } .console k .ok [])) := by
  refine ⟨fun hnone => ?_, fun o ho hoi => ?_⟩
  · rw [hexec, orel, orderNamed_eq_none hnone]
    rfl
  subst hoi
  exact ⟨fun h => hexec.trans (congrArg _ (orel_state horders ho k h)), fun h => hexec.trans (congrArg _ (orel_frees horders ho k h))⟩

/-- A stall stops the order and marks the tank's gauge (R40, R123). -/
theorem stall_spec {o : Order} (ho : some o ∈ s.orders.slots) (hactive : o.state = .active) :
    let u := badEvent (stopOrder s o.id .stall) o.tank
    (∃ o', orderById u o.id = some o' ∧ o'.stall = none
      ∧ ((o'.reason = some .stall ∧ (o'.state = .stopping ∨ o'.state = .queued ∨ o'.state = .failed))
        ∨ (o'.reason = some .noGauge ∧ o'.state = .failed)))
    ∧ ∀ x, s.tanks[o.tank]? = some x → u.tanks = if gaugeInUse x.gauge then modAt s.tanks o.tank badReading else s.tanks := by
  have hstopped : OrderIs o.id (StoppedFor .stall) (stopOrder s o.id .stall) :=
    stoppedFor_stopOrder (orderById_of_mem horders ho) (runningState_iff.2 (.inr (.inr hactive))) (.inr (.inl rfl))
  have htanks : (stopOrder s o.id .stall).tanks = s.tanks := (stopOrder_path s o.id .stall).changesOnly .tanks (by decide)
  refine ⟨?_, fun x hx => ?_⟩
  · obtain ⟨y, hy, hP⟩ := hstopped
    obtain ⟨o', ho', hstalled⟩ := stalled_badEvent ⟨y, hy, .inl hP⟩ o.tank
    rcases hstalled with ⟨hreason, hstall, hstate⟩ | ⟨hstall, hreason, hstate⟩
    · refine ⟨o', ho', hstall, .inl ⟨hreason, ?_⟩⟩
      rcases hstate with hstopping | ⟨hcancel, -⟩ | ⟨-, hleft⟩
      · exact .inl hstopping
      · cases hcancel
      · exact .inr hleft
    · exact ⟨o', ho', hstall, .inr ⟨hreason, hstate⟩⟩
  · rw [← htanks] at hx ⊢
    exact badEvent_tanks hx

end Named

/-- Settles O44. -/
theorem ordersStopAndLeave : Obligations.OrdersStopAndLeave := by
  refine ⟨fun k s oi hasked hcall horders => ?_, fun k s oi hasked hcall horders => ?_, fun s o w hpower horders ho hstall => ?_,
    fun s o r horders ho => ?_, fun s o withdrawn horders ho hstate => ?_⟩
  · exact ocan_cases horders ((exec_asked (r := .ocan oi) hasked).trans (congrArg _ (whenAdmitted_inCall hcall .console k _)))
  · exact orel_cases horders ((exec_asked (r := .orel oi) hasked).trans (congrArg _ (whenAdmitted_inCall hcall .console k _)))
  · have hexec : exec (.stallWindowExpiry o.id) s = .next (stallExpired o.id s) := event_powered hpower _
    refine ⟨fun h => hexec.trans (congrArg _ (stallExpired_notDue horders ho hstall h)), fun hactive hdue hmoved => ?_, fun hactive hdue hmoved => ?_⟩
    · rw [hexec, stallExpired_due horders ho hstall hactive hdue, movement_eq, if_neg (not_lt.2 hmoved)]
      rfl
    · obtain ⟨⟨o', ho', hkept, hfate⟩, htanks⟩ := stall_spec horders ho hactive
      refine ⟨_, o', ?_, ho', hkept, hfate, htanks⟩
      rw [hexec, stallExpired_due horders ho hstall hactive hdue, movement_eq, if_pos hmoved]
  · refine ⟨fun hlineup hstarting hactive => ?_, fun hrunning => ⟨fun hnone => ?_, fun a ha => ?_⟩⟩
    · exact stopOrder_ignored (orderById_of_mem horders ho) (fun h => by rw [runningState_iff] at h; simp_all) r
    · exact (stopOrder_placed horders ho hrunning r).trans (stopRequest_none ((congrArg (attemptOf · o.id) (recheck_plant _)).trans hnone))
    · have ha' := (congrArg (attemptOf · o.id) (recheck_plant (placed s o { o with state := .stopping, reason := some r, stall := none }))).trans ha
      rw [stopOrder_placed horders ho hrunning r]
      exact ⟨stopRequest_liningUp ha', stopRequest_started ha', stopRequest_takingDown ha'⟩
  · intro moved owed free ended held released
    have hheld : orderHeld s o = true ↔ held := orderHeld_iff
    refine ⟨orderReleased_done horders ho hstate withdrawn, orderReleased_cancelled horders ho hstate withdrawn, fun hreason hhull => ?_,
      fun hreason hhull h => ?_, fun hreason hhull h => ?_, fun hreason h => ?_, fun hreason h => ?_,
      orderReleased_noGauge horders ho hstate withdrawn, fun hreason => ?_⟩
    · exact orderReleased_hullStopped horders ho hstate withdrawn hreason (by rw [hhull]; decide)
    · exact orderReleased_hullHeld horders ho hstate withdrawn hreason hhull (hheld.2 h)
    · exact orderReleased_hullQueued horders ho hstate withdrawn hreason hhull (mt hheld.1 h)
    · exact (orderReleased_preempted horders ho hstate withdrawn hreason).trans (if_pos h)
    · exact (orderReleased_preempted horders ho hstate withdrawn hreason).trans (if_neg h)
    · obtain ⟨r, hr, hcounted⟩ : ∃ r, o.reason = some r ∧ r.Counted := by
        rcases hreason with h | h | h | h <;> exact ⟨_, h, by simp [Reason.Counted]⟩
      have htable := orderReleased_counted horders ho hstate withdrawn hr hcounted
      exact ⟨fun h => htable.trans (if_pos h), fun h => htable.trans (if_neg (not_le.2 h))⟩

end Sys2Proof.Machine
end

section
/-! PROOFS. What the plant's folds come to: pumps held, let go or primed, valves joined and released, mains joined and left, attempts looked up (R89 to R94, R99). -/

namespace Sys2Proof.Machine

/-! ### Pumps -/

/-- A fold over pumps changes the pump records alone. -/
theorem foldl_modPump_eq (ns : List Nat) (f : Pump → Pump) (p : Plant) :
    ns.foldl (fun p n => modPump p n f) p = { p with pumps := (ns.foldl (fun p n => modPump p n f) p).pumps } := by
  induction ns generalizing p with
  | nil => rfl
  | cons n ns ih =>
    rw [List.foldl_cons, ih (modPump p n f)]
    unfold modPump
    split <;> rfl

/-- A change that is the same made twice is made once on each pump named. -/
theorem foldl_modPump_getElem? (ns : List Nat) {f : Pump → Pump} (hf : ∀ x, f (f x) = f x) (p : Plant) (i : Nat) :
    (ns.foldl (fun p n => modPump p n f) p).pumps[i]? = (p.pumps[i]?).map fun x => if i + 1 ∈ ns then f x else x := by
  induction ns generalizing p with
  | nil => simp
  | cons n ns ih =>
    rw [List.foldl_cons, ih, modPump_getElem?, Option.map_map]
    refine congrArg (fun g => Option.map g p.pumps[i]?) (funext fun x => ?_)
    by_cases hn : i + 1 = n <;> by_cases hns : i + 1 ∈ ns <;> simp [hn, hns, hf]

/-- A named pump after such a fold. -/
theorem foldl_modPump_of {ns : List Nat} {f : Pump → Pump} (hf : ∀ x, f (f x) = f x) {p : Plant} {n : Nat} {x : Pump} (h1 : 1 ≤ n)
    (hn : n ∈ ns) (hx : p.pumps[n - 1]? = some x) : (ns.foldl (fun p n => modPump p n f) p).pumps[n - 1]? = some (f x) := by
  rw [foldl_modPump_getElem? ns hf, hx, Nat.sub_add_cancel h1, Option.map_some, if_pos hn]

/-! ### Valves -/

/-- A valve with one user more (R89). -/
def joined (expiry : Nat) (atLimit : Bool) (w : Valve) : Valve :=
  if w.state = .opening ∨ w.state = .opened then { w with users := w.users + 1 }
  else openCommand expiry atLimit { w with users := w.users + 1 }

/-- A valve with one user less (R89). -/
def letGo (expiry : Nat) (atLimit : Bool) (w : Valve) : Valve :=
  if 1 < w.users ∨ w.state = .closed ∨ w.state = .closing then { w with users := w.users - 1 }
  else closeCommand expiry atLimit { w with users := w.users - 1 }

theorem joinValve_eq (e : Nat) (p : Plant) (v : Nat) : joinValve e p v = modValve p v (joined e (limitOn p v .openLimit)) :=
  congrArg (modValve p v) (funext fun w => by cases h : w.state <;> simp [joined, h])

theorem releaseValve_eq (e : Nat) (p : Plant) (v : Nat) : releaseValve e p v = modValve p v (letGo e (limitOn p v .closedLimit)) :=
  congrArg (modValve p v) (funext fun w => by
    by_cases husers : 1 < w.users
    · have hkept : ¬w.users - 1 = 0 := by omega
      simp [letGo, husers, hkept]
    · have hnone : w.users - 1 = 0 := by omega
      cases h : w.state <;> simp [letGo, husers, hnone, h])

/-- A fold of valve changes that read the input lines alone changes the valve records alone, and each named valve once. -/
theorem foldl_valves {step : Plant → Nat → Plant} {f : Plant → Nat → Valve → Valve} (hstep : ∀ p v, step p v = modValve p v (f p v))
    (hf : ∀ {p q : Plant} (v : Nat), q.lines = p.lines → f q v = f p v) (vs : List Nat) (p : Plant) :
    vs.foldl step p = { p with valves := (vs.foldl step p).valves }
      ∧ (vs.Nodup → ∀ v, (vs.foldl step p).valves[v]? = (p.valves[v]?).map fun w => if v ∈ vs then f p v w else w) := by
  induction vs generalizing p with
  | nil => simp
  | cons u vs ih =>
    obtain ⟨hrest, hvalves⟩ := ih (step p u)
    rw [List.foldl_cons]
    refine ⟨?_, fun hnodup v => ?_⟩
    · rw [hrest, hstep]
      rfl
    · obtain ⟨hu, hvs⟩ := List.nodup_cons.1 hnodup
      have hlines : (step p u).lines = p.lines := by rw [hstep]; rfl
      rw [hvalves hvs v, hf v hlines, hstep]
      by_cases huv : u = v
      · subst huv
        rw [modValve, modAt_getElem?_self, Option.map_map]
        refine congrArg (fun g => Option.map g p.valves[u]?) (funext fun w => ?_)
        simp [hu]
      · have hmem : v ∈ u :: vs ↔ v ∈ vs := by simp [Ne.symm huv]
        rw [modValve_other p huv]
        simp only [hmem]

theorem limitOn_congr {p q : Plant} (h : q.lines = p.lines) (v : Nat) (l : Limit) : limitOn q v l = limitOn p v l := by
  rw [limitOn, lineOn, h, limitOn, lineOn]

theorem foldl_joinValve (e : Nat) (vs : List Nat) (p : Plant) :
    vs.foldl (joinValve e) p = { p with valves := (vs.foldl (joinValve e) p).valves }
      ∧ (vs.Nodup → ∀ v, (vs.foldl (joinValve e) p).valves[v]?
        = (p.valves[v]?).map fun w => if v ∈ vs then joined e (limitOn p v .openLimit) w else w) :=
  foldl_valves (f := fun p v => joined e (limitOn p v .openLimit)) (joinValve_eq e) (fun v h => by rw [limitOn_congr h]) vs p

theorem foldl_releaseValve (e : Nat) (vs : List Nat) (p : Plant) :
    vs.foldl (releaseValve e) p = { p with valves := (vs.foldl (releaseValve e) p).valves }
      ∧ (vs.Nodup → ∀ v, (vs.foldl (releaseValve e) p).valves[v]?
        = (p.valves[v]?).map fun w => if v ∈ vs then letGo e (limitOn p v .closedLimit) w else w) :=
  foldl_valves (f := fun p v => letGo e (limitOn p v .closedLimit)) (releaseValve_eq e) (fun v h => by rw [limitOn_congr h]) vs p

/-- A valve that is not OPEN and not at its open limit is OPENING with the attempt that joins it; a stroke that runs goes on (R87, R89). -/
theorem joined_opening {e : Nat} {w : Valve} (hlaw : ValveOk w) (hstate : w.state ≠ .opened) :
    joined e false w = { w with
      users := w.users + 1, commandedOpen := true, state := .opening, stroke := if w.state = .opening then w.stroke else some e } := by
  obtain ⟨-, hcommand, -⟩ := hlaw
  cases h : w.state with
  | opening =>
    have hopen := hcommand (.inl h)
    simp [joined, h, hopen]
  | opened => exact absurd h hstate
  | closed | closing | fault => simp [joined, openCommand, beginStroke, h]

theorem joined_state_ne_opened {e : Nat} {w : Valve} (hstate : w.state ≠ .opened) : (joined e false w).state ≠ .opened := by
  cases h : w.state <;> simp_all [joined, openCommand, beginStroke]

/-- A valve that keeps users, or that closes already, loses a user alone (R89). -/
theorem letGo_kept (e : Nat) (atLimit : Bool) {w : Valve} (h : 1 < w.users ∨ w.state = .closed ∨ w.state = .closing) :
    letGo e atLimit w = { w with users := w.users - 1 } := if_pos h

/-- The last user of an open, opening or faulty valve leaves it commanded closed (R87, R89). -/
theorem letGo_closes (e : Nat) (atLimit : Bool) {w : Valve} (husers : w.users ≤ 1) (hclosed : w.state ≠ .closed) (hclosing : w.state ≠ .closing) :
    letGo e atLimit w = { w with
      users := 0, commandedOpen := false, state := if atLimit then .closed else .closing, stroke := if atLimit then none else some e } := by
  have hnone : w.users - 1 = 0 := by omega
  rw [letGo, if_neg (by simp [hclosed, hclosing, husers]), hnone]
  cases h : w.state with
  | closed => exact absurd h hclosed
  | closing => exact absurd h hclosing
  | opening | opened | fault => cases atLimit <;> simp [closeCommand, beginStroke]

/-! ### Mains -/

theorem mainRec_setMain_self (p : Plant) (m : Main) (r : MainRec) : mainRec (setMain p m r) m = r := by cases m <;> rfl

theorem mainRec_setMain_other (p : Plant) {m k : Main} (h : k ≠ m) (r : MainRec) : mainRec (setMain p m r) k = mainRec p k := by
  cases m with
  | port =>
    cases k with
    | port => exact absurd rfl h
    | stbd => rfl
  | stbd =>
    cases k with
    | port => rfl
    | stbd => exact absurd rfl h

theorem setMain_pumps (p : Plant) (m : Main) (r : MainRec) : (setMain p m r).pumps = p.pumps := by cases m <;> rfl

theorem setMain_valves (p : Plant) (m : Main) (r : MainRec) : (setMain p m r).valves = p.valves := by cases m <;> rfl

theorem setMain_attempts (p : Plant) (m : Main) (r : MainRec) : (setMain p m r).attempts = p.attempts := by cases m <;> rfl

theorem mainRec_congr {p q : Plant} (hport : q.portMain = p.portMain) (hstbd : q.stbdMain = p.stbdMain) (m : Main) : mainRec q m = mainRec p m := by
  cases m
  · exact hport
  · exact hstbd

/-! ### Attempts -/

theorem attemptOf_modAttempt {p : Plant} {id : Nat} {a : Attempt} (ha : attemptOf p id = some a) {f : Attempt → Attempt}
    (hf : ∀ b, (f b).order = b.order) : attemptOf (modAttempt p id f) id = some (f a) := by
  change (p.attempts.map fun b => if b.order = id then f b else b).find? (fun b => b.order = id) = _
  have hsame : ((fun b : Attempt => decide (b.order = id)) ∘ fun b => if b.order = id then f b else b) = fun b => decide (b.order = id) := by
    funext b
    dsimp only [Function.comp]
    split <;> simp [hf]
  rw [List.find?_map, hsame]
  rw [attemptOf] at ha
  have horder : a.order = id := attemptOf_order ha
  rw [ha, Option.map_some, if_pos horder]

theorem attemptOf_congr {p q : Plant} (h : q.attempts = p.attempts) (id : Nat) : attemptOf q id = attemptOf p id := by
  rw [attemptOf, h, attemptOf]

/-- An attempt appended is found where the order had none. -/
theorem attemptOf_append {p q : Plant} {a : Attempt} (h : q.attempts = p.attempts ++ [a]) (hnone : attemptOf p a.order = none) :
    attemptOf q a.order = some a := by
  rw [attemptOf] at hnone
  rw [attemptOf, h, List.find?_append, hnone]
  simp

/-! ### Priming (R94) -/

/-- The plant with an attempt in PRIMING: its pumps started, its prove timer running (R94). -/
def primedPlant (expiry : Nat) (p : Plant) (a : Attempt) : Plant :=
  modAttempt (a.pumps.foldl (fun p n => modPump p n fun x => { x with state := .priming, startLine := true }) p) a.order
    fun x => { x with phase := .priming, prove := some expiry }

theorem checkProven_unproven {s : State} {n : Nat} (h : ¬(runningOn s.plant n = true ∧ provenOn s.plant n = true)) : checkProven s n = s :=
  if_neg fun hproven => h (by
    simp only [Bool.and_eq_true] at hproven
    exact ⟨hproven.1.2, hproven.2⟩)

theorem foldl_checkProven_unproven {s : State} {ns : List Nat} (h : ∀ n ∈ ns, ¬(runningOn s.plant n = true ∧ provenOn s.plant n = true)) :
    ns.foldl checkProven s = s := by
  induction ns with
  | nil => rfl
  | cons n ns ih =>
    obtain ⟨hn, hns⟩ := List.forall_mem_cons.1 h
    rw [List.foldl_cons, checkProven_unproven hn, ih hns]

theorem lineOn_congr {p q : Plant} (h : q.lines = p.lines) (i : Nat) : lineOn q i = lineOn p i := by rw [lineOn, h, lineOn]

theorem primedPlant_lines (e : Nat) (p : Plant) (a : Attempt) : (primedPlant e p a).lines = p.lines := by
  have hpumps := congrArg Plant.lines (foldl_modPump_eq a.pumps (fun x => { x with state := .priming, startLine := true }) p)
  exact hpumps

/-- An attempt primes without a pump that is proven at once: the pumps start, and the order becomes STARTING (R94, R120). -/
theorem prime_unproven {s : State} {a : Attempt} (h : ∀ n ∈ a.pumps, ¬(runningOn s.plant n = true ∧ provenOn s.plant n = true)) :
    prime s a = orderPriming (setPlant s (primedPlant (expiryAfter s s.settings.pv) s.plant a)) a.order := by
  have hlines : (orderPriming (setPlant s (primedPlant (expiryAfter s s.settings.pv) s.plant a)) a.order).plant.lines = s.plant.lines :=
    (orderPriming_path _ a.order).lines.trans (primedPlant_lines _ _ a)
  have hunproven : ∀ n ∈ a.pumps, ¬(runningOn (orderPriming (setPlant s (primedPlant (expiryAfter s s.settings.pv) s.plant a)) a.order).plant n = true
      ∧ provenOn (orderPriming (setPlant s (primedPlant (expiryAfter s s.settings.pv) s.plant a)) a.order).plant n = true) := fun n hn => by
    rw [runningOn, provenOn, lineOn_congr hlines, lineOn_congr hlines]
    exact h n hn
  exact foldl_checkProven_unproven hunproven

theorem orderPriming_plant (s : State) (id : Nat) : (orderPriming s id).plant = s.plant := (orderPriming_path s id).changesOnly .plant (by decide)

/-- The priming report makes an order in LINEUP STARTING, and leaves another as it is (R120). -/
theorem orderById_orderPriming {s : State} {id : Nat} {o : Order} (ho : orderById s id = some o) :
    orderById (orderPriming s id) id = some (if o.state = .lineup then { o with state := .starting } else o) := by
  rw [orderPriming, ho]
  dsimp only
  split
  · exact orderById_moveOrder ho (f := fun o => { o with state := .starting }) (mem_of_orderById ho).2
  · exact ho

end Sys2Proof.Machine
end

section
/-! PROOFS. The pump arbiter: the runs of an event, the order in which a run considers orders, its verdicts, preemptions and returns, and the start request (R93, R116 to R119, R129; log 14, 16, 25). -/

namespace Sys2Proof.Machine

/-! ### Orders of consideration (R117, R119) -/

theorem arbiterBefore_iff {a b : Order} : arbiterBefore a b = true ↔ b.priority < a.priority ∨ (a.priority = b.priority ∧ a.rank < b.rank) := by
  simp [arbiterBefore]

theorem arbiterBefore_eq_false {a b : Order} :
    arbiterBefore a b = false ↔ ¬(b.priority < a.priority ∨ (a.priority = b.priority ∧ a.rank < b.rank)) := by
  rw [← arbiterBefore_iff, Bool.not_eq_true]

theorem victimBefore_iff {a b : Order} : victimBefore a b = true ↔ a.priority < b.priority ∨ (a.priority = b.priority ∧ b.rank < a.rank) := by
  simp [victimBefore]

theorem victimBefore_eq_false {a b : Order} :
    victimBefore a b = false ↔ ¬(a.priority < b.priority ∨ (a.priority = b.priority ∧ b.rank < a.rank)) := by
  rw [← victimBefore_iff, Bool.not_eq_true]

theorem arbiterBefore_sorted (xs : List Order) : (sortBy arbiterBefore xs).Pairwise fun a b => arbiterBefore b a = false := by
  refine sortBy_pairwise (fun a b h => ?_) (fun a b c hba hcb => ?_) xs
  · rw [arbiterBefore_iff] at h
    rw [arbiterBefore_eq_false]
    omega
  · rw [arbiterBefore_eq_false] at hba hcb ⊢
    omega

theorem victimBefore_sorted (xs : List Order) : (sortBy victimBefore xs).Pairwise fun a b => victimBefore b a = false := by
  refine sortBy_pairwise (fun a b h => ?_) (fun a b c hba hcb => ?_) xs
  · rw [victimBefore_iff] at h
    rw [victimBefore_eq_false]
    omega
  · rw [victimBefore_eq_false] at hba hcb ⊢
    omega

theorem ordersList_nodup {s : State} (h : OrdersOk s.orders) : (ordersList s).Nodup := by
  obtain ⟨-, -, hids, -⟩ := h
  refine List.Nodup.of_map Order.id ?_
  rwa [ordersList, List.map_filterMap]

/-- The QUEUED orders, listed in the arbiter's order, are what a run goes through (R117). -/
theorem queued_eq {s : State} (h : OrdersOk s.orders) {queued : List Order}
    (hmem : ∀ o, o ∈ queued ↔ some o ∈ s.orders.slots ∧ o.state = .queued)
    (hsorted : queued.Pairwise fun a b => b.priority < a.priority ∨ (a.priority = b.priority ∧ a.rank < b.rank)) :
    sortBy arbiterBefore ((ordersList s).filter fun o => o.state = .queued) = queued := by
  have hnodup : queued.Nodup := hsorted.imp fun hab heq => by
    subst heq
    omega
  have hperm : (sortBy arbiterBefore ((ordersList s).filter fun o => o.state = .queued)).Perm queued :=
    (sortBy_perm _ _).trans ((List.perm_ext_iff_of_nodup ((ordersList_nodup h).filter _) hnodup).2 fun o => by
      rw [List.mem_filter, mem_ordersList, decide_eq_true_iff, hmem])
  have hpairs : queued.Pairwise fun a b => arbiterBefore b a = false := hsorted.imp fun hab => by
    rw [arbiterBefore_eq_false]
    omega
  have hsymm : Std.Symm fun a b : Order => a ≠ b → arbiterBefore a b = true ∨ arbiterBefore b a = true :=
    ⟨fun a b hab hne => (hab hne.symm).symm⟩
  have hordered : queued.Pairwise fun a b => a ≠ b → arbiterBefore a b = true ∨ arbiterBefore b a = true :=
    hsorted.imp fun hab _ => .inl (arbiterBefore_iff.2 hab)
  have hstrict := hordered.forall_of_forall fun a _ hne => absurd rfl hne
  refine hperm.eq_of_pairwise (fun a b ha hb hba hab => ?_) (arbiterBefore_sorted _) hpairs
  by_contra hne
  rcases hstrict (hperm.mem_iff.1 ha) hb hne with h | h
  · rw [h] at hab
    cases hab
  · rw [h] at hba
    cases hba

/-- In a sorted list the entry before all others of its kind is found first. -/
theorem find?_sorted {α : Type} {before : α → α → Bool} {xs : List α} (hsorted : xs.Pairwise fun a b => before b a = false) {p : α → Bool}
    {v : α} (hv : v ∈ xs) (hp : p v = true) (hfirst : ∀ x ∈ xs, p x = true → x ≠ v → before v x = true) : xs.find? p = some v := by
  induction xs with
  | nil => cases hv
  | cons y ys ih =>
    obtain ⟨hy, hys⟩ := List.pairwise_cons.1 hsorted
    by_cases hyv : y = v
    · subst hyv
      exact List.find?_cons_of_pos hp
    · have htail : v ∈ ys := (List.mem_cons.1 hv).resolve_left (Ne.symm hyv)
      have hpy : ¬p y = true := fun hpy => by
        have hbefore := hfirst y List.mem_cons_self hpy hyv
        rw [hy v htail] at hbefore
        cases hbefore
      rw [List.find?_cons_of_neg hpy]
      exact ih hys htail fun x hx => hfirst x (List.mem_cons_of_mem y hx)

/-! ### Preemption and return (R119, R129) -/

theorem holdsPumpOf_iff {g : Group} {o : Order} : holdsPumpOf g o = true ↔ ∃ n ∈ o.pumps, n ∈ groupPumps g := by
  simp [holdsPumpOf]

theorem mayPreempt_iff {s : State} {o : Order} {g : Group} (hg : groupFor s o = some g) : mayPreempt s o = true
    ↔ (∀ n ∈ groupPumps g, pumpState s n ≠ .withdrawn)
      ∧ ∀ x, some x ∈ s.orders.slots → (∃ n ∈ x.pumps, n ∈ groupPumps g) → ¬(x.state = .stopping ∧ x.reason = some .preempted) := by
  rw [mayPreempt, hg]
  simp only [Bool.and_eq_true, List.all_eq_true, Bool.not_eq_true', List.any_eq_false, mem_ordersList, holdsPumpOf_iff, decide_eq_true_iff,
    bne_iff_ne, not_and, and_imp]

/-- An order that may be taken as a victim for a group (R119). -/
def IsVictim (s : State) (g : Group) (taken : List Nat) (x : Order) : Prop :=
  some x ∈ s.orders.slots ∧ x.state = .active ∧ x.priority ≤ 1 ∧ (∃ n ∈ x.pumps, n ∈ groupPumps g) ∧ x.id ∉ taken

section Preempting

variable {s : State} {o : Order} {g : Group} (hg : groupFor s o = some g) (taken : List Nat)
include hg

theorem mem_victims {x : Order} : (x ∈ victims s o ∧ (!taken.contains x.id) = true) ↔ IsVictim s g taken x := by
  rw [victims, hg, (sortBy_perm _ _).mem_iff]
  simp [IsVictim, mem_ordersList, holdsPumpOf_iff, and_assoc]

theorem victims_sorted : (victims s o).Pairwise fun a b => victimBefore b a = false := by
  rw [victims, hg]
  exact victimBefore_sorted _

theorem preemptFor_none (h : ∀ x, ¬IsVictim s g taken x) : preemptFor (s, taken) o = (s, taken) := by
  have hnone : (victims s o).find? (fun v => !taken.contains v.id) = none :=
    List.find?_eq_none.2 fun x hx hfree => h x ((mem_victims hg taken).1 ⟨hx, hfree⟩)
  simp only [preemptFor, hnone]

/-- The first victim is that of lowest priority, then of highest rank (R119). -/
theorem preemptFor_first {v : Order} (hv : IsVictim s g taken v)
    (hfirst : ∀ x, IsVictim s g taken x → x ≠ v → v.priority < x.priority ∨ (v.priority = x.priority ∧ x.rank < v.rank)) :
    preemptFor (s, taken) o = (stopOrder s v.id .preempted, taken ++ [v.id]) := by
  obtain ⟨hmem, hfree⟩ := (mem_victims hg taken).2 hv
  have hfound : (victims s o).find? (fun v => !taken.contains v.id) = some v :=
    find?_sorted (victims_sorted hg) hmem hfree fun x hx hxfree hne =>
      victimBefore_iff.2 (hfirst x ((mem_victims hg taken).1 ⟨hx, hxfree⟩) hne)
  simp only [preemptFor, hfound]

end Preempting

section Returning

variable {s : State} {o : Order} (horders : OrdersOk s.orders) (ho : some o ∈ s.orders.slots)
include horders ho

theorem returnPreempted_other (h : ¬(o.state = .suspended ∧ o.reason = some .preempted)) : returnPreempted s o.id = s := by
  rw [returnPreempted, orderById_of_mem horders ho]
  exact if_neg (by simpa using h)

variable (hstate : o.state = .suspended) (hreason : o.reason = some .preempted)
include hstate hreason

theorem returnPreempted_held (h : orderHeld s o = true) : returnPreempted s o.id = placed s o { o with reason := some .held } := by
  have hput := modOrder_put horders ho fun o => { o with reason := some .held }
  rw [returnPreempted, orderById_of_mem horders ho]
  simp only [hstate, hreason, h, hput]
  rfl

theorem returnPreempted_queued (h : ¬orderHeld s o = true) :
    returnPreempted s o.id = callArbiter (recheck (placed s o { o with state := .queued })) := by
  have hput := moveOrder_put horders ho fun o => { o with state := .queued }
  rw [returnPreempted, orderById_of_mem horders ho]
  simp only [hstate, hreason, if_neg h, queueOrder, hput]
  rfl

end Returning

/-! ### Verdicts (R117) -/

theorem judge_noGroup {s : State} {o : Order} (h : groupFor s o = none) : judge s o = .pass := by rw [judge, h]

/-- A loading order that the hull keeps out: no clear signal, or no live result (R117). -/
def UnsafeLoad (s : State) (o : Order) : Prop := o.direction ≠ some .relieving ∧ (s.hull.stop = .stopped ∨ s.hull.live = none)

theorem mainLimit_eq (p : Plant) (g : Group) (a : Action) : mainLimit p g a = if a = .transfer ∨ ganged p g = true then 1 else 2 := by
  simp [mainLimit]

section Judged

variable {s : State} {o : Order} {g : Group} (hg : groupFor s o = some g)
include hg

theorem judge_pass (h : orderHeld s o = true ∨ UnsafeLoad s o) : judge s o = .pass := by
  rw [judge, hg]
  dsimp only
  by_cases hheld : orderHeld s o = true
  · rw [if_pos hheld]
  · have hkeptOut := h.resolve_left hheld
    rw [if_neg hheld, if_pos (by simpa [UnsafeLoad] using hkeptOut)]

variable (hheld : ¬orderHeld s o = true) (hsafe : ¬UnsafeLoad s o)
include hheld hsafe

theorem judge_mainBusy (hmode : (mainRec s.plant (mainOf s o.tank)).mode ≠ .idle)
    (h : (mainRec s.plant (mainOf s o.tank)).mode ≠ actionMode o.action
      ∨ mainLimit s.plant g o.action ≤ (mainRec s.plant (mainOf s o.tank)).orders.length) : judge s o = .passUrgent := by
  have hclear : ¬(o.direction != some .relieving && (s.hull.stop = .stopped || s.hull.live.isNone)) = true := by simpa [UnsafeLoad] using hsafe
  rw [judge, hg]
  dsimp only
  rw [if_neg hheld, if_neg hclear]
  by_cases haction : (mainRec s.plant (mainOf s o.tank)).mode = actionMode o.action
  · have hfull := h.resolve_left (not_not_intro haction)
    rw [if_neg (by simp [haction]), if_pos (by simp [hmode, hfull])]
  · rw [if_pos (by simp [hmode, haction])]

theorem judge_mainFree (h : (mainRec s.plant (mainOf s o.tank)).mode = .idle
      ∨ ((mainRec s.plant (mainOf s o.tank)).mode = actionMode o.action
        ∧ (mainRec s.plant (mainOf s o.tank)).orders.length < mainLimit s.plant g o.action)) :
    (offered s g = [] → judge s o = .passUrgent) ∧ (offered s g ≠ [] → judge s o = .grant (offered s g)) := by
  have hclear : ¬(o.direction != some .relieving && (s.hull.stop = .stopped || s.hull.live.isNone)) = true := by simpa [UnsafeLoad] using hsafe
  have hmode : ¬((mainRec s.plant (mainOf s o.tank)).mode != .idle && (mainRec s.plant (mainOf s o.tank)).mode != actionMode o.action) = true := by
    rcases h with h | h <;> simp [h]
  have hroom : ¬((mainRec s.plant (mainOf s o.tank)).mode != .idle
      && decide (mainLimit s.plant g o.action ≤ (mainRec s.plant (mainOf s o.tank)).orders.length)) = true := by
    rcases h with h | ⟨-, h⟩
    · simp [h]
    · simp [not_le.2 h]
  rw [judge, hg]
  dsimp only
  rw [if_neg hheld, if_neg hclear, if_neg hmode, if_neg hroom]
  cases offered s g <;> simp

end Judged

/-- What a group offers, by its two pumps (R117). -/
theorem offered_spec (s : State) (g : Group) : ∃ low high, groupPumps g = [low, high] ∧ low < high
    ∧ (ganged s.plant g = true → offered s g = if available s low = true ∧ available s high = true then [low, high] else [])
    ∧ (ganged s.plant g = false →
        offered s g = if available s low = true then [low] else if available s high = true then [high] else []) := by
  obtain ⟨low, high, hpumps, hlt⟩ : ∃ low high, groupPumps g = [low, high] ∧ low < high := by
    cases g
    · exact ⟨1, 2, rfl, by decide⟩
    · exact ⟨3, 4, rfl, by decide⟩
  refine ⟨low, high, hpumps, hlt, fun hganged => ?_, fun hganged => ?_⟩
  · rw [offered, if_pos hganged, hpumps]
    simp
  · rw [offered, if_neg (by rw [hganged]; exact Bool.false_ne_true), hpumps]
    cases hlow : available s low <;> cases hhigh : available s high <;> simp [List.filter, hlow, hhigh]

/-! ### Start requests (R93, R118) -/

/-- The attempt of a start request that is taken (R93). -/
def newAttempt (s : State) (o : Order) (pumps : List Nat) : Attempt :=
  Attempt.mk o.id o.action (mainOf s o.tank) pumps (lineup o.action (mainOf s o.tank) o.tank o.dest) .liningUp none none []

theorem available_notRunning {s : State} {n : Nat} (h : available s n = true) : runningOn s.plant n = false := by
  unfold available at h
  split at h
  · simp only [Bool.and_eq_true, Bool.not_eq_true'] at h
    exact h.2
  · cases h

theorem startTaken_spec {s : State} {o : Order} {pumps : List Nat} (h : startTaken s o pumps = true) :
    (∀ n ∈ pumps, 1 ≤ n ∧ runningOn s.plant n = false) ∧ attemptOf s.plant o.id = none := by
  unfold startTaken at h
  split at h
  · cases h
  · simp only [Bool.and_eq_true, List.all_eq_true, Option.isNone_iff_eq_none, List.contains_iff_mem] at h
    obtain ⟨⟨⟨hpumps, -⟩, -⟩, hattempt⟩ := h
    exact ⟨fun n hn => ⟨(groupPumps_range (hpumps n hn).2).1, available_notRunning (hpumps n hn).1⟩, hattempt⟩

section Taken

variable (s : State) (o : Order) (pumps : List Nat)

/-- The plant of a start request before its valves are joined. -/
def mainJoined : Plant :=
  joinMain (pumps.foldl (fun p n => modPump p n fun x => { x with holder := some o.id }) { s.plant with attempts := s.plant.attempts ++ [newAttempt s o pumps] })
    (mainOf s o.tank) o.action o.id

theorem startPlant_eq : startPlant s o pumps
    = { mainJoined s o pumps with valves := (startPlant s o pumps).valves } :=
  (foldl_joinValve (strokeExpiry s) (newAttempt s o pumps).valves (mainJoined s o pumps)).1

theorem startPlant_attempts : (startPlant s o pumps).attempts = s.plant.attempts ++ [newAttempt s o pumps] := by
  rw [startPlant_eq]
  refine (setMain_attempts _ _ _).trans ?_
  rw [foldl_modPump_eq]

theorem startPlant_mainRec : mainRec (startPlant s o pumps) (mainOf s o.tank)
    = { mode := actionMode o.action, orders := (mainRec s.plant (mainOf s o.tank)).orders ++ [o.id] } := by
  have hpumps : mainRec (pumps.foldl (fun p n => modPump p n fun x => { x with holder := some o.id })
      { s.plant with attempts := s.plant.attempts ++ [newAttempt s o pumps] }) (mainOf s o.tank) = mainRec s.plant (mainOf s o.tank) := by
    rw [foldl_modPump_eq]
    cases mainOf s o.tank <;> rfl
  have hjoined : mainRec (startPlant s o pumps) (mainOf s o.tank) = mainRec (mainJoined s o pumps) (mainOf s o.tank) := by
    rw [startPlant_eq]
    cases mainOf s o.tank <;> rfl
  rw [hjoined, mainJoined, joinMain, mainRec_setMain_self, hpumps]

theorem startPlant_pump {n : Nat} (h1 : 1 ≤ n) (hn : n ∈ pumps) {p : Pump} (hp : s.plant.pumps[n - 1]? = some p) :
    (startPlant s o pumps).pumps[n - 1]? = some { p with holder := some o.id } := by
  have hjoined : (startPlant s o pumps).pumps = (mainJoined s o pumps).pumps := by rw [startPlant_eq]
  rw [hjoined, mainJoined, joinMain, setMain_pumps]
  exact foldl_modPump_of (f := fun x => { x with holder := some o.id }) (fun _ => rfl) h1 hn hp

theorem startPlant_valve (hnodup : (newAttempt s o pumps).valves.Nodup) {v : Nat} (hv : v ∈ (newAttempt s o pumps).valves) :
    (startPlant s o pumps).valves[v]? = (s.plant.valves[v]?).map (joined (strokeExpiry s) (limitOn s.plant v .openLimit)) := by
  have hpumps : (mainJoined s o pumps).valves = s.plant.valves ∧ (mainJoined s o pumps).lines = s.plant.lines := by
    rw [mainJoined, joinMain, setMain_valves, setMain_lines, foldl_modPump_eq]
    exact ⟨rfl, rfl⟩
  obtain ⟨hvalves, hlines⟩ := hpumps
  have hfold := (foldl_joinValve (strokeExpiry s) (newAttempt s o pumps).valves (mainJoined s o pumps)).2 hnodup v
  rw [limitOn_congr hlines, hvalves] at hfold
  refine Eq.trans hfold ?_
  simp only [if_pos hv]

end Taken

/-- The order and the plant of a start request that has been taken, before the attempt's valves are looked at (R93, R118). -/
def takenState (s : State) (o : Order) (pumps : List Nat) : State :=
  moveOrder (setPlant s (startPlant s o pumps)) o.id fun x => { x with state := .lineup, pumps := pumps }

theorem takenState_plant (s : State) (o : Order) (pumps : List Nat) : (takenState s o pumps).plant = startPlant s o pumps := recheck_plant _

section Requested

variable {s : State} {o : Order} {pumps : List Nat} (h : startTaken s o pumps = true)
include h

theorem attemptOf_takenState : attemptOf (takenState s o pumps).plant o.id = some (newAttempt s o pumps) := by
  rw [takenState_plant]
  exact attemptOf_append (a := newAttempt s o pumps) (startPlant_attempts s o pumps) (startTaken_spec h).2

/-- A start request that finds its valves OPEN primes at once; none of its pumps is proven then, for they are available (R93, R94). -/
theorem startRequest_taken : startRequest s o pumps
    = if linedUp (startPlant s o pumps) (newAttempt s o pumps) then
        orderPriming (setPlant (takenState s o pumps) (primedPlant (expiryAfter (takenState s o pumps) (takenState s o pumps).settings.pv)
          (startPlant s o pumps) (newAttempt s o pumps))) o.id
      else takenState s o pumps := by
  have hlines : (takenState s o pumps).plant.lines = s.plant.lines := by rw [takenState_plant, startPlant_lines]
  have hprime := prime_unproven (s := takenState s o pumps) (a := newAttempt s o pumps) fun n hn hproven => by
    have hrunning := ((startTaken_spec h).1 n hn).2
    rw [runningOn, lineOn_congr hlines] at hproven
    rw [runningOn, hproven.1] at hrunning
    cases hrunning
  have hcheck : startRequest s o pumps = checkLinedUp (takenState s o pumps) o.id := if_pos h
  rw [hcheck, checkLinedUp, attemptOf_takenState h]
  dsimp only
  rw [hprime, takenState_plant]
  rfl

end Requested

/-! ### What a taken start request comes to -/

theorem primedPlant_mainRec (e : Nat) (p : Plant) (a : Attempt) (m : Main) : mainRec (primedPlant e p a) m = mainRec p m := by
  have hpumps := foldl_modPump_eq a.pumps (fun x => { x with state := .priming, startLine := true }) p
  exact mainRec_congr (congrArg Plant.portMain hpumps) (congrArg Plant.stbdMain hpumps) m

theorem primedPlant_pump (e : Nat) {p : Plant} {a : Attempt} {n : Nat} (h1 : 1 ≤ n) (hn : n ∈ a.pumps) {x : Pump} (hx : p.pumps[n - 1]? = some x) :
    (primedPlant e p a).pumps[n - 1]? = some { x with state := .priming, startLine := true } :=
  foldl_modPump_of (f := fun x => { x with state := .priming, startLine := true }) (fun _ => rfl) h1 hn hx

theorem orderById_takenState {s : State} {o : Order} (pumps : List Nat) (hslots : orderById s o.id = some o) :
    orderById (takenState s o pumps) o.id = some { o with state := .lineup, pumps := pumps } :=
  orderById_moveOrder (s := setPlant s (startPlant s o pumps)) hslots (f := fun x => { x with state := .lineup, pumps := pumps }) rfl

section Taken

variable {s : State} {o : Order} {pumps : List Nat} (h : startTaken s o pumps = true)
include h

/-- The order leaves QUEUED and keeps the pumps granted (R118). -/
theorem startRequest_order (hslots : orderById s o.id = some o) :
    ∃ o', orderById (startRequest s o pumps) o.id = some o' ∧ o'.pumps = pumps ∧ o'.state ≠ .queued := by
  have htaken := orderById_takenState pumps hslots
  rw [startRequest_taken h]
  split
  · refine ⟨_, orderById_orderPriming (s := setPlant (takenState s o pumps) _) htaken, ?_⟩
    rw [if_pos rfl]
    exact ⟨rfl, nofun⟩
  · exact ⟨_, htaken, rfl, nofun⟩

theorem startRequest_mainRec : mainRec (startRequest s o pumps).plant (mainOf s o.tank)
    = { mode := actionMode o.action, orders := (mainRec s.plant (mainOf s o.tank)).orders ++ [o.id] } := by
  rw [startRequest_taken h]
  split
  · rw [orderPriming_plant, setPlant_plant, primedPlant_mainRec, startPlant_mainRec]
  · rw [takenState_plant, startPlant_mainRec]

theorem startRequest_pump {n : Nat} (hn : n ∈ pumps) {p : Pump} (hp : s.plant.pumps[n - 1]? = some p) :
    ∃ p', (startRequest s o pumps).plant.pumps[n - 1]? = some p' ∧ p'.holder = some o.id := by
  have h1 := ((startTaken_spec h).1 n hn).1
  have hheld := startPlant_pump s o pumps h1 hn hp
  rw [startRequest_taken h]
  split
  · exact ⟨_, by rw [orderPriming_plant]; exact primedPlant_pump _ (a := newAttempt s o pumps) h1 hn hheld, rfl⟩
  · exact ⟨_, by rw [takenState_plant]; exact hheld, rfl⟩

end Taken

theorem lineup_ne_nil (a : Action) (m : Main) (tank : Nat) (dest : Option Nat) : lineup a m tank dest ≠ [] := by
  cases a <;> exact List.cons_ne_nil _ _

/-- Valves that are not OPEN and not at their open limits, joined, leave the attempt in LINING_UP (R93, R94). -/
theorem notLinedUp_of_joined {s : State} {o : Order} {pumps : List Nat} (hnodup : (newAttempt s o pumps).valves.Nodup)
    (hvalves : ∀ v ∈ (newAttempt s o pumps).valves, valveOpen s.plant v = false ∧ limitOn s.plant v .openLimit = false) :
    ¬linedUp (startPlant s o pumps) (newAttempt s o pumps) = true := by
  obtain ⟨v, hv⟩ := List.exists_mem_of_ne_nil _ (lineup_ne_nil o.action (mainOf s o.tank) o.tank o.dest)
  intro hlined
  have hopen : valveOpen (startPlant s o pumps) v = true := List.all_eq_true.1 hlined v hv
  obtain ⟨hclosed, hlimit⟩ := hvalves v hv
  simp only [valveOpen, decide_eq_true_iff, decide_eq_false_iff_not] at hopen hclosed
  rw [valveState, startPlant_valve s o pumps hnodup hv, hlimit] at hopen
  cases hw : s.plant.valves[v]? with
  | none =>
    rw [hw] at hopen
    cases hopen
  | some w =>
    rw [hw] at hopen
    rw [valveState_of hw] at hclosed
    exact joined_state_ne_opened hclosed hopen

/-- Settles O46. -/
theorem arbiterJudgesByCases : Obligations.ArbiterJudgesByCases := by
  refine ⟨⟨fun s => ⟨settleArbiter_done s, settleArbiter_none s⟩, fun runs n hn hruns hend => settleRuns_runs runs 64 n hn hruns hend,
    fun s queued back horders hmem hsorted hback => ?_, fun s o g hg => ⟨mayPreempt_iff hg, fun taken horders => ?_⟩,
    fun s o horders ho => ⟨returnPreempted_other horders ho, fun hstate hreason hheld => ?_, fun hstate hreason hfree => ?_⟩⟩,
    fun s o => ⟨fun hmode => ?_, fun g hg => ⟨fun h => ?_, fun hheld hsafe => ⟨fun ⟨hmode, hbusy⟩ => ?_, fun hfree => ?_⟩⟩⟩,
    offered_spec, fun s o pumps horders hplant ho => ⟨fun h => ?_, fun h => ?_⟩⟩
  · intro considered preempted
    have hstep : considerOrder = fun (acc : State × List Order) o =>
        match judge acc.1 o with
        | .pass => acc
        | .passUrgent => (acc.1, if o.priority = 3 then acc.2 ++ [o] else acc.2)
        | .grant pumps => (startRequest acc.1 o pumps, acc.2) := by
      funext acc o
      unfold considerOrder
      cases judge acc.1 o with
      | pass => rfl
      | passUrgent =>
        dsimp only
        split <;> rfl
      | grant pumps => rfl
    rw [arbiterRun, queued_eq horders hmem hsorted, hstep, hback]
    rfl
  · exact ⟨preemptFor_none hg taken, fun v hv hfirst => preemptFor_first hg taken hv hfirst⟩
  · exact returnPreempted_held horders ho hstate hreason (orderHeld_iff.2 hheld)
  · exact returnPreempted_queued horders ho hstate hreason (mt orderHeld_iff.1 hfree)
  · refine judge_noGroup ?_
    rcases hmode with hmode | hmode <;> rw [groupFor, hmode] <;> rfl
  · exact judge_pass hg (h.imp_left orderHeld_iff.2)
  · exact judge_mainBusy hg (mt orderHeld_iff.1 hheld) hsafe hmode (by rwa [mainLimit_eq])
  · exact judge_mainFree hg (mt orderHeld_iff.1 hheld) hsafe (by rwa [mainLimit_eq])
  · exact if_neg (by rw [h]; exact Bool.false_ne_true)
  · intro m valves
    have hslots := orderById_of_mem horders ho
    obtain ⟨o', ho', hpumps, hstate⟩ := startRequest_order h hslots
    refine ⟨o', ho', hpumps, hstate, startRequest_mainRec h, fun n hn p hp => startRequest_pump h hn hp, fun hvalves hnodup => ?_⟩
    have hclosed : ∀ v ∈ (newAttempt s o pumps).valves, valveOpen s.plant v = false ∧ limitOn s.plant v .openLimit = false := fun v hv => by
      simpa using List.all_eq_true.1 hvalves v hv
    have hrequest : startRequest s o pumps = takenState s o pumps :=
      (startRequest_taken h).trans (if_neg (notLinedUp_of_joined hnodup hclosed))
    rw [hrequest, orderById_takenState pumps hslots] at ho'
    cases ho'
    rw [hrequest, takenState_plant]
    refine ⟨rfl, startPlant_attempts s o pumps, fun v hv w hw => ?_⟩
    obtain ⟨hnotOpen, hlimit⟩ := hclosed v hv
    have hopened : w.state ≠ .opened := by simpa [valveOpen, valveState_of hw] using hnotOpen
    obtain ⟨-, -, -, -, hlaws, -⟩ := hplant
    rw [startPlant_valve s o pumps hnodup hv, hw, hlimit, Option.map_some, joined_opening (hlaws w (List.mem_of_getElem? hw)) hopened]
    rfl

end Sys2Proof.Machine
end

section
/-! PROOFS. The pumps of an attempt that ends: a pump stopped or withdrawn, an attempt taken down, released and failed (R89, R91, R96 to R99, R116, R125; log 45). -/

namespace Sys2Proof.Machine

/-! ### One pump (R98, R99) -/

/-- A pump that comes to rest: STOPPED, or WITHDRAWN at a failure count of 3 (R99). -/
def Pump.rested (x : Pump) : Pump :=
  { x with state := if x.failures = 3 then .withdrawn else .stopped, startLine := false, stopTimer := none }

/-- A pump of an attempt that is taken down: PRIMING and RUNNING are stopped, with running feedback by the stop timer (R98). -/
def Pump.takenDown (running : Bool) (timer : Nat) (x : Pump) : Pump :=
  if x.state = .priming ∨ x.state = .running then
    if running then { x with state := .stopping, startLine := false, stopTimer := some timer } else x.rested
  else x

/-- The pump is WITHDRAWN when its attempt is taken down (R98, R99). -/
def goesOut (s : State) (n : Nat) : Bool :=
  decide (pumpState s n = .priming ∨ pumpState s n = .running) && !runningOn s.plant n
    && decide ((s.plant.pumps[n - 1]?).map Pump.failures = some 3)

/-- An attempt that lists a pump of its own as withdrawn (R99). -/
def Attempt.listing (n : Nat) (b : Attempt) : Attempt := if b.pumps.contains n then { b with withdrawn := b.withdrawn ++ [n] } else b

theorem withdrawPump_eq (s : State) (n : Nat) : withdrawPump s n = raise (setPlant s
    { modPump s.plant n fun x => { x with state := .withdrawn, startLine := false, stopTimer := none } with
      attempts := s.plant.attempts.map (Attempt.listing n) }) pumpWithdrawn (some n) := by
  have hattempts : (modPump s.plant n fun x => { x with state := .withdrawn, startLine := false, stopTimer := none }).attempts = s.plant.attempts := by
    unfold modPump
    split <;> rfl
  rw [withdrawPump, hattempts]
  rfl

/-- Attempts that list a withdrawn pump are found as before. -/
theorem attemptOf_listing {s u : State} {n : Nat} (hattempts : u.plant.attempts = s.plant.attempts.map (Attempt.listing n)) {id : Nat} {a : Attempt}
    (ha : attemptOf s.plant id = some a) : attemptOf u.plant id = some (a.listing n) := by
  have hsame : ((fun b : Attempt => decide (b.order = id)) ∘ Attempt.listing n) = fun b => decide (b.order = id) := by
    funext b
    dsimp only [Function.comp, Attempt.listing]
    split <;> rfl
  rw [attemptOf] at ha ⊢
  rw [hattempts, List.find?_map, hsame, ha, Option.map_some]

section Stopped

variable {s : State} {n : Nat} {x : Pump} (h1 : 1 ≤ n) (hx : s.plant.pumps[n - 1]? = some x)
include h1 hx

theorem stopPump_withdraws (h : x.failures = 3) : stopPump s n = withdrawPump s n := by
  rw [stopPump, pumpRec_of h1 hx]
  exact if_pos h

theorem stopPump_stops (h : x.failures ≠ 3) :
    stopPump s n = modPumpS s n fun x => { x with state := .stopped, startLine := false, stopTimer := none } := by
  rw [stopPump, pumpRec_of h1 hx]
  exact if_neg h

/-- What stopping a pump makes of each pump's record (R99). -/
theorem stopPump_pumps (i : Nat) :
    (stopPump s n).plant.pumps[i]? = (s.plant.pumps[i]?).map fun y => if i + 1 = n then y.rested else y := by
  have hself : ∀ {y}, s.plant.pumps[i]? = some y → i + 1 = n → y = x := fun hy hi => by
    rw [show i = n - 1 by omega, hx] at hy
    exact (Option.some.inj hy).symm
  by_cases hfailures : x.failures = 3
  · rw [stopPump_withdraws h1 hx hfailures, withdrawPump_eq]
    refine (modPump_getElem? s.plant n i _).trans (Option.map_congr fun y hy => ?_)
    by_cases hi : i + 1 = n
    · rw [if_pos hi, if_pos hi, hself hy hi, Pump.rested, if_pos hfailures]
    · rw [if_neg hi, if_neg hi]
  · rw [stopPump_stops h1 hx hfailures]
    refine (modPump_getElem? s.plant n i _).trans (Option.map_congr fun y hy => ?_)
    by_cases hi : i + 1 = n
    · rw [if_pos hi, if_pos hi, hself hy hi, Pump.rested, if_neg hfailures]
    · rw [if_neg hi, if_neg hi]

end Stopped

theorem pumpState_none {s : State} {n : Nat} (h : n = 0 ∨ s.plant.pumps[n - 1]? = none) : pumpState s n = .stopped := by
  rw [pumpState, pumpRec]
  rcases h with rfl | h
  · rfl
  · split
    · rfl
    · rw [h]
      rfl

/-- A pump that is neither PRIMING nor RUNNING is left as it is (R98). -/
theorem takeDownPump_idle {s : State} {n : Nat} (h : ¬(pumpState s n = .priming ∨ pumpState s n = .running)) : takeDownPump s n = s := by
  rw [takeDownPump]
  cases hstate : pumpState s n with
  | priming => exact absurd (.inl hstate) h
  | running => exact absurd (.inr hstate) h
  | stopped | stopping | withdrawn => rfl

theorem takeDownPump_running {s : State} {n : Nat} (h : pumpState s n = .priming ∨ pumpState s n = .running) (hrunning : runningOn s.plant n = true) :
    takeDownPump s n = modPumpS s n fun x => { x with state := .stopping, startLine := false, stopTimer := some (expiryAfter s s.settings.ps) } := by
  rw [takeDownPump]
  rcases h with h | h <;> simp only [h, hrunning, if_true]

theorem takeDownPump_rests {s : State} {n : Nat} (h : pumpState s n = .priming ∨ pumpState s n = .running) (hrunning : runningOn s.plant n = false) :
    takeDownPump s n = stopPump s n := by
  rw [takeDownPump]
  rcases h with h | h <;> simp only [h, hrunning] <;> rfl

/-- A pump that is PRIMING or RUNNING has a record. -/
theorem pump_of_stops {s : State} {n : Nat} (h : pumpState s n = .priming ∨ pumpState s n = .running) :
    1 ≤ n ∧ ∃ x, s.plant.pumps[n - 1]? = some x ∧ (x.state = .priming ∨ x.state = .running) := by
  have hrecord : ¬(n = 0 ∨ s.plant.pumps[n - 1]? = none) := fun hnone => by
    rw [pumpState_none hnone] at h
    rcases h with h | h <;> cases h
  obtain ⟨hn, hsome⟩ := not_or.1 hrecord
  obtain ⟨x, hx⟩ := Option.ne_none_iff_exists'.1 hsome
  have h1 : 1 ≤ n := Nat.one_le_iff_ne_zero.2 hn
  rw [pumpState_of h1 hx] at h
  exact ⟨h1, x, hx, h⟩

/-- What taking down one pump makes of each pump's record (R98). -/
theorem takeDownPump_pumps (s : State) (n i : Nat) : (takeDownPump s n).plant.pumps[i]? = (s.plant.pumps[i]?).map fun y =>
    if i + 1 = n then y.takenDown (runningOn s.plant n) (expiryAfter s s.settings.ps) else y := by
  have hself : ∀ {y}, s.plant.pumps[i]? = some y → i + 1 = n → pumpState s n = y.state := fun hy hi =>
    pumpState_of (by omega) (by rwa [show n - 1 = i by omega])
  by_cases hstops : pumpState s n = .priming ∨ pumpState s n = .running
  · cases hrunning : runningOn s.plant n with
    | true =>
      rw [takeDownPump_running hstops hrunning]
      refine (modPump_getElem? s.plant n i _).trans (Option.map_congr fun y hy => ?_)
      by_cases hi : i + 1 = n
      · rw [hself hy hi] at hstops
        rw [if_pos hi, if_pos hi, Pump.takenDown, if_pos hstops, if_pos rfl]
      · rw [if_neg hi, if_neg hi]
    | false =>
      obtain ⟨h1, x, hx, -⟩ := pump_of_stops hstops
      rw [takeDownPump_rests hstops hrunning, stopPump_pumps h1 hx]
      refine Option.map_congr fun y hy => ?_
      by_cases hi : i + 1 = n
      · rw [hself hy hi] at hstops
        rw [if_pos hi, if_pos hi, Pump.takenDown, if_pos hstops, if_neg Bool.false_ne_true]
      · rw [if_neg hi, if_neg hi]
  · rw [takeDownPump_idle hstops]
    refine Option.map_id'.symm.trans (Option.map_congr fun y hy => ?_)
    by_cases hi : i + 1 = n
    · rw [hself hy hi] at hstops
      rw [if_pos hi, Pump.takenDown, if_neg hstops]
    · rw [if_neg hi]

/-- A pump that is withdrawn raises PUMP_WITHDRAWN and is listed by its attempts; another pump taken down changes neither (R98, R99). -/
theorem takeDownPump_notes (s : State) (n : Nat) :
    (takeDownPump s n).attention = (if goesOut s n then raiseIn s.attention pumpWithdrawn (some n) else s.attention)
      ∧ (takeDownPump s n).plant = { s.plant with
          pumps := (takeDownPump s n).plant.pumps
          attempts := if goesOut s n then s.plant.attempts.map (Attempt.listing n) else s.plant.attempts } := by
  have hmod : ∀ f, modPump s.plant n f = { s.plant with pumps := (modPump s.plant n f).pumps } := fun f =>
    foldl_modPump_eq [n] f s.plant
  by_cases hstops : pumpState s n = .priming ∨ pumpState s n = .running
  · cases hrunning : runningOn s.plant n with
    | true =>
      have hstays : goesOut s n = false := by simp [goesOut, hrunning]
      rw [takeDownPump_running hstops hrunning, hstays]
      exact ⟨rfl, hmod _⟩
    | false =>
      obtain ⟨h1, x, hx, -⟩ := pump_of_stops hstops
      rw [takeDownPump_rests hstops hrunning]
      by_cases hfailures : x.failures = 3
      · have hgoes : goesOut s n = true := by simp [goesOut, hstops, hrunning, hx, hfailures]
        rw [stopPump_withdraws h1 hx hfailures, withdrawPump_eq, hgoes]
        refine ⟨rfl, ?_⟩
        have hrest := hmod fun x => { x with state := .withdrawn, startLine := false, stopTimer := none }
        exact congrArg (fun q : Plant => { q with attempts := s.plant.attempts.map (Attempt.listing n) }) hrest
      · have hstays : goesOut s n = false := by simp [goesOut, hx, hfailures]
        rw [stopPump_stops h1 hx hfailures, hstays]
        exact ⟨rfl, hmod _⟩
  · have hstays : goesOut s n = false := by simp [goesOut, hstops]
    rw [takeDownPump_idle hstops, hstays]
    exact ⟨rfl, rfl⟩

/-! ### The pumps of an attempt (R98) -/

theorem takeDownPump_same (s : State) (n : Nat) : (takeDownPump s n).plant.lines = s.plant.lines
    ∧ (takeDownPump s n).clocks = s.clocks ∧ (takeDownPump s n).settings = s.settings :=
  have hpath := takeDownPump_path s n
  ⟨hpath.lines, hpath.clocks, hpath.settings⟩

theorem runningOn_congr {p q : Plant} (h : q.lines = p.lines) (n : Nat) : runningOn q n = runningOn p n := lineOn_congr h _

theorem goesOut_congr {s t : State} {n : Nat} (hpump : t.plant.pumps[n - 1]? = s.plant.pumps[n - 1]?) (hlines : t.plant.lines = s.plant.lines) :
    goesOut t n = goesOut s n := by
  rw [goesOut, goesOut, pumpState, pumpState, pumpRec, pumpRec, hpump, runningOn_congr hlines]

/-- What taking down the pumps of an attempt makes of each pump's record (R98). -/
theorem foldl_takeDownPump_pumps {ns : List Nat} (hnodup : ns.Nodup) (s : State) (i : Nat) :
    (ns.foldl takeDownPump s).plant.pumps[i]? = (s.plant.pumps[i]?).map fun y =>
      if i + 1 ∈ ns then y.takenDown (runningOn s.plant (i + 1)) (expiryAfter s s.settings.ps) else y := by
  induction ns generalizing s with
  | nil => simp
  | cons n ns ih =>
    obtain ⟨hn, hns⟩ := List.nodup_cons.1 hnodup
    obtain ⟨hlines, hclocks, hsettings⟩ := takeDownPump_same s n
    rw [List.foldl_cons, ih hns, takeDownPump_pumps, Option.map_map, runningOn_congr hlines, expiryAfter, now, hclocks, hsettings]
    refine Option.map_congr fun y _ => ?_
    by_cases hi : i + 1 = n
    · subst hi
      simp [hn, expiryAfter, now]
    · simp [hi, expiryAfter, now]

/-- The other pumps are as they were. -/
theorem takeDownPump_other {s : State} {n m : Nat} (h : n ≠ m) (hm : 1 ≤ m) :
    (takeDownPump s n).plant.pumps[m - 1]? = s.plant.pumps[m - 1]? := by
  rw [takeDownPump_pumps]
  refine (Option.map_congr fun y _ => if_neg ?_).trans Option.map_id'
  omega

/-- The pumps withdrawn are listed by the attempts in their order, and each raises PUMP_WITHDRAWN (R98, R99; log 45). -/
theorem foldl_takeDownPump_notes {ns : List Nat} (hnodup : ns.Nodup) (s : State) :
    (ns.foldl takeDownPump s).attention = (ns.filter (goesOut s)).foldl (fun x n => raiseIn x pumpWithdrawn (some n)) s.attention
      ∧ (ns.foldl takeDownPump s).plant = { s.plant with
          pumps := (ns.foldl takeDownPump s).plant.pumps
          attempts := s.plant.attempts.map fun b => (ns.filter (goesOut s)).foldl (fun b n => b.listing n) b } := by
  induction ns generalizing s with
  | nil => simp
  | cons n ns ih =>
    obtain ⟨hn, hns⟩ := List.nodup_cons.1 hnodup
    obtain ⟨hattention, hplant⟩ := ih hns (takeDownPump s n)
    obtain ⟨hraised, hlisted⟩ := takeDownPump_notes s n
    have hrest : ns.filter (goesOut (takeDownPump s n)) = ns.filter (goesOut s) := List.filter_congr fun m hm => by
      by_cases hm0 : 1 ≤ m
      · exact goesOut_congr (takeDownPump_other (fun hnm => hn (hnm ▸ hm)) hm0) (takeDownPump_same s n).1
      · obtain rfl : m = 0 := by omega
        rfl
    rw [List.foldl_cons, hattention, hplant, hraised, hrest]
    refine ⟨?_, ?_⟩
    · cases hgoes : goesOut s n <;> simp [List.filter, hgoes]
    · rw [hlisted]
      cases hgoes : goesOut s n <;> simp [List.filter, hgoes, Function.comp_def]

theorem foldl_listing (ns : List Nat) (b : Attempt) :
    ns.foldl (fun b n => b.listing n) b = { b with withdrawn := b.withdrawn ++ ns.filter fun n => b.pumps.contains n } := by
  induction ns generalizing b with
  | nil => simp
  | cons n ns ih =>
    rw [List.foldl_cons, ih, Attempt.listing]
    by_cases hn : b.pumps.contains n = true
    · rw [if_pos hn, List.filter_cons_of_pos (by simpa using hn)]
      simp
    · rw [if_neg hn, List.filter_cons_of_neg (by simpa using hn)]

end Sys2Proof.Machine
end

section
/-! PROOFS. An attempt released, taken down and failed: the plant that a release leaves, an attempt's phase, and what becomes of its pumps (R87, R89, R91, R95 to R99, R116, R125). -/

namespace Sys2Proof.Machine

/-! ### The plant after a release (R89, R91, R99) -/

section Released

variable (e : Nat) (p : Plant) (a : Attempt)

/-- The plant of a release before the order leaves its main. -/
def valvesReleased : Plant := a.valves.foldl (releaseValve e) (a.pumps.foldl (fun p n => modPump p n fun x => { x with holder := none }) p)

theorem valvesReleased_eq : valvesReleased e p a = { p with
    pumps := (a.pumps.foldl (fun p n => modPump p n fun x => { x with holder := none }) p).pumps
    valves := (valvesReleased e p a).valves } := by
  have hpumps := foldl_modPump_eq a.pumps (fun x => { x with holder := none }) p
  exact (foldl_releaseValve e a.valves _).1.trans (congrArg (fun q : Plant => { q with valves := (valvesReleased e p a).valves }) hpumps)

theorem releasedPlant_eq : releasedPlant e p a
    = { leaveMain (valvesReleased e p a) a.main a.order with attempts := p.attempts.filter fun x => x.order != a.order } := by
  have hattempts : (leaveMain (valvesReleased e p a) a.main a.order).attempts = p.attempts := by
    rw [leaveMain, setMain_attempts, valvesReleased_eq]
  rw [← hattempts]
  rfl

theorem releasedPlant_attempts : (releasedPlant e p a).attempts = p.attempts.filter fun x => x.order != a.order := by rw [releasedPlant_eq]

theorem releasedPlant_pumps (i : Nat) :
    (releasedPlant e p a).pumps[i]? = (p.pumps[i]?).map fun x => if i + 1 ∈ a.pumps then { x with holder := none } else x := by
  rw [releasedPlant_eq]
  dsimp only
  rw [leaveMain, setMain_pumps, valvesReleased_eq]
  exact foldl_modPump_getElem? a.pumps (f := fun x => { x with holder := none }) (fun _ => rfl) p i

theorem releasedPlant_valves (hnodup : a.valves.Nodup) (v : Nat) : (releasedPlant e p a).valves[v]?
    = (p.valves[v]?).map fun w => if v ∈ a.valves then letGo e (limitOn p v .closedLimit) w else w := by
  have hpumps : (a.pumps.foldl (fun p n => modPump p n fun x => { x with holder := none }) p).valves = p.valves
      ∧ (a.pumps.foldl (fun p n => modPump p n fun x => { x with holder := none }) p).lines = p.lines := by
    rw [foldl_modPump_eq]
    exact ⟨rfl, rfl⟩
  obtain ⟨hvalves, hlines⟩ := hpumps
  have hfold := (foldl_releaseValve e a.valves (a.pumps.foldl (fun p n => modPump p n fun x => { x with holder := none }) p)).2 hnodup v
  rw [limitOn_congr hlines, hvalves] at hfold
  rw [releasedPlant_eq]
  dsimp only
  rw [leaveMain, setMain_valves]
  exact hfold

theorem valvesReleased_mainRec (m : Main) : mainRec (valvesReleased e p a) m = mainRec p m := by
  rw [valvesReleased_eq]
  cases m <;> rfl

/-- The order leaves its main, which is IDLE without another (R91). -/
theorem releasedPlant_main : mainRec (releasedPlant e p a) a.main
    = { mode := if ((mainRec p a.main).orders.filter fun id => id != a.order) = [] then .idle else (mainRec p a.main).mode
        orders := (mainRec p a.main).orders.filter fun id => id != a.order } := by
  have hleft : mainRec (releasedPlant e p a) a.main = mainRec (leaveMain (valvesReleased e p a) a.main a.order) a.main := by
    rw [releasedPlant_eq]
    cases a.main <;> rfl
  rw [hleft, leaveMain, mainRec_setMain_self, valvesReleased_mainRec]
  simp only [List.isEmpty_iff]

theorem releasedPlant_otherMain {m : Main} (h : m ≠ a.main) : mainRec (releasedPlant e p a) m = mainRec p m := by
  have hleft : mainRec (releasedPlant e p a) m = mainRec (leaveMain (valvesReleased e p a) a.main a.order) m := by
    rw [releasedPlant_eq]
    cases m <;> rfl
  rw [hleft, leaveMain, mainRec_setMain_other _ h, valvesReleased_mainRec]

/-- A release changes pumps, valves, mains and attempts alone. -/
theorem releasedPlant_rest : releasedPlant e p a = { p with
    pumps := (releasedPlant e p a).pumps
    valves := (releasedPlant e p a).valves
    portMain := (releasedPlant e p a).portMain
    stbdMain := (releasedPlant e p a).stbdMain
    attempts := p.attempts.filter fun x => x.order != a.order } := by
  rw [releasedPlant_eq, leaveMain, valvesReleased_eq]
  cases a.main <;> rfl

end Released

/-! ### The pump-available notice at a release (R99, R116) -/

/-- A pump of a released attempt is available where it is STOPPED without running feedback: the release took its holder away. -/
theorem available_released {s : State} {a : Attempt} {r : State} (hr : r.plant = releasedPlant (strokeExpiry s) s.plant a) {n : Nat} (h1 : 1 ≤ n)
    (hn : n ∈ a.pumps) {x : Pump} (hx : s.plant.pumps[n - 1]? = some x) :
    available r n = true ↔ pumpState s n = .stopped ∧ runningOn s.plant n = false := by
  have hpump : r.plant.pumps[n - 1]? = some { x with holder := none } := by
    rw [hr, releasedPlant_pumps, hx, Option.map_some, Nat.sub_add_cancel h1, if_pos hn]
  have hlines : r.plant.lines = s.plant.lines := by rw [hr, releasedPlant_rest]
  rw [available_iff h1 hpump, runningOn_congr hlines, pumpState_of h1 hx]
  simp

/-- A release calls for a run where a pump of the attempt becomes available (R99, R116). -/
theorem releaseAttempt_notice {s : State} {a : Attempt} (hplant : PlantOk s.plant) (hrange : ∀ n ∈ a.pumps, 1 ≤ n ∧ n ≤ 4) :
    let r := orderReleased (setPlant s (releasedPlant (strokeExpiry s) s.plant a)) a.order a.withdrawn
    ((∃ n ∈ a.pumps, pumpState s n = .stopped ∧ runningOn s.plant n = false) → releaseAttempt s a = pumpNotice r)
      ∧ ((∀ n ∈ a.pumps, ¬(pumpState s n = .stopped ∧ runningOn s.plant n = false)) → releaseAttempt s a = r) := by
  intro r
  have hr : r.plant = releasedPlant (strokeExpiry s) s.plant a := orderReleased_plant _ _ _
  have havailable : ∀ n ∈ a.pumps, available r n = true ↔ pumpState s n = .stopped ∧ runningOn s.plant n = false := fun n hn => by
    obtain ⟨h1, h4⟩ := hrange n hn
    obtain ⟨x, hx⟩ := hplant.pump h4 h1
    exact available_released hr h1 hn hx
  have hrelease : releaseAttempt s a = if a.pumps.any (available r) then pumpNotice r else r := releaseAttempt_eq s a
  refine ⟨fun ⟨n, hn, hfree⟩ => hrelease.trans (if_pos ?_), fun hnone => hrelease.trans (if_neg ?_)⟩
  · exact List.any_eq_true.2 ⟨n, hn, (havailable n hn).2 hfree⟩
  · intro hany
    obtain ⟨n, hn, hfree⟩ := List.any_eq_true.1 hany
    exact hnone n hn ((havailable n hn).1 hfree)

/-! ### The end of a take-down (R98, R99) -/

theorem pumpAtRest_iff {s : State} {n : Nat} : pumpAtRest s n = true ↔ pumpState s n = .stopped ∨ pumpState s n = .withdrawn := by
  simp [pumpAtRest]

section Checked

variable {s : State} {a : Attempt} (ha : attemptOf s.plant a.order = some a)
include ha

theorem checkRelease_rests (h : a.phase = .takingDown ∧ ∀ n ∈ a.pumps, pumpState s n = .stopped ∨ pumpState s n = .withdrawn) :
    checkRelease s a.order = releaseAttempt s a := by
  obtain ⟨hphase, hrest⟩ := h
  rw [checkRelease, ha]
  refine if_pos ?_
  rw [Bool.and_eq_true, decide_eq_true_iff, List.all_eq_true]
  exact ⟨hphase, fun n hn => pumpAtRest_iff.2 (hrest n hn)⟩

theorem checkRelease_waits (h : ¬(a.phase = .takingDown ∧ ∀ n ∈ a.pumps, pumpState s n = .stopped ∨ pumpState s n = .withdrawn)) :
    checkRelease s a.order = s := by
  rw [checkRelease, ha]
  refine if_neg fun hrest => h ?_
  rw [Bool.and_eq_true, decide_eq_true_iff, List.all_eq_true] at hrest
  exact ⟨hrest.1, fun n hn => pumpAtRest_iff.1 (hrest.2 n hn)⟩

end Checked

/-- The last of an attempt's pumps has come to rest, or another has not (R99). -/
theorem checkRelease_of_other {s u : State} {a : Attempt} (ha : attemptOf u.plant a.order = some a) {n : Nat}
    (hn : pumpState u n = .stopped ∨ pumpState u n = .withdrawn) (hother : ∀ m, m ≠ n → pumpState u m = pumpState s m) :
    let atRest := a.phase = .takingDown ∧ ∀ m ∈ a.pumps, m ≠ n → pumpState s m = .stopped ∨ pumpState s m = .withdrawn
    (atRest → checkRelease u a.order = releaseAttempt u a) ∧ (¬atRest → checkRelease u a.order = u) := by
  intro atRest
  have hiff : atRest ↔ a.phase = .takingDown ∧ ∀ m ∈ a.pumps, pumpState u m = .stopped ∨ pumpState u m = .withdrawn := by
    refine and_congr_right fun _ => forall₂_congr fun m _ => ?_
    by_cases hm : m = n
    · subst hm
      exact ⟨fun _ => hn, fun _ hne => absurd rfl hne⟩
    · rw [hother m hm]
      exact ⟨fun h => h hm, fun h _ => h⟩
  exact ⟨fun h => checkRelease_rests ha (hiff.1 h), fun h => checkRelease_waits ha (mt hiff.2 h)⟩

/-! ### The attempts of an order that ends (R96 to R99) -/

/-- Every attempt of the order is being taken down. -/
def AllTakingDown (id : Nat) (p : Plant) : Prop := ∀ b ∈ p.attempts, b.order = id → b.phase = .takingDown

theorem allTakingDown_released (e : Nat) (p : Plant) (a : Attempt) : AllTakingDown a.order (releasedPlant e p a) := fun b hb horder => by
  rw [releasedPlant_attempts, List.mem_filter] at hb
  simp [horder] at hb

theorem allTakingDown_releaseAttempt (s : State) (a : Attempt) : AllTakingDown a.order (releaseAttempt s a).plant := by
  rw [releaseAttempt_plant]
  exact allTakingDown_released _ _ a

theorem allTakingDown_checkRelease {s : State} {id : Nat} (h : AllTakingDown id s.plant) : AllTakingDown id (checkRelease s id).plant := by
  unfold checkRelease
  split
  · next a ha =>
    split
    · rw [← attemptOf_order ha]
      exact allTakingDown_releaseAttempt s a
    · exact h
  · exact h

theorem allTakingDown_takeDownPump {s : State} {id : Nat} (h : AllTakingDown id s.plant) (n : Nat) : AllTakingDown id (takeDownPump s n).plant := by
  intro b hb
  rw [(takeDownPump_notes s n).2] at hb
  dsimp only at hb
  split at hb
  · obtain ⟨c, hc, rfl⟩ := List.mem_map.1 hb
    have hkept : (c.listing n).order = c.order ∧ (c.listing n).phase = c.phase := by
      unfold Attempt.listing
      split <;> exact ⟨rfl, rfl⟩
    rw [hkept.1, hkept.2]
    exact h c hc
  · exact h b hb

theorem allTakingDown_takeDown (s : State) (a : Attempt) : AllTakingDown a.order (takeDown s a).plant := by
  have hphase : AllTakingDown a.order (setPlant s (modAttempt s.plant a.order fun x => { x with phase := .takingDown, prove := none })).plant := by
    intro b hb horder
    obtain ⟨c, hc, rfl⟩ := List.mem_map.1 hb
    dsimp only at horder ⊢
    split at horder
    · next h => rw [if_pos h]
    · next h => exact absurd horder h
  have hpumps : ∀ (ns : List Nat) {u : State}, AllTakingDown a.order u.plant → AllTakingDown a.order (ns.foldl takeDownPump u).plant := by
    intro ns
    induction ns with
    | nil => exact fun h => h
    | cons n ns ih => exact fun h => ih (allTakingDown_takeDownPump h n)
  exact allTakingDown_checkRelease (hpumps a.pumps hphase)

/-! ### A pump at rest stays at rest -/

/-- The pump has a record of the kind. -/
def PumpIs (n : Nat) (P : Pump → Prop) (p : Plant) : Prop := ∃ x, p.pumps[n - 1]? = some x ∧ P x

section Rest

variable {n : Nat} {P : Pump → Prop} (hholder : ∀ x, P x → P { x with holder := none })
include hholder

theorem pumpIs_releaseAttempt {s : State} (h : PumpIs n P s.plant) (a : Attempt) : PumpIs n P (releaseAttempt s a).plant := by
  obtain ⟨x, hx, hP⟩ := h
  rw [releaseAttempt_plant]
  refine ⟨_, by rw [releasedPlant_pumps, hx, Option.map_some], ?_⟩
  split
  · exact hholder x hP
  · exact hP

theorem pumpIs_checkRelease {s : State} (h : PumpIs n P s.plant) (id : Nat) : PumpIs n P (checkRelease s id).plant := by
  unfold checkRelease
  split
  · split
    · exact pumpIs_releaseAttempt hholder h _
    · exact h
  · exact h

variable (hrest : ∀ x, P x → x.state ≠ .priming ∧ x.state ≠ .running)
include hrest

theorem pumpIs_takeDown {s : State} (h : PumpIs n P s.plant) (a : Attempt) : PumpIs n P (takeDown s a).plant := by
  have hpump : ∀ {u : State} (m : Nat), PumpIs n P u.plant → PumpIs n P (takeDownPump u m).plant := fun {u} m ⟨x, hx, hP⟩ => by
    refine ⟨x, ?_, hP⟩
    have hidle : ∀ r t, x.takenDown r t = x := fun r t => if_neg fun h => h.elim (hrest x hP).1 (hrest x hP).2
    rw [takeDownPump_pumps, hx, Option.map_some, hidle, ite_self]
  have hpumps : ∀ (ms : List Nat) {u : State}, PumpIs n P u.plant → PumpIs n P (ms.foldl takeDownPump u).plant := by
    intro ms
    induction ms with
    | nil => exact fun h => h
    | cons m ms ih => exact fun h => ih (hpump m h)
  have hphase : PumpIs n P (setPlant s (modAttempt s.plant a.order fun x => { x with phase := .takingDown, prove := none })).plant := h
  exact pumpIs_checkRelease hholder (hpumps a.pumps hphase) a.order

end Rest

/-! ### An attempt that fails (R95 to R97, R125) -/

theorem orderFailedReport_plant (s : State) (id : Nat) (c : FailCause) : (orderFailedReport s id c).plant = s.plant := by
  unfold orderFailedReport
  split
  · split
    · exact recheck_plant _
    · rfl
  · rfl

/-- An attempt with its cause noted, and its order told (R96, R125). -/
def failureTold (s : State) (id : Nat) (c : FailCause) : State :=
  orderFailedReport (setPlant s (modAttempt s.plant id fun x => { x with cause := some c })) id c

section Failing

variable {s : State} {id : Nat} {a : Attempt} (ha : attemptOf s.plant id = some a) (c : FailCause)
include ha

theorem failAttempt_again (h : a.phase = .takingDown) : failAttempt s id c = s := by
  rw [failAttempt, ha]
  exact if_pos h

theorem failAttempt_liningUp (h : a.phase = .liningUp) : failAttempt s id c = releaseAttempt (failureTold s id c) a := by
  rw [failAttempt, ha]
  simp only [h]
  rfl

theorem failAttempt_started (h : a.phase = .priming ∨ a.phase = .running) : failAttempt s id c = takeDown (failureTold s id c) a := by
  rw [failAttempt, ha]
  rcases h with h | h <;> simp only [h] <;> rfl

theorem failAttempt_takingDown (h : a.phase ≠ .takingDown) : AllTakingDown id (failAttempt s id c).plant := by
  obtain rfl : a.order = id := attemptOf_order ha
  cases hphase : a.phase with
  | liningUp =>
    rw [failAttempt_liningUp ha c hphase]
    exact allTakingDown_releaseAttempt _ a
  | priming =>
    rw [failAttempt_started ha c (.inl hphase)]
    exact allTakingDown_takeDown _ a
  | running =>
    rw [failAttempt_started ha c (.inr hphase)]
    exact allTakingDown_takeDown _ a
  | takingDown => exact absurd hphase h

end Failing

/-- A pump at rest stays at rest while attempts fail (R97). -/
theorem pumpIs_failAttempt {n : Nat} {P : Pump → Prop} (hholder : ∀ x, P x → P { x with holder := none })
    (hrest : ∀ x, P x → x.state ≠ .priming ∧ x.state ≠ .running) {s : State} (h : PumpIs n P s.plant) (id : Nat) (c : FailCause) :
    PumpIs n P (failAttempt s id c).plant := by
  have htold : PumpIs n P (failureTold s id c).plant := by
    rw [failureTold, orderFailedReport_plant]
    exact h
  cases ha : attemptOf s.plant id with
  | none =>
    rw [failAttempt, ha]
    exact h
  | some a =>
    cases hphase : a.phase with
    | liningUp =>
      rw [failAttempt_liningUp ha c hphase]
      exact pumpIs_releaseAttempt hholder htold a
    | priming =>
      rw [failAttempt_started ha c (.inl hphase)]
      exact pumpIs_takeDown hholder hrest htold a
    | running =>
      rw [failAttempt_started ha c (.inr hphase)]
      exact pumpIs_takeDown hholder hrest htold a
    | takingDown =>
      rw [failAttempt_again ha c hphase]
      exact h

/-- A failed attempt's order that is not running is left alone (R125). -/
theorem failureTold_ignored {s : State} {id : Nat} (h : ∀ o, orderById s id = some o → ¬runningState o.state = true) (c : FailCause) :
    failureTold s id c = setPlant s (modAttempt s.plant id fun x => { x with cause := some c }) := by
  have hsame : orderById (setPlant s (modAttempt s.plant id fun x => { x with cause := some c })) id = orderById s id := rfl
  rw [failureTold, orderFailedReport, hsame]
  cases ho : orderById s id with
  | none => rfl
  | some o => exact if_neg (h o ho)

theorem failureTold_running {s : State} {o : Order} (horders : OrdersOk s.orders) (ho : some o ∈ s.orders.slots) {id : Nat} (hid : o.id = id)
    (hrunning : runningState o.state = true) (c : FailCause) : failureTold s id c
      = recheck (placed (setPlant s (modAttempt s.plant id fun x => { x with cause := some c })) o
          { o with state := .stopping, reason := some (failReason c), stall := none }) := by
  subst hid
  have hsame : orderById (setPlant s (modAttempt s.plant o.id fun x => { x with cause := some c })) o.id = some o := orderById_of_mem horders ho
  rw [failureTold, orderFailedReport, hsame]
  refine (if_pos hrunning).trans ?_
  exact moveOrder_put (s := setPlant s (modAttempt s.plant o.id fun x => { x with cause := some c })) horders ho _

end Sys2Proof.Machine
end

section
/-! PROOFS. Pumps follow their feedbacks: a feedback recorded alone, a pump proven, the last pump that starts the attempt, a stop that ends and a trip; a failed and a released attempt (R87, R89 to R91, R94 to R97, R99, R116, R120, R125; log 14). -/

namespace Sys2Proof.Machine

/-! ### Feedback changes -/

section Changed

variable {s : State} (hpower : s.powered = true) (hplant : PlantOk s.plant) {n : Nat} (h1 : 1 ≤ n) (h4 : n ≤ 4)
include hpower hplant h1 h4

theorem exec_pressureProvenChange_new {x : Bool} (h : lineOn s.plant (n + 3) = !x) :
    exec (.pressureProvenChange n x) s = .next (settleArbiter (provenEvent n x (setLine s (n + 3) x))) :=
  (exec_pressureProvenChange hpower h1 h4 x).trans (congrArg _ (lineChange_new (by rw [hplant.1]; omega) h _))

theorem exec_pumpRunningFeedbackChange_new {x : Bool} (h : lineOn s.plant (n - 1) = !x) :
    exec (.pumpRunningFeedbackChange n x) s = .next (settleArbiter (runningEvent n x (setLine s (n - 1) x))) :=
  (exec_pumpRunningFeedbackChange hpower h1 h4 x).trans (congrArg _ (lineChange_new (by rw [hplant.1]; omega) h _))

end Changed

theorem runningOn_setLine_proven (s : State) {n : Nat} (h1 : 1 ≤ n) (x : Bool) : runningOn (setLine s (n + 3) x).plant n = runningOn s.plant n :=
  lineOn_setLine_other s (by simp only [runningLine]; omega) x

theorem provenOn_setLine_running (s : State) {n : Nat} (h1 : 1 ≤ n) (x : Bool) : provenOn (setLine s (n - 1) x).plant n = provenOn s.plant n :=
  lineOn_setLine_other s (by simp only [provenLine]; omega) x

theorem checkProven_notPriming {s : State} {n : Nat} (h : pumpState s n ≠ .priming) : checkProven s n = s := if_neg (by simp [h])

/-- A pressure that shows changes nothing but for a PRIMING pump with running feedback (R94). -/
theorem provenEvent_alone {s : State} {n : Nat} {x : Bool} (h : pumpState s n ≠ .priming ∨ x = false ∨ runningOn s.plant n = false) :
    provenEvent n x s = s := by
  cases x with
  | false => rfl
  | true =>
    rcases h with h | h | h
    · exact checkProven_notPriming h
    · cases h
    · exact checkProven_unproven (by simp [h])

/-- A running feedback that shows changes nothing but for a PRIMING pump that is proven, nor does one lost by a pump that needs none (R94, R97, R99). -/
theorem runningEvent_alone {s : State} {n : Nat} {x : Bool} (h : (x = true ∧ (pumpState s n ≠ .priming ∨ provenOn s.plant n = false))
      ∨ (x = false ∧ (pumpState s n = .priming ∨ pumpState s n = .withdrawn ∨ (pumpState s n = .stopped ∧ ¬available s n = true)))) :
    runningEvent n x s = s := by
  rcases h with ⟨rfl, h | h⟩ | ⟨rfl, h | h | ⟨h, hheld⟩⟩
  · exact checkProven_notPriming h
  · exact checkProven_unproven (by simp [h])
  · simp [runningEvent, h]
  · simp [runningEvent, h]
  · simp [runningEvent, h, hheld]

/-! ### A pump proven (R94, R120) -/

/-- A change of one pump leaves the states of the others. -/
theorem pumpState_other {s u : State} {n m : Nat} (hm : m ≠ n) (h : ∀ i, i + 1 ≠ n → u.plant.pumps[i]? = s.plant.pumps[i]?) :
    pumpState u m = pumpState s m := by
  rw [pumpState, pumpState, pumpRec, pumpRec]
  split
  · rfl
  · rw [h (m - 1) (by omega)]

theorem modPumpS_self {s : State} {n : Nat} {x : Pump} (h1 : 1 ≤ n) (hx : s.plant.pumps[n - 1]? = some x) (f : Pump → Pump) :
    (modPumpS s n f).plant.pumps[n - 1]? = some (f x) := by
  refine (modPump_getElem? s.plant n (n - 1) f).trans ?_
  rw [hx, Option.map_some, if_pos (Nat.sub_add_cancel h1)]

/-- A proven pump runs; with the last pump the attempt starts (R94). -/
theorem checkProven_proven {s : State} {n : Nat} (h : pumpState s n = .priming) (hrunning : runningOn s.plant n = true) (hproven : provenOn s.plant n = true)
    {a : Attempt} (ha : (s.plant.attempts.find? fun b => b.pumps.contains n) = some a) (hphase : a.phase = .priming) :
    let u := modPumpS s n fun x => { x with state := .running, failures := 0 }
    checkProven s n = if allRunning u a then
        orderStarted (setPlant u (modAttempt u.plant a.order fun x => { x with phase := .running, prove := none })) a.order
      else u := by
  intro u
  have hattempts : u.plant.attempts = s.plant.attempts := by
    have hmod := foldl_modPump_eq [n] (fun x => { x with state := .running, failures := 0 }) s.plant
    have hkept := congrArg Plant.attempts hmod
    exact hkept
  have hcheck : checkProven s n = match u.plant.attempts.find? fun a => a.pumps.contains n with
      | some a =>
        if a.phase = .priming && allRunning u a then
          orderStarted (setPlant u (modAttempt u.plant a.order fun x => { x with phase := .running, prove := none })) a.order
        else u
      | none => u := by
    refine (if_pos ?_).trans ?_
    · simp [h, hrunning, hproven]
    · rfl
  rw [hcheck, hattempts, ha]
  simp [hphase]

theorem allRunning_iff {s u : State} {a : Attempt} {n : Nat} (hn : pumpState u n = .running) (hother : ∀ m, m ≠ n → pumpState u m = pumpState s m) :
    allRunning u a = true ↔ ∀ m ∈ a.pumps, m ≠ n → pumpState s m = .running := by
  rw [allRunning, List.all_eq_true]
  refine forall₂_congr fun m _ => ?_
  rw [decide_eq_true_iff]
  by_cases hm : m = n
  · subst hm
    exact ⟨fun _ hne => absurd rfl hne, fun _ => hn⟩
  · rw [hother m hm]
    exact ⟨fun h _ => h, fun h => h hm⟩

theorem stopCondition_congr {s t : State} (htanks : t.tanks = s.tanks) (hsettings : t.settings = s.settings) (hprofile : t.profile = s.profile)
    (o : Order) : stopCondition t o = stopCondition s o := by
  cases s
  cases t
  dsimp only at htanks hsettings hprofile
  subst htanks hsettings hprofile
  rfl

/-- The started report: an order in STARTING that has not reached its target already is ACTIVE, with a fresh stall window (R120, R122). -/
theorem orderStarted_active {s : State} {id : Nat} {o : Order} (ho : orderById s id = some o) (hstate : o.state = .starting)
    (hgoes : stopCondition s o = none) : orderStarted s id
      = moveOrder s id fun o => { o with state := .active, started := some (now s), stall := some (freshStall s o) } := by
  have hmoved := orderById_moveOrder ho (f := fun o => { o with state := .active, started := some (now s), stall := some (freshStall s o) })
    (mem_of_orderById ho).2
  have hpath := recheck_path (modOrder s id fun o => { o with state := .active, started := some (now s), stall := some (freshStall s o) })
  have hgoes' : stopCondition (moveOrder s id fun o => { o with state := .active, started := some (now s), stall := some (freshStall s o) })
      { o with state := .active, started := some (now s), stall := some (freshStall s o) } = none :=
    (stopCondition_congr (hpath.changesOnly .tanks (by decide)) hpath.settings hpath.profile _).trans hgoes
  rw [orderStarted, ho]
  refine (if_pos hstate).trans ?_
  rw [completionTest, hmoved]
  simp only [hgoes']
  rfl

theorem moveOrder_runOwed (s : State) (id : Nat) (f : Order → Order) : (moveOrder s id f).orders.runOwed = s.orders.runOwed := by
  have horders : (moveOrder s id f).orders = (modOrder s id f).orders := (recheck_path _).changesOnly .orders (by decide)
  have howed := congrArg Orders.runOwed horders
  exact howed

/-- The started report changes the order alone (R120). -/
theorem orderStarted_spec {s : State} {id : Nat} {o : Order} (ho : orderById s id = some o) (hstate : o.state = .starting)
    (hgoes : stopCondition s o = none) : (orderStarted s id).orders.runOwed = s.orders.runOwed ∧ (orderStarted s id).plant = s.plant
      ∧ orderById (orderStarted s id) o.id = some { o with state := .active, started := some (now s), stall := some (freshStall s o) } := by
  have hid : o.id = id := (mem_of_orderById ho).2
  rw [orderStarted_active ho hstate hgoes]
  exact ⟨moveOrder_runOwed _ _ _, moveOrder_plant _ _ _, (congrArg (orderById _) hid).trans (orderById_moveOrder ho hid)⟩

/-! ### Stops and trips (R97, R99) -/

theorem holder_of {s : State} {n : Nat} {x : Pump} (h1 : 1 ≤ n) (hx : s.plant.pumps[n - 1]? = some x) : (pumpRec s n).bind Pump.holder = x.holder := by
  rw [pumpRec_of h1 hx]
  rfl

section Lost

variable {s : State} {n : Nat} {x : Pump} (h1 : 1 ≤ n) (hx : s.plant.pumps[n - 1]? = some x)
include h1 hx

theorem runningEvent_running (h : x.state = .running) : runningEvent n false s = tripPump s n := by
  simp [runningEvent, pumpState_of h1 hx, h]

theorem runningEvent_stopping (h : x.state = .stopping) : runningEvent n false s = stoppedPump s n := by
  simp [runningEvent, pumpState_of h1 hx, h]

/-- A lost feedback of a pump that becomes available by it calls for a run (R90, R116). -/
theorem runningEvent_stopped (h : x.state = .stopped) (hholder : x.holder = none) (hrunning : runningOn s.plant n = false) :
    runningEvent n false s = pumpNotice s := by
  have havailable : available s n = true := (available_iff h1 hx).2 ⟨h, hholder, hrunning⟩
  simp [runningEvent, pumpState_of h1 hx, h, havailable]

theorem tripPump_held {id : Nat} (h : x.holder = some id) : tripPump s n = failAttempt (stopPump s n) id .trip := by
  simp only [tripPump, holder_of h1 hx, h]

theorem tripPump_free (h : x.holder = none) : tripPump s n = stopPump s n := by simp only [tripPump, holder_of h1 hx, h]

theorem stoppedPump_held {id : Nat} (h : x.holder = some id) : stoppedPump s n = checkRelease (stopPump s n) id := by
  simp only [stoppedPump, holder_of h1 hx, h]

theorem stoppedPump_free (h : x.holder = none) : stoppedPump s n = stopPump s n := by simp only [stoppedPump, holder_of h1 hx, h]

theorem stopPump_self : (stopPump s n).plant.pumps[n - 1]? = some x.rested := by
  rw [stopPump_pumps h1 hx, hx, Option.map_some, if_pos (Nat.sub_add_cancel h1)]

/-- A pump's stop leaves the phase of an attempt (R99). -/
theorem attemptOf_stopPump {id : Nat} {a : Attempt} (ha : attemptOf s.plant id = some a) :
    ∃ b, attemptOf (stopPump s n).plant id = some b ∧ b.phase = a.phase := by
  by_cases hfailures : x.failures = 3
  · rw [stopPump_withdraws h1 hx hfailures, withdrawPump_eq]
    refine ⟨a.listing n, attemptOf_listing rfl ha, ?_⟩
    unfold Attempt.listing
    split <;> rfl
  · rw [stopPump_stops h1 hx hfailures]
    have hmod := foldl_modPump_eq [n] (fun x => { x with state := .stopped, startLine := false, stopTimer := none }) s.plant
    exact ⟨a, (attemptOf_congr (congrArg Plant.attempts hmod) id).trans ha, rfl⟩

end Lost

/-- A pump that has come to rest by a lost feedback (R97, R99). -/
def RestedAs (p x : Pump) : Prop :=
  x.state = (if p.failures = 3 then .withdrawn else .stopped) ∧ x.startLine = false ∧ x.failures = p.failures ∧ x.stopTimer = none

theorem RestedAs.idle {p x : Pump} (h : RestedAs p x) : x.state ≠ .priming ∧ x.state ≠ .running := by
  obtain ⟨hstate, -⟩ := h
  rw [hstate]
  split
  · exact ⟨nofun, nofun⟩
  · exact ⟨nofun, nofun⟩

/-- A RUNNING or STOPPING pump that loses its running feedback comes to rest (R97, R99). -/
theorem runningEvent_rests {s : State} {n : Nat} {p : Pump} (h1 : 1 ≤ n) (hp : s.plant.pumps[n - 1]? = some p)
    (h : p.state = .running ∨ p.state = .stopping) : PumpIs n (RestedAs p) (runningEvent n false s).plant := by
  have hholder : ∀ x, RestedAs p x → RestedAs p { x with holder := none } := fun _ h => h
  have hstopped : PumpIs n (RestedAs p) (stopPump s n).plant := ⟨_, stopPump_self h1 hp, rfl, rfl, rfl, rfl⟩
  rcases h with h | h
  · rw [runningEvent_running h1 hp h]
    cases hid : p.holder with
    | none => rwa [tripPump_free h1 hp hid]
    | some id =>
      rw [tripPump_held h1 hp hid]
      exact pumpIs_failAttempt hholder (fun _ => RestedAs.idle) hstopped id .trip
  · rw [runningEvent_stopping h1 hp h]
    cases hid : p.holder with
    | none => rwa [stoppedPump_free h1 hp hid]
    | some id =>
      rw [stoppedPump_held h1 hp hid]
      exact pumpIs_checkRelease hholder hstopped id

/-! ### The statement's parts -/

section Pump

variable {s : State} (hpower : s.powered = true) (hplant : PlantOk s.plant) {n : Nat} (h1 : 1 ≤ n) (h4 : n ≤ 4)
include hpower hplant h1 h4

theorem feedback_recorded {p : Pump} (hp : s.plant.pumps[n - 1]? = some p) (howed : s.orders.runOwed = false) {c : Instr} {i : Nat} {x : Bool} (h : lineOn s.plant i = !x)
    (hc : (c = .pressureProvenChange n x ∧ i = n + 3 ∧ (p.state ≠ .priming ∨ x = false ∨ runningOn s.plant n = false))
      ∨ (c = .pumpRunningFeedbackChange n x ∧ i = n - 1
        ∧ ((x = true ∧ (p.state ≠ .priming ∨ provenOn s.plant n = false))
          ∨ (x = false ∧ (p.state = .priming ∨ p.state = .withdrawn ∨ (p.state = .stopped ∧ p.holder ≠ none)))))) :
    exec c s = .next (setLine s i x) := by
  have hp' : (setLine s i x).plant.pumps[n - 1]? = some p := hp
  have hstate : pumpState (setLine s i x) n = p.state := pumpState_of h1 hp'
  have halone : exec c s = .next (settleArbiter (setLine s i x)) := by
    rcases hc with ⟨rfl, rfl, halone⟩ | ⟨rfl, rfl, halone⟩
    · rw [exec_pressureProvenChange_new hpower hplant h1 h4 h, provenEvent_alone]
      rwa [hstate, runningOn_setLine_proven s h1]
    · rw [exec_pumpRunningFeedbackChange_new hpower hplant h1 h4 h, runningEvent_alone]
      rw [hstate, provenOn_setLine_running s h1]
      have hheld : p.holder ≠ none → ¬available (setLine s (n - 1) x) n = true := fun hheld havailable =>
        hheld ((available_iff h1 hp').1 havailable).2.1
      exact halone.imp_right fun ⟨hx, hrest⟩ => ⟨hx, hrest.imp_right fun h => h.imp_right fun ⟨hstopped, hholder⟩ => ⟨hstopped, hheld hholder⟩⟩
  exact halone.trans (congrArg Host.Outcome.next (settleArbiter_none _ howed))

/-- The event at which a PRIMING pump shows both feedbacks comes to the test of the pump (R94). -/
theorem exec_checkProven {c : Instr} {i : Nat} (h : lineOn s.plant i = false)
    (hc : (c = .pressureProvenChange n true ∧ i = n + 3 ∧ runningOn s.plant n = true)
      ∨ (c = .pumpRunningFeedbackChange n true ∧ i = n - 1 ∧ provenOn s.plant n = true)) :
    exec c s = .next (settleArbiter (checkProven (setLine s i true) n))
      ∧ runningOn (setLine s i true).plant n = true ∧ provenOn (setLine s i true).plant n = true := by
  have hlength : ∀ i, i < 66 → lineOn (setLine s i true).plant i = true := fun i hi => lineOn_setLine_self (by rwa [hplant.1]) true
  rcases hc with ⟨rfl, rfl, hshown⟩ | ⟨rfl, rfl, hshown⟩
  · exact ⟨exec_pressureProvenChange_new hpower hplant h1 h4 h, (runningOn_setLine_proven s h1 true).trans hshown, hlength _ (by omega)⟩
  · exact ⟨exec_pumpRunningFeedbackChange_new hpower hplant h1 h4 h, hlength _ (by omega), (provenOn_setLine_running s h1 true).trans hshown⟩

end Pump

end Sys2Proof.Machine
end

section
/-! PROOFS. The settlement of the feedbacks' statement: what a feedback, a failed attempt and a release come to (R87, R89 to R91, R94 to R97, R99, R116, R120, R125; log 14). -/

namespace Sys2Proof.Machine

/-- The plant with a line at its new level and a pump with its new record. -/
def withLineAndPump (s : State) (i : Nat) (x : Bool) (n : Nat) (p : Pump) : State :=
  { s with plant := { s.plant with
    lines := modAt s.plant.lines i fun _ => { pin := x, raw := x, debounced := x, hold := none }
    pumps := modAt s.plant.pumps (n - 1) fun _ => p } }

theorem modPumpS_setLine {s : State} {i : Nat} {x : Bool} {n : Nat} {p : Pump} (h1 : 1 ≤ n) (hp : s.plant.pumps[n - 1]? = some p) (f : Pump → Pump) :
    modPumpS (setLine s i x) n f = withLineAndPump s i x n (f p) :=
  modPumpS_of (s := setLine s i x) h1 hp f

theorem withLineAndPump_self {s : State} {i : Nat} {x : Bool} {n : Nat} {p q : Pump} (hq : s.plant.pumps[n - 1]? = some q) :
    (withLineAndPump s i x n p).plant.pumps[n - 1]? = some p := by
  refine (modAt_getElem?_self s.plant.pumps (n - 1) _).trans ?_
  rw [hq, Option.map_some]

theorem withLineAndPump_other {s : State} {i : Nat} {x : Bool} {n : Nat} {p : Pump} (h1 : 1 ≤ n) {m : Nat} (hm : m ≠ n) :
    pumpState (withLineAndPump s i x n p) m = pumpState s m :=
  pumpState_other hm fun j hj => modAt_getElem?_other _ _ (by omega)

/-- The state with an attempt that has started (R94). -/
def attemptStarted (s : State) (a : Attempt) : State :=
  setPlant s (modAttempt s.plant a.order fun x => { x with phase := .running, prove := none })

section Proven

variable {s : State} {n i : Nat} {p : Pump} {a : Attempt} (h1 : 1 ≤ n) (hp : s.plant.pumps[n - 1]? = some p) (hstate : p.state = .priming)
  (hrunning : runningOn (setLine s i true).plant n = true) (hproven : provenOn (setLine s i true).plant n = true)
  (ha : (s.plant.attempts.find? fun b => b.pumps.contains n) = some a) (hphase : a.phase = .priming)
include h1 hp hstate hrunning hproven ha hphase

/-- A proven pump runs, and its attempt starts when it is the last (R94). -/
theorem checkProven_setLine :
    let u := withLineAndPump s i true n { p with state := .running, failures := 0 }
    ((∃ m ∈ a.pumps, m ≠ n ∧ pumpState s m ≠ .running) → checkProven (setLine s i true) n = u)
      ∧ ((∀ m ∈ a.pumps, m ≠ n → pumpState s m = .running) → checkProven (setLine s i true) n
        = orderStarted (attemptStarted u a) a.order) := by
  intro u
  have hcheck := checkProven_proven (s := setLine s i true) ((pumpState_of h1 (s := setLine s i true) hp).trans hstate) hrunning hproven ha hphase
  dsimp only at hcheck
  rw [modPumpS_setLine h1 hp] at hcheck
  have hall := allRunning_iff (s := s) (u := u) (a := a) (pumpState_of h1 (withLineAndPump_self hp)) fun m hm => withLineAndPump_other h1 hm
  refine ⟨fun ⟨m, hm, hne, hnot⟩ => hcheck.trans (if_neg fun h => hnot (hall.1 h m hm hne)), fun h => hcheck.trans (if_pos (hall.2 h))⟩

/-- The attempt starts with its last pump, and its order becomes ACTIVE (R94, R120). -/
theorem checkProven_starts (hall : ∀ m ∈ a.pumps, m ≠ n → pumpState s m = .running) (hattempt : attemptOf s.plant a.order = some a)
    {o : Order} (ho : orderById s a.order = some o) (hstarting : o.state = .starting) (hgoes : stopCondition s o = none) :
    (checkProven (setLine s i true) n).orders.runOwed = s.orders.runOwed
      ∧ (checkProven (setLine s i true) n).plant.pumps = modAt s.plant.pumps (n - 1) (fun _ => { p with state := .running, failures := 0 })
      ∧ attemptOf (checkProven (setLine s i true) n).plant a.order = some { a with phase := .running, prove := none }
      ∧ orderById (checkProven (setLine s i true) n) o.id = some { o with
          state := .active
          started := some s.clocks.uptime
          stall := some { expiry := s.clocks.uptime + s.settings.sw.toNat, baseline := levelOf s o.tank } } := by
  have hstarted := (checkProven_setLine h1 hp hstate hrunning hproven ha hphase).2 hall
  obtain ⟨howed, hplant, ho'⟩ := orderStarted_spec
    (s := attemptStarted (withLineAndPump s i true n { p with state := .running, failures := 0 }) a) ho hstarting hgoes
  rw [hstarted, howed, hplant]
  exact ⟨rfl, rfl, attemptOf_modAttempt hattempt fun _ => rfl, ho'⟩

end Proven

section Rested

variable {s : State} (hpower : s.powered = true) (hplant : PlantOk s.plant) {n : Nat} (h1 : 1 ≤ n) (h4 : n ≤ 4) {p : Pump}
  (hp : s.plant.pumps[n - 1]? = some p) (hrunning : runningOn s.plant n = true)
include hpower hplant h1 h4 hp hrunning

theorem feedbackLost_stopped (hstate : p.state = .stopped) (hholder : p.holder = none) :
    exec (.pumpRunningFeedbackChange n false) s = .next (settleArbiter (pumpNotice (setLine s (n - 1) false))) := by
  have hlost : runningOn (setLine s (n - 1) false).plant n = false := lineOn_setLine_self (by rw [hplant.1]; omega) false
  rw [exec_pumpRunningFeedbackChange_new hpower hplant h1 h4 (x := false) hrunning,
    runningEvent_stopped (s := setLine s (n - 1) false) h1 hp hstate hholder hlost]

/-- A trip or the end of a stop leaves the pump at rest, and a trip ends the attempt (R97, R99). -/
theorem feedbackLost_rests (hstate : p.state = .running ∨ p.state = .stopping) :
    ∃ u p', exec (.pumpRunningFeedbackChange n false) s = .next (settleArbiter u) ∧ u.plant.pumps[n - 1]? = some p'
      ∧ p'.state = (if p.failures = 3 then .withdrawn else .stopped) ∧ p'.startLine = false ∧ p'.failures = p.failures
      ∧ p'.stopTimer = none
      ∧ ∀ id a, p.state = .running → p.holder = some id → attemptOf s.plant id = some a → a.phase = .running →
          ∀ b ∈ u.plant.attempts, b.order = id → b.phase = .takingDown := by
  obtain ⟨p', hp', hrest, hline, hfailures, htimer⟩ := runningEvent_rests (s := setLine s (n - 1) false) h1 hp hstate
  refine ⟨_, p', exec_pumpRunningFeedbackChange_new hpower hplant h1 h4 (x := false) hrunning, hp', hrest, hline, hfailures, htimer, fun id a hrun hid ha hphase => ?_⟩
  obtain ⟨b, hb, hkept⟩ := attemptOf_stopPump (s := setLine s (n - 1) false) h1 hp ha
  rw [runningEvent_running (s := setLine s (n - 1) false) h1 hp hrun, tripPump_held (s := setLine s (n - 1) false) h1 hp hid]
  exact failAttempt_takingDown hb .trip (by rw [hkept, hphase]; nofun)

variable {a : Attempt} (hfailures : p.failures ≠ 3) (hholder : p.holder = some a.order) (ha : attemptOf s.plant a.order = some a)
include hfailures hholder

/-- A trip is the stop of the pump and the failure of its attempt (R97). -/
theorem feedbackLost_trip (hstate : p.state = .running) : exec (.pumpRunningFeedbackChange n false) s
    = .next (settleArbiter (failAttempt (withLineAndPump s (n - 1) false n { p with state := .stopped, startLine := false, stopTimer := none })
        a.order .trip)) := by
  rw [exec_pumpRunningFeedbackChange_new hpower hplant h1 h4 (x := false) hrunning, runningEvent_running (s := setLine s (n - 1) false) h1 hp hstate,
    tripPump_held (s := setLine s (n - 1) false) h1 hp hholder, stopPump_stops (s := setLine s (n - 1) false) h1 hp hfailures,
    modPumpS_setLine h1 hp]

include ha

/-- A pump that has stopped lets its attempt go when it is the last (R99). -/
theorem feedbackLost_stopping (hstate : p.state = .stopping) :
    let u := withLineAndPump s (n - 1) false n { p with state := .stopped, startLine := false, stopTimer := none }
    let atRest := a.phase = .takingDown ∧ ∀ m ∈ a.pumps, m ≠ n → pumpState s m = .stopped ∨ pumpState s m = .withdrawn
    (atRest → exec (.pumpRunningFeedbackChange n false) s = .next (settleArbiter (releaseAttempt u a)))
      ∧ (¬atRest → exec (.pumpRunningFeedbackChange n false) s = .next (settleArbiter u)) := by
  intro u atRest
  have hexec : exec (.pumpRunningFeedbackChange n false) s = .next (settleArbiter (checkRelease u a.order)) := by
    rw [exec_pumpRunningFeedbackChange_new hpower hplant h1 h4 (x := false) hrunning, runningEvent_stopping (s := setLine s (n - 1) false) h1 hp hstate,
      stoppedPump_held (s := setLine s (n - 1) false) h1 hp hholder, stopPump_stops (s := setLine s (n - 1) false) h1 hp hfailures,
      modPumpS_setLine h1 hp]
  have hcheck := checkRelease_of_other (s := s) (u := u) ha (.inl (pumpState_of h1 (withLineAndPump_self hp)))
    fun m hm => withLineAndPump_other h1 hm
  exact ⟨fun h => hexec.trans (congrArg _ (congrArg settleArbiter (hcheck.1 h))), fun h => hexec.trans (congrArg _ (congrArg settleArbiter (hcheck.2 h)))⟩

end Rested

/-- What a failed attempt comes to, once its order has been told (R95 to R97, R125). -/
theorem failAttempt_ends {s : State} {a : Attempt} (ha : attemptOf s.plant a.order = some a) (c : FailCause) {told : State}
    (htold : failureTold s a.order c = told) :
    (a.phase = .liningUp → failAttempt s a.order c = releaseAttempt told { a with cause := some c })
      ∧ (a.phase = .priming ∨ a.phase = .running → failAttempt s a.order c = takeDown told { a with cause := some c }) := by
  subst htold
  exact ⟨fun h => failAttempt_liningUp ha c h, fun h => failAttempt_started ha c h⟩

/-- What a release makes of a valve (R87, R89). -/
theorem releasedPlant_valve {s : State} {a : Attempt} (hnodup : a.valves.Nodup) {v : Nat} {w : Valve} (hw : s.plant.valves[v]? = some w) :
    (v ∉ a.valves → (releasedPlant (strokeExpiry s) s.plant a).valves[v]? = some w)
      ∧ (v ∈ a.valves → 1 < w.users ∨ w.state = .closed ∨ w.state = .closing →
        (releasedPlant (strokeExpiry s) s.plant a).valves[v]? = some { w with users := w.users - 1 })
      ∧ (v ∈ a.valves → w.users ≤ 1 → w.state ≠ .closed → w.state ≠ .closing → (releasedPlant (strokeExpiry s) s.plant a).valves[v]? = some { w with
          users := 0
          commandedOpen := false
          state := if lineOn s.plant (limitLine v .closedLimit) then .closed else .closing
          stroke := if lineOn s.plant (limitLine v .closedLimit) then none else some (s.clocks.uptime + s.settings.vt.toNat) }) := by
  rw [releasedPlant_valves _ _ _ hnodup, hw, Option.map_some]
  refine ⟨fun hv => congrArg some (if_neg hv), fun hv hkept => ?_, fun hv husers hclosed hclosing => ?_⟩
  · rw [if_pos hv, letGo_kept _ _ hkept]
  · rw [if_pos hv, letGo_closes _ _ husers hclosed hclosing]
    rfl

/-- Settles O39. -/
theorem pumpsFollowTheirFeedbacks : Obligations.PumpsFollowTheirFeedbacks := by
  refine ⟨fun c n i x s p hpower h1 h4 hplant hp howed hline hc => feedback_recorded hpower hplant h1 h4 hp howed hline hc,
    fun c n i s p a hpower h1 h4 hplant hp hstate howed hline hc ha hphase hrange => ?_,
    fun n s p hpower h1 h4 hplant hp hrunning => ⟨feedbackLost_stopped hpower hplant h1 h4 hp hrunning,
      feedbackLost_rests hpower hplant h1 h4 hp hrunning⟩,
    fun n s p a hpower h1 h4 hplant hp hrunning hstate hfailures hholder ha =>
      feedbackLost_stopping hpower hplant h1 h4 hp hrunning hfailures hholder ha hstate,
    fun n s p a hpower h1 h4 hplant hp hrunning hstate hfailures hholder ha =>
      feedbackLost_trip hpower hplant h1 h4 hp hrunning hfailures hholder hstate,
    fun s a c r horders ha hcause => ⟨failAttempt_again ha c, fun o ho hid hrunning => ?_, fun hnone => ?_⟩,
    fun s a hplant hrange hnodup => ?_⟩
  · obtain ⟨hexec, hrunning, hproven⟩ := exec_checkProven hpower hplant h1 h4 hline hc
    refine ⟨fun hother => ?_, fun hall hattempt o ho hstarting hgoes => ?_⟩
    · rw [hexec, (checkProven_setLine h1 hp hstate hrunning hproven ha hphase).1 hother]
      exact congrArg Host.Outcome.next (settleArbiter_none _ howed)
    · obtain ⟨howed', hpumps, hattempt', ho'⟩ := checkProven_starts h1 hp hstate hrunning hproven ha hphase hall hattempt ho hstarting hgoes
      exact ⟨_, hexec.trans (congrArg Host.Outcome.next (settleArbiter_none _ (howed'.trans howed))), hpumps, hattempt', ho'⟩
  · have hreason : failReason c = r := by
      rcases hcause with ⟨rfl, rfl⟩ | ⟨rfl, rfl⟩ | ⟨rfl, rfl⟩ <;> rfl
    have htold := failureTold_running horders ho hid (runningState_iff.2 hrunning) c
    rw [hreason] at htold
    exact failAttempt_ends ha c htold
  · refine failAttempt_ends ha c (failureTold_ignored (fun o ho hrunning => ?_) c)
    obtain ⟨hmem, hid⟩ := mem_of_orderById ho
    obtain ⟨hlineup, hstarting, hactive⟩ := hnone o hmem hid
    rcases runningState_iff.1 hrunning with h | h | h
    · exact hlineup h
    · exact hstarting h
    · exact hactive h
  · refine ⟨releasedPlant (strokeExpiry s) s.plant a, releasedPlant_rest _ _ a, fun i x hx => ?_, fun v w hw => releasedPlant_valve hnodup hw,
      releasedPlant_main _ _ a, fun m hm => releasedPlant_otherMain _ _ a hm, (releaseAttempt_notice hplant hrange).1,
      (releaseAttempt_notice hplant hrange).2⟩
    rw [releasedPlant_pumps, hx, Option.map_some]

end Sys2Proof.Machine
end

section
/-! PROOFS. Pump timers end starts and stops: the prove timer, the stop timer and the take-down (R94, R95, R98, R99, R125; log 2, 14, 45). -/

namespace Sys2Proof.Machine

/-! ### Conditions that stay raised -/

theorem isPending_raiseIn_of {a : Attention} {n : Nat} (h : isPending a n = true) (m : Nat) (d : Option Nat) : isPending (raiseIn a m d) n = true := by
  by_cases hm : m = n
  · subst hm
    cases hc : a.conditions[m]? with
    | none =>
      rw [isPending, hc] at h
      cases h
    | some c => exact isPending_raiseIn hc d
  · have howe : ∀ b : Attention, isPending (owe b m) n = isPending b n := fun b => by
      unfold owe
      split <;> rfl
    unfold raiseIn
    split
    · exact h
    · split
      · rwa [isPending_modCond_other _ _ hm]
      · rwa [howe, isPending_modCond_other _ _ hm]

/-- The released report may raise a condition, and clears none (R126). -/
theorem orderReleased_isPending {s : State} {n : Nat} (h : isPending s.attention n = true) (id : Nat) (w : List Nat) :
    isPending (orderReleased s id w).attention n = true := by
  have hmoved : ∀ f, isPending (moveOrder s id f).attention n = true := fun f => by
    have hattention : (moveOrder s id f).attention = s.attention := (recheck_path _).changesOnly .attention (by decide)
    rwa [hattention]
  have hcounted : ∀ o : Order, isPending
      (if o.attempts + 1 ≤ o.retries then queueOrder s id countedAttempt else failOrder s id countedAttempt).attention n = true := fun o => by
    split
    · exact hmoved _
    · exact isPending_raiseIn_of (hmoved _) _ _
  unfold orderReleased
  split
  · exact h
  · dsimp only
    split
    · exact h
    · split
      · exact isPending_raiseIn_of (hmoved _) _ _
      · exact isPending_raiseIn_of (hmoved _) _ _
      · exact hmoved _
      · split
        · split
          · exact hmoved _
          · exact hmoved _
        · exact hmoved _
      · split
        · exact hmoved _
        · exact hmoved _
      · exact isPending_raiseIn_of (hmoved _) _ _
      · exact hcounted _
      · exact hcounted _
      · exact hcounted _
      · exact hcounted _
      · exact h
      · exact h

theorem checkRelease_isPending {s : State} {n : Nat} (h : isPending s.attention n = true) (id : Nat) :
    isPending (checkRelease s id).attention n = true := by
  unfold checkRelease
  split
  · next a _ =>
    split
    · have hreport := orderReleased_isPending (s := setPlant s (releasedPlant (strokeExpiry s) s.plant a)) h a.order a.withdrawn
      rw [releaseAttempt_eq]
      split
      · exact hreport
      · exact hreport
    · exact h
  · exact h

/-! ### The prove timer (R95) -/

/-- A pump still PRIMING at the prove timer has one failure more (R95). -/
def Pump.counted (x : Pump) : Pump := if x.state = .priming then { x with failures := x.failures + 1 } else x

theorem countFailure_pumps (s : State) (n i : Nat) :
    (countFailure s n).plant.pumps[i]? = (s.plant.pumps[i]?).map fun x => if i + 1 = n then x.counted else x := by
  have hself : ∀ {x}, s.plant.pumps[i]? = some x → i + 1 = n → pumpState s n = x.state := fun hx hi =>
    pumpState_of (by omega) (by rwa [show n - 1 = i by omega])
  by_cases h : pumpState s n = .priming
  · rw [countFailure, if_pos h]
    refine (modPump_getElem? s.plant n i _).trans (Option.map_congr fun x hx => ?_)
    by_cases hi : i + 1 = n
    · rw [hself hx hi] at h
      rw [if_pos hi, if_pos hi, Pump.counted, if_pos h]
    · rw [if_neg hi, if_neg hi]
  · rw [countFailure, if_neg h]
    refine Option.map_id'.symm.trans (Option.map_congr fun x hx => ?_)
    by_cases hi : i + 1 = n
    · rw [hself hx hi] at h
      rw [if_pos hi, Pump.counted, if_neg h]
    · rw [if_neg hi]

theorem countFailure_eq (s : State) (n : Nat) :
    countFailure s n = { s with plant := { s.plant with pumps := (countFailure s n).plant.pumps } } := by
  have hmod := foldl_modPump_eq [n] (fun x => { x with failures := x.failures + 1 }) s.plant
  unfold countFailure
  split
  · exact congrArg (setPlant s) hmod
  · rfl

theorem foldl_countFailure_eq (ns : List Nat) (s : State) :
    ns.foldl countFailure s = { s with plant := { s.plant with pumps := (ns.foldl countFailure s).plant.pumps } } := by
  induction ns generalizing s with
  | nil => rfl
  | cons n ns ih =>
    rw [List.foldl_cons, ih, countFailure_eq]

theorem foldl_countFailure_pumps {ns : List Nat} (hnodup : ns.Nodup) (s : State) (i : Nat) :
    (ns.foldl countFailure s).plant.pumps[i]? = (s.plant.pumps[i]?).map fun x => if i + 1 ∈ ns then x.counted else x := by
  induction ns generalizing s with
  | nil => simp
  | cons n ns ih =>
    obtain ⟨hn, hns⟩ := List.nodup_cons.1 hnodup
    rw [List.foldl_cons, ih hns, countFailure_pumps, Option.map_map]
    refine Option.map_congr fun x _ => ?_
    by_cases hi : i + 1 = n
    · subst hi
      simp [hn]
    · simp [hi]

section Proving

variable {s : State} {id : Nat} {a : Attempt} (ha : attemptOf s.plant id = some a)
include ha

theorem proveExpired_notDue (h : due a.prove s.clocks.uptime = false) : proveExpired id s = s := by
  rw [proveExpired, ha]
  exact if_neg (by rw [now, h]; exact Bool.false_ne_true)

theorem proveExpired_due (h : due a.prove s.clocks.uptime = true) :
    proveExpired id s = settleArbiter (failAttempt (a.pumps.foldl countFailure s) id .startFail) := by
  rw [proveExpired, ha]
  exact if_pos h

end Proving

theorem failureTold_same (s : State) (id : Nat) (c : FailCause) : (failureTold s id c).plant = modAttempt s.plant id (fun x => { x with cause := some c })
    ∧ (failureTold s id c).clocks = s.clocks ∧ (failureTold s id c).settings = s.settings := by
  have hpath := orderFailedReport_path (setPlant s (modAttempt s.plant id fun x => { x with cause := some c })) id c
  exact ⟨orderFailedReport_plant _ _ _, hpath.clocks, hpath.settings⟩

/-- A pump of an attempt that is taken down, up to its holder (R98). -/
theorem pumpIs_takeDown_own {s : State} {a : Attempt} (hnodup : a.pumps.Nodup) {n : Nat} (h1 : 1 ≤ n) (hn : n ∈ a.pumps) {x : Pump}
    (hx : s.plant.pumps[n - 1]? = some x) {P : Pump → Prop} (hholder : ∀ x, P x → P { x with holder := none })
    (h : P (x.takenDown (runningOn s.plant n) (expiryAfter s s.settings.ps))) : PumpIs n P (takeDown s a).plant := by
  have hpumps := foldl_takeDownPump_pumps hnodup (setPlant s (modAttempt s.plant a.order fun x => { x with phase := .takingDown, prove := none })) (n - 1)
  have hx' : (modAttempt s.plant a.order fun x => { x with phase := .takingDown, prove := none }).pumps[n - 1]? = some x := hx
  rw [setPlant_plant, hx', Nat.sub_add_cancel h1, Option.map_some, if_pos hn] at hpumps
  exact pumpIs_checkRelease hholder ⟨_, hpumps, h⟩ a.order

/-- A pump of a start that has failed: stopped, and one failure more if it was still PRIMING (R95, R98, R99). -/
def StartFailed (s : State) (n : Nat) (p x : Pump) : Prop :=
  x.startLine = false ∧ x.failures = (if p.state = .priming then p.failures + 1 else p.failures)
    ∧ x.state = (if runningOn s.plant n then .stopping else if x.failures = 3 then .withdrawn else .stopped)
    ∧ (x.state = .stopping → x.stopTimer = some (s.clocks.uptime + s.settings.ps.toNat))

theorem startFailed_takenDown (s : State) (n : Nat) {p : Pump} (h : p.state = .priming ∨ p.state = .running) :
    StartFailed s n p (p.counted.takenDown (runningOn s.plant n) (expiryAfter s s.settings.ps)) := by
  have hcounted : p.counted.state = p.state ∧ p.counted.failures = if p.state = .priming then p.failures + 1 else p.failures := by
    unfold Pump.counted
    split <;> exact ⟨rfl, rfl⟩
  obtain ⟨hstate, hfailures⟩ := hcounted
  have hrest : ∀ {c : Prop} [Decidable c], (if c then PumpState.withdrawn else .stopped) ≠ .stopping := fun {c} _ => by
    split <;> nofun
  unfold Pump.takenDown
  rw [hstate, if_pos h]
  cases hrunning : runningOn s.plant n with
  | true => exact ⟨rfl, hfailures, by rw [hrunning]; rfl, fun _ => rfl⟩
  | false => exact ⟨rfl, hfailures, by rw [hrunning]; rfl, fun hstopping => absurd hstopping hrest⟩

/-- At the prove timer an attempt in PRIMING is taken down (R95, R98). -/
theorem startFail_spec {s : State} {id : Nat} {a : Attempt} (ha : attemptOf s.plant id = some a) (hphase : a.phase = .priming) (hnodup : a.pumps.Nodup) :
    let u := failAttempt (a.pumps.foldl countFailure s) id .startFail
    (∀ b ∈ u.plant.attempts, b.order = id → b.phase = .takingDown)
      ∧ ∀ n ∈ a.pumps, 1 ≤ n → ∀ p, s.plant.pumps[n - 1]? = some p → p.state = .priming ∨ p.state = .running →
          PumpIs n (StartFailed s n p) u.plant := by
  intro u
  have ha' : attemptOf (a.pumps.foldl countFailure s).plant id = some a := by
    rw [foldl_countFailure_eq]
    exact ha
  refine ⟨failAttempt_takingDown ha' .startFail (by rw [hphase]; nofun), fun n hn h1 p hp hstate => ?_⟩
  obtain ⟨hplant, hclocks, hsettings⟩ := failureTold_same (a.pumps.foldl countFailure s) id .startFail
  have hcounted := foldl_countFailure_pumps hnodup s (n - 1)
  rw [hp, Nat.sub_add_cancel h1, Option.map_some, if_pos hn] at hcounted
  have htaken := startFailed_takenDown s n hstate
  have hfail : u = takeDown (failureTold (a.pumps.foldl countFailure s) id .startFail) a := failAttempt_started ha' .startFail (.inl hphase)
  rw [hfail]
  refine pumpIs_takeDown_own hnodup h1 hn (x := p.counted) ?_ (fun _ h => h) ?_
  · rw [hplant]
    exact hcounted
  · have hlines : (failureTold (a.pumps.foldl countFailure s) id .startFail).plant.lines = s.plant.lines := by
      rw [hplant, foldl_countFailure_eq]
      rfl
    rw [runningOn_congr hlines, expiryAfter, now, hclocks, hsettings, foldl_countFailure_eq]
    exact htaken

/-! ### The stop timer (R99) -/

section Stopping

variable {s : State} {n : Nat} {p : Pump} (h1 : 1 ≤ n) (hp : s.plant.pumps[n - 1]? = some p)
include h1 hp

theorem stopExpired_notDue (h : due p.stopTimer s.clocks.uptime = false) : stopExpired n s = s := by
  rw [stopExpired, pumpRec_of h1 hp]
  exact if_neg (by rw [now, h, Bool.and_false]; exact Bool.false_ne_true)

variable (hstate : p.state = .stopping) (h : due p.stopTimer s.clocks.uptime = true)
include hstate h

theorem stopExpired_free (hholder : p.holder = none) : stopExpired n s = settleArbiter (withdrawPump s n) := by
  rw [stopExpired, pumpRec_of h1 hp]
  refine (if_pos (by rw [now, h, hstate]; rfl)).trans ?_
  simp only [hholder]

theorem stopExpired_held {id : Nat} (hholder : p.holder = some id) : stopExpired n s = settleArbiter (checkRelease (withdrawPump s n) id) := by
  rw [stopExpired, pumpRec_of h1 hp]
  refine (if_pos (by rw [now, h, hstate]; rfl)).trans ?_
  simp only [hholder]

end Stopping

/-- A pump that failed to stop (R99). -/
def WithdrawnAs (p x : Pump) : Prop := x.state = .withdrawn ∧ x.startLine = false ∧ x.stopTimer = none ∧ x.failures = p.failures

theorem withdrawPump_self {s : State} {n : Nat} {p : Pump} (h1 : 1 ≤ n) (hp : s.plant.pumps[n - 1]? = some p) :
    PumpIs n (WithdrawnAs p) (withdrawPump s n).plant := by
  rw [withdrawPump_eq]
  exact ⟨_, modPumpS_self h1 hp _, rfl, rfl, rfl, rfl⟩

theorem withdrawPump_isPending {s : State} (h : AttentionOk s.attention) (n : Nat) : isPending (withdrawPump s n).attention 4 = true := by
  obtain ⟨c, hc⟩ : ∃ c, s.attention.conditions[4]? = some c := ⟨_, List.getElem?_eq_getElem (by rw [h.1]; decide)⟩
  rw [withdrawPump_eq]
  exact isPending_raiseIn (a := s.attention) hc _

/-- The state after a pump is withdrawn, with its new record (R99). -/
theorem withdrawPump_of {s : State} {n : Nat} {p : Pump} (h1 : 1 ≤ n) (hp : s.plant.pumps[n - 1]? = some p) : withdrawPump s n = { s with
    plant := { s.plant with
      pumps := modAt s.plant.pumps (n - 1) fun _ => { p with state := .withdrawn, startLine := false, stopTimer := none }
      attempts := s.plant.attempts.map fun b => if n ∈ b.pumps then { b with withdrawn := b.withdrawn ++ [n] } else b }
    attention := raiseIn s.attention 4 (some n) } := by
  have hlisting : (fun b : Attempt => if n ∈ b.pumps then { b with withdrawn := b.withdrawn ++ [n] } else b) = Attempt.listing n := by
    funext b
    simp [Attempt.listing]
  rw [withdrawPump_eq, modPump_of h1 hp, hlisting]
  rfl

end Sys2Proof.Machine
end

section
/-! PROOFS. The settlement of the timers' statement: prove timers, stop timers and the take-down of an attempt (R95, R98, R99; log 2, 14, 45). -/

namespace Sys2Proof.Machine

/-! ### The take-down (R98) -/

/-- The state with the pumps of an attempt taken down, before the attempt is released (R98). -/
def pumpsTakenDown (s : State) (a : Attempt) : State :=
  a.pumps.foldl takeDownPump (setPlant s (modAttempt s.plant a.order fun x => { x with phase := .takingDown, prove := none }))

theorem takeDown_eq (s : State) (a : Attempt) : takeDown s a = checkRelease (pumpsTakenDown s a) a.order := rfl

theorem pumpsTakenDown_changesOnly (s : State) (a : Attempt) : ChangesOnly [.plant, .attention] s (pumpsTakenDown s a) :=
  (((setAttempts_path s _ _).mono (by decide)).trans (foldl_path takeDownPump_path a.pumps _)).changesOnly

section TakenDown

variable (s : State) {a : Attempt} (hnodup : a.pumps.Nodup)
include hnodup

theorem pumpsTakenDown_attention : (pumpsTakenDown s a).attention
    = (a.pumps.filter (goesOut s)).foldl (fun x n => raiseIn x 4 (some n)) s.attention :=
  (foldl_takeDownPump_notes hnodup _).1

theorem pumpsTakenDown_plant : (pumpsTakenDown s a).plant
    = { s.plant with pumps := (pumpsTakenDown s a).plant.pumps, attempts := (pumpsTakenDown s a).plant.attempts } := by
  have hnotes := (foldl_takeDownPump_notes hnodup (setPlant s (modAttempt s.plant a.order fun x => { x with phase := .takingDown, prove := none }))).2
  have hattempts := congrArg Plant.attempts hnotes
  refine hnotes.trans ?_
  rw [pumpsTakenDown, hattempts]
  rfl

/-- The attempt is in TAKING_DOWN without a prove timer, and lists the pumps withdrawn (R98, R99). -/
theorem pumpsTakenDown_attempt (ha : attemptOf s.plant a.order = some a) : attemptOf (pumpsTakenDown s a).plant a.order
    = some { a with phase := .takingDown, prove := none, withdrawn := a.withdrawn ++ a.pumps.filter (goesOut s) } := by
  have hphase := attemptOf_modAttempt ha (f := fun x => { x with phase := .takingDown, prove := none }) fun _ => rfl
  have hattempts := congrArg Plant.attempts
    (foldl_takeDownPump_notes hnodup (setPlant s (modAttempt s.plant a.order fun x => { x with phase := .takingDown, prove := none }))).2
  have hlisted : ∀ b : Attempt, (a.pumps.filter (goesOut s)).foldl (fun b n => b.listing n) b
      = { b with withdrawn := b.withdrawn ++ (a.pumps.filter (goesOut s)).filter fun n => b.pumps.contains n } := foldl_listing _
  have hsame : ((fun b : Attempt => decide (b.order = a.order)) ∘ fun b => (a.pumps.filter (goesOut s)).foldl (fun b n => b.listing n) b)
      = fun b => decide (b.order = a.order) := funext fun b => by rw [Function.comp_apply, hlisted]
  have hown : ((a.pumps.filter (goesOut s)).filter fun n => a.pumps.contains n) = a.pumps.filter (goesOut s) :=
    List.filter_eq_self.2 fun n hn => by simpa using List.mem_of_mem_filter hn
  rw [attemptOf] at hphase
  rw [attemptOf]
  refine (congrArg (List.find? _) hattempts).trans ?_
  dsimp only
  refine (List.find?_map).trans ?_
  refine (congrArg (fun p => Option.map _ (List.find? p _)) hsame).trans ?_
  refine (congrArg (Option.map _) hphase).trans ?_
  refine (congrArg some (hlisted _)).trans ?_
  simp only [hown]

/-- What a take-down makes of a pump (R98, R99). -/
theorem pumpsTakenDown_pump {i : Nat} {p : Pump} (hp : s.plant.pumps[i]? = some p) : (pumpsTakenDown s a).plant.pumps[i]?
    = some (if i + 1 ∈ a.pumps then p.takenDown (runningOn s.plant (i + 1)) (expiryAfter s s.settings.ps) else p) := by
  have hpumps := foldl_takeDownPump_pumps hnodup (setPlant s (modAttempt s.plant a.order fun x => { x with phase := .takingDown, prove := none })) i
  refine hpumps.trans ?_
  have hp' : (modAttempt s.plant a.order fun x => { x with phase := .takingDown, prove := none }).pumps[i]? = some p := hp
  rw [setPlant_plant, hp', Option.map_some]
  rfl

end TakenDown

/-- Settles O40. -/
theorem pumpTimersEndStartsAndStops : Obligations.PumpTimersEndStartsAndStops := by
  refine ⟨fun id e s a hpower hplant ha hprove => ?_, fun n e s p hpower h1 hplant hp htimer => ?_, fun s a hplant ha hnodup hrange => ?_⟩
  · have hexec : exec (.proveTimerExpiry id) s = .next (proveExpired id s) := event_powered hpower _
    refine ⟨fun hearly => ?_, fun hdue hnodup => ?_, fun hdue hphase hnodup => ?_⟩
    · rw [hexec, proveExpired_notDue ha (by rw [hprove]; exact due_some_false.2 hearly)]
    · refine ⟨(a.pumps.foldl countFailure s).plant.pumps, ?_, ?_, fun i p hp => ?_⟩
      · rw [hexec, proveExpired_due ha (by rw [hprove]; exact due_some.2 hdue), ← foldl_countFailure_eq]
      · obtain ⟨-, hlength, -⟩ := (foldl_path countFailure_path a.pumps s).plantOk hplant
        obtain ⟨-, hlength', -⟩ := hplant
        exact hlength.trans hlength'.symm
      · rw [foldl_countFailure_pumps hnodup, hp, Option.map_some]
        by_cases hi : i + 1 ∈ a.pumps <;> by_cases hstate : p.state = .priming <;> simp [hi, hstate, Pump.counted]
    · obtain ⟨hattempts, hpumps⟩ := startFail_spec ha hphase hnodup
      refine ⟨_, by rw [hexec, proveExpired_due ha (by rw [hprove]; exact due_some.2 hdue)], hattempts, fun n hn h1 p hp hstate => ?_⟩
      obtain ⟨p', hp', hspec⟩ := hpumps n hn h1 p hp hstate
      exact ⟨p', hp', hspec⟩
  · have hexec : exec (.pumpStopTimerExpiry n) s = .next (stopExpired n s) := event_powered hpower _
    have hholder : ∀ x, WithdrawnAs p x → WithdrawnAs p { x with holder := none } := fun _ h => h
    refine ⟨fun hearly => ?_, fun hdue hstate hattention => ?_, fun a hdue hstate hheld ha hn => ?_⟩
    · rw [hexec, stopExpired_notDue h1 hp (by rw [htimer]; exact due_some_false.2 hearly)]
    · have hdue' : due p.stopTimer s.clocks.uptime = true := by rw [htimer]; exact due_some.2 hdue
      have hpending := withdrawPump_isPending hattention n
      have hself := withdrawPump_self h1 hp
      cases hid : p.holder with
      | none =>
        obtain ⟨p', hp', hwithdrawn, hline, htimer', hfailures⟩ := hself
        exact ⟨_, p', by rw [hexec, stopExpired_free h1 hp hstate hdue' hid], hp', hwithdrawn, hline, htimer', hfailures, hpending⟩
      | some id =>
        obtain ⟨p', hp', hwithdrawn, hline, htimer', hfailures⟩ := pumpIs_checkRelease hholder hself id
        exact ⟨_, p', by rw [hexec, stopExpired_held h1 hp hstate hdue' hid], hp', hwithdrawn, hline, htimer', hfailures,
          checkRelease_isPending hpending id⟩
    · intro u atRest
      have hwithdrawn : withdrawPump s n = u := withdrawPump_of h1 hp
      have hcheck : exec (.pumpStopTimerExpiry n) s = .next (settleArbiter (checkRelease u a.order)) := by
        rw [hexec, stopExpired_held h1 hp hstate (by rw [htimer]; exact due_some.2 hdue) hheld, hwithdrawn]
      have hattempt : attemptOf u.plant a.order = some { a with withdrawn := a.withdrawn ++ [n] } := by
        rw [← hwithdrawn, attemptOf_listing (u := withdrawPump s n) (n := n) (by rw [withdrawPump_eq]; rfl) ha, Attempt.listing, if_pos (by simpa using hn)]
      have hself : pumpState u n = .withdrawn := pumpState_of h1 (p := { p with state := .withdrawn, startLine := false, stopTimer := none })
        ((modAt_getElem?_self s.plant.pumps (n - 1) _).trans (by rw [hp, Option.map_some]))
      have hother : ∀ m, m ≠ n → pumpState u m = pumpState s m := fun m hm => pumpState_other hm fun i hi => modAt_getElem?_other _ _ (by omega)
      obtain ⟨hreleases, hwaits⟩ := checkRelease_of_other (a := { a with withdrawn := a.withdrawn ++ [n] }) hattempt (.inr hself) hother
      exact ⟨fun h => hcheck.trans (congrArg _ (congrArg settleArbiter (hreleases h))),
        fun h => hcheck.trans (congrArg _ (congrArg settleArbiter (hwaits h)))⟩
  · intro stops gone a'
    have ha' : attemptOf (pumpsTakenDown s a).plant a'.order = some a' := pumpsTakenDown_attempt s hnodup ha
    refine ⟨pumpsTakenDown s a, pumpsTakenDown_changesOnly s a, pumpsTakenDown_plant s hnodup, ha', pumpsTakenDown_attention s hnodup,
      fun i p hp => ?_, fun hrest => ?_, fun ⟨n, hn, hstopped, hwithdrawn⟩ => ?_⟩
    · have hstate : pumpState s (i + 1) = p.state := pumpState_of (Nat.le_add_left 1 i) hp
      simp only [stops, hstate, pumpsTakenDown_pump s hnodup hp]
      refine ⟨fun hkept => congrArg some ?_, fun hi hstops hrunning => ?_, fun hi hstops hrunning => ?_⟩
      · split
        · next hi => exact if_neg (hkept.resolve_left (not_not_intro hi))
        · rfl
      · rw [if_pos hi, hrunning, Pump.takenDown, if_pos hstops]
        rfl
      · rw [if_pos hi, hrunning, Pump.takenDown, if_pos hstops]
        rfl
    · exact (takeDown_eq s a).trans (checkRelease_rests ha' ⟨rfl, hrest⟩)
    · exact (takeDown_eq s a).trans (checkRelease_waits (a := a') ha' fun hrest => (hrest.2 n hn).elim hstopped hwithdrawn)

end Sys2Proof.Machine
end

section
/-! PROOFS. A change of a valve's state reaches its attempt or the crossover: a line-up that is complete primes, a valve in FAULT fails the attempt, and XV sets the mode (R88, R94, R96, R104, R116, R120; log 14). -/

namespace Sys2Proof.Machine

/-! ### Attempts told of a valve (R94, R96) -/

section Told

variable {s : State} {v : Nat} (hv : v ≠ xv) {a : Attempt} (honly : (s.plant.attempts.filter fun b => b.valves.contains v) = [a])
include hv honly

theorem valveChanged_opened (h : valveState s.plant v = .opened) : valveChanged s v = checkLinedUp s a.order := by
  simp only [valveChanged, if_neg hv, honly, h]
  rfl

theorem valveChanged_fault (h : valveState s.plant v = .fault) : valveChanged s v = failAttempt s a.order .lineupFail := by
  simp only [valveChanged, if_neg hv, honly, h]
  rfl

end Told

theorem checkLinedUp_primes {s : State} {a : Attempt} (ha : attemptOf s.plant a.order = some a) (hphase : a.phase = .liningUp)
    (hopen : ∀ u ∈ a.valves, valveOpen s.plant u = true) : checkLinedUp s a.order = prime s a := by
  have hlined : linedUp s.plant a = true := List.all_eq_true.2 hopen
  rw [checkLinedUp, ha]
  exact if_pos (by simp [hphase, hlined])

theorem orderPriming_runOwed (s : State) (id : Nat) : (orderPriming s id).orders.runOwed = s.orders.runOwed := by
  unfold orderPriming
  split
  · split
    · exact moveOrder_runOwed _ _ _
    · rfl
  · rfl

theorem primedPlant_attempt (e : Nat) {p : Plant} {a : Attempt} (ha : attemptOf p a.order = some a) :
    attemptOf (primedPlant e p a) a.order = some { a with phase := .priming, prove := some e } := by
  have hpumps := foldl_modPump_eq a.pumps (fun x => { x with state := .priming, startLine := true }) p
  have ha' : attemptOf (a.pumps.foldl (fun p n => modPump p n fun x => { x with state := .priming, startLine := true }) p) a.order = some a := by
    rw [hpumps]
    exact ha
  exact attemptOf_modAttempt ha' fun _ => rfl

/-- A line-up that is complete: the attempt primes, and its order becomes STARTING (R94, R120). -/
theorem checkLinedUp_spec {s : State} {a : Attempt} (ha : attemptOf s.plant a.order = some a) (hphase : a.phase = .liningUp)
    (hopen : ∀ u ∈ a.valves, valveOpen s.plant u = true)
    (hpumps : ∀ n ∈ a.pumps, ¬(runningOn s.plant n = true ∧ provenOn s.plant n = true)) :
    (checkLinedUp s a.order).orders.runOwed = s.orders.runOwed
      ∧ attemptOf (checkLinedUp s a.order).plant a.order
        = some { a with phase := .priming, prove := some (s.clocks.uptime + s.settings.pv.toNat) }
      ∧ (∀ n ∈ a.pumps, 1 ≤ n → ∀ p, s.plant.pumps[n - 1]? = some p →
        (checkLinedUp s a.order).plant.pumps[n - 1]? = some { p with state := .priming, startLine := true })
      ∧ ∀ o, orderById s a.order = some o →
        orderById (checkLinedUp s a.order) a.order = some (if o.state = .lineup then { o with state := .starting } else o) := by
  rw [checkLinedUp_primes ha hphase hopen, prime_unproven hpumps]
  refine ⟨orderPriming_runOwed _ _, ?_, fun n hn h1 p hp => ?_, fun o ho => orderById_orderPriming (s := setPlant s _) ho⟩
  · rw [orderPriming_plant]
    exact primedPlant_attempt _ ha
  · rw [orderPriming_plant]
    exact primedPlant_pump _ h1 hn hp

/-- A running order whose attempt fails in its line-up is stopped for LINEUP_FAIL, or has been released at once (R96, R125, R126). -/
theorem stoppedFor_failAttempt {s : State} {a : Attempt} (ha : attemptOf s.plant a.order = some a) (hphase : a.phase ≠ .takingDown) {o : Order}
    (ho : orderById s a.order = some o) (hrunning : runningState o.state = true) :
    OrderIs a.order (StoppedFor .lineupFail) (failAttempt s a.order .lineupFail) := by
  have hkept := keptByReleases_stoppedFor a.order (r := .lineupFail) (.inr (.inr (.inl rfl)))
  have htold : OrderIs a.order (StoppedFor .lineupFail) (failureTold s a.order .lineupFail) := by
    have hsame : orderById (setPlant s (modAttempt s.plant a.order fun x => { x with cause := some .lineupFail })) a.order = some o := ho
    rw [failureTold, orderFailedReport, hsame]
    dsimp only
    rw [if_pos hrunning]
    exact OrderIs.moved hsame rfl ⟨rfl, rfl, .inl rfl⟩
  cases h : a.phase with
  | liningUp =>
    rw [failAttempt_liningUp ha _ h]
    exact hkept.releaseAttempt a htold
  | priming =>
    rw [failAttempt_started ha _ (.inl h)]
    exact hkept.takeDown a htold
  | running =>
    rw [failAttempt_started ha _ (.inr h)]
    exact hkept.takeDown a htold
  | takingDown => exact absurd h hphase

/-! ### Events that change a valve -/

/-- The event changes a valve's record, on the state with the line that it reports (R85, R88). -/
def ChangesValve (c : Instr) (v : Nat) (s : State) (w w' : Valve) : Prop :=
  (∃ l x, c = .valveLimitChange v l x ∧ lineOn s.plant (limitLine v l) = !x ∧ w' = limitChanged l x w)
    ∨ (c = .strokeTimerExpiry v ∧ (w.state = .opening ∨ w.state = .closing) ∧ due w.stroke s.clocks.uptime = true
        ∧ w' = { w with state := .fault, stroke := none })

/-- The plant with input lines and a valve changed. -/
def withLinesAndValve (s : State) (ls : List InputLine) (v : Nat) (f : Valve → Valve) : State :=
  setPlant s (modValve { s.plant with lines := ls } v f)

theorem withLinesAndValve_state {s : State} {ls : List InputLine} {v : Nat} {w : Valve} (hw : s.plant.valves[v]? = some w) (f : Valve → Valve) :
    valveState (withLinesAndValve s ls v f).plant v = (f w).state :=
  valveState_of (modValve_self (p := { s.plant with lines := ls }) hw f)

/-- Such an event whose valve changes its state announces the change; the lines of the pumps' feedbacks are as they were (R84, R88). -/
theorem exec_changesValve {c : Instr} {v : Nat} {s : State} {w w' : Valve} (hpower : s.powered = true) (hv : v ≤ 28) (hplant : PlantOk s.plant)
    (hw : s.plant.valves[v]? = some w) (hstate : w'.state ≠ w.state) (hc : ChangesValve c v s w w') :
    ∃ ls f, f w = w' ∧ (∀ i, i < 8 → lineOn { s.plant with lines := ls } i = lineOn s.plant i)
      ∧ exec c s = .next (settleArbiter (valveChanged (withLinesAndValve s ls v f) v)) := by
  rcases hc with ⟨l, x, rfl, hline, rfl⟩ | ⟨rfl, hmoving, hdue, rfl⟩
  · refine ⟨(setLine s (limitLine v l) x).plant.lines, limitChanged l x, rfl, fun i hi => ?_, ?_⟩
    · have hother : limitLine v l ≠ i := by cases l <;> simp only [limitLine] <;> omega
      exact lineOn_setLine_other s hother x
    · rw [exec_valveLimitChange_new hpower hv hplant hline, changeValve_changed (s := setLine s (limitLine v l) x) hw hstate]
      rfl
  · refine ⟨s.plant.lines, fun _ => { w with state := .fault, stroke := none }, rfl, fun _ _ => rfl, ?_⟩
    rw [exec_strokeTimerExpiry hpower, strokeExpired_moving hw hmoving hdue, changeValve_changed hw hstate]
    rfl

/-- A limit that changes a valve's state leaves it at a limit or in FAULT (R88). -/
theorem changesValve_arrives {c : Instr} {v : Nat} {s : State} {w w' : Valve} (hc : ChangesValve c v s w w') (hstate : w'.state ≠ w.state) :
    w'.state = .opened ∨ w'.state = .closed ∨ w'.state = .fault := by
  rcases hc with ⟨l, x, -, -, rfl⟩ | ⟨-, -, -, rfl⟩
  · have hmoving : (w.state = .opening ∨ w.state = .closing ∨ w.state = .fault) →
        (limitChanged l x w).state = .opened ∨ (limitChanged l x w).state = .closed ∨ (limitChanged l x w).state = .fault := fun h => by
      rw [limitChanged_moving h] at hstate ⊢
      split at hstate
      · next harrives =>
        rw [if_pos harrives]
        unfold commandedState
        dsimp only
        split
        · exact .inl rfl
        · exact .inr (.inl rfl)
      · exact absurd rfl hstate
    cases h : w.state with
    | opening => exact hmoving (.inl h)
    | closing => exact hmoving (.inr (.inl h))
    | fault => exact hmoving (.inr (.inr h))
    | opened =>
      rw [limitChanged_opened h] at hstate ⊢
      split at hstate
      · next hlost =>
        rw [if_pos hlost]
        exact .inr (.inr rfl)
      · exact absurd rfl hstate
    | closed =>
      rw [limitChanged_closed h] at hstate ⊢
      split at hstate
      · next hlost =>
        rw [if_pos hlost]
        exact .inr (.inr rfl)
      · exact absurd rfl hstate
  · exact .inr (.inr rfl)

/-! ### The crossover's table (R104) -/

/-- What XV at a limit or in FAULT makes of mode, target and the arbiter's run (R104, R116). -/
theorem crossoverChanged_spec {s : State} {x : ValveState} (hx : valveState s.plant xv = x) (harrives : x = .opened ∨ x = .closed ∨ x = .fault) :
    (crossoverChanged s).plant.valves = s.plant.valves
      ∧ (crossoverChanged s).plant.crossMode = (if x = .fault then .fault
          else if s.plant.crossMode = .changing ∨ s.plant.crossMode = .fault then targetMode s.plant.crossTarget else s.plant.crossMode)
      ∧ (x ≠ .fault → s.plant.crossMode = .changing ∨ s.plant.crossMode = .fault → (crossoverChanged s).orders = { s.orders with runOwed := true })
      ∧ (x = .fault ∨ (s.plant.crossMode ≠ .changing ∧ s.plant.crossMode ≠ .fault) → (crossoverChanged s).orders = s.orders)
      ∧ (x = .fault → s.plant.crossMode = .straight ∨ s.plant.crossMode = .crossed → targetMode (crossoverChanged s).plant.crossTarget = s.plant.crossMode)
      ∧ (x ≠ .fault ∨ s.plant.crossMode = .changing ∨ s.plant.crossMode = .fault → (crossoverChanged s).plant.crossTarget = s.plant.crossTarget) := by
  by_cases hfault : x = .fault
  · rw [crossoverChanged_fault (hx.trans hfault)]
    refine ⟨rfl, (if_pos hfault).symm, fun h => absurd hfault h, fun _ => rfl, fun _ hmode => ?_, fun h => ?_⟩
    · rcases hmode with hmode | hmode <;> simp only [faultTarget, hmode, targetMode]
    · rcases h with h | hmode | hmode
      · exact absurd hfault h
      · simp only [faultTarget, hmode]
      · simp only [faultTarget, hmode]
  · have hlimit : valveState s.plant xv = .opened ∨ valveState s.plant xv = .closed := by
      rw [hx]
      rcases harrives with h | h | h
      · exact .inl h
      · exact .inr h
      · exact absurd h hfault
    rw [if_neg hfault]
    by_cases hmode : s.plant.crossMode = .changing ∨ s.plant.crossMode = .fault
    · rw [crossoverChanged_arrives hlimit hmode]
      exact ⟨rfl, (if_pos hmode).symm, fun _ _ => rfl, fun h => (h.elim hfault fun hother => hmode.elim hother.1 hother.2).elim,
        fun h => absurd h hfault, fun _ => rfl⟩
    · rw [crossoverChanged_stands hlimit (not_or.1 hmode)]
      exact ⟨rfl, (if_neg hmode).symm, fun _ h => absurd h hmode, fun _ => rfl, fun h => absurd h hfault, fun _ => rfl⟩

/-! ### The statement's parts -/

/-- The last OPEN limit of a line-up changes its valve to OPEN (R88). -/
theorem limitChanged_opens {w : Valve} (hcommand : w.commandedOpen = true) (hstate : w.state = .opening ∨ w.state = .fault) :
    (limitChanged .openLimit true w).state = .opened := by
  rw [limitChanged_moving (hstate.imp_right .inr), if_pos ⟨rfl, by rw [commandedLimit, hcommand]; rfl⟩]
  exact if_pos hcommand

/-- The line-up is complete with its last valve OPEN (R94). -/
theorem withLinesAndValve_valveOpen {s : State} {ls : List InputLine} {v : Nat} {f : Valve → Valve}
    (h : valveState (withLinesAndValve s ls v f).plant v = .opened) {vs : List Nat} (hopen : ∀ u ∈ vs, u ≠ v → valveOpen s.plant u = true) :
    ∀ u ∈ vs, valveOpen (withLinesAndValve s ls v f).plant u = true := by
  intro u hu
  by_cases huv : u = v
  · subst huv
    exact decide_eq_true h
  · have hsame := modValve_other { s.plant with lines := ls } (Ne.symm huv) f
    have hother := hopen u hu huv
    rw [valveOpen, valveState] at hother ⊢
    rw [withLinesAndValve, setPlant_plant, hsame]
    exact hother

/-- The feedbacks of the pumps are lines 0 to 7 (R84). -/
theorem feedbacks_congr {p q : Plant} (h : ∀ i, i < 8 → lineOn q i = lineOn p i) {n : Nat} (h1 : 1 ≤ n) (h4 : n ≤ 4) :
    runningOn q n = runningOn p n ∧ provenOn q n = provenOn p n :=
  ⟨h _ (by simp only [runningLine]; omega), h _ (by simp only [provenLine]; omega)⟩

/-- Settles O38. -/
theorem valveChangesReachTheirUsers : Obligations.ValveChangesReachTheirUsers := by
  refine ⟨fun v s w a hpower hv hplant hw hcommand hstate hline howed honly ha hphase hopen hpumps => ?_,
    fun c v s w a hpower hv hplant hw hnofault hc honly ha hphase => ?_, fun c s w w' hpower hplant hw hstate hc => ?_⟩
  · have hopened := limitChanged_opens hcommand hstate
    have hchanged : (limitChanged .openLimit true w).state ≠ w.state := by
      rw [hopened]
      rcases hstate with h | h <;> rw [h] <;> nofun
    obtain ⟨ls, f, hf, hlines, hexec⟩ := exec_changesValve hpower (by omega) hplant hw hchanged (.inl ⟨.openLimit, true, rfl, hline, rfl⟩)
    have hstate' : valveState (withLinesAndValve s ls v f).plant v = .opened := (withLinesAndValve_state hw f).trans (by rw [hf, hopened])
    rw [valveChanged_opened (s := withLinesAndValve s ls v f) (Nat.ne_of_lt hv) honly hstate'] at hexec
    have hunproven : ∀ n ∈ a.pumps, ¬(runningOn (withLinesAndValve s ls v f).plant n = true ∧ provenOn (withLinesAndValve s ls v f).plant n = true) :=
      fun n hn => by
        obtain ⟨h1, h4, hunproven⟩ := hpumps n hn
        obtain ⟨hrunning, hproven⟩ := feedbacks_congr (q := (withLinesAndValve s ls v f).plant) hlines h1 h4
        rwa [hrunning, hproven]
    obtain ⟨howed', ha', hpumps', horder'⟩ := checkLinedUp_spec (s := withLinesAndValve s ls v f) ha hphase (withLinesAndValve_valveOpen hstate' hopen) hunproven
    exact ⟨_, hexec.trans (congrArg Host.Outcome.next (settleArbiter_none _ (howed'.trans howed))), ha',
      fun n hn p hp => hpumps' n hn (hpumps n hn).1 p hp, horder'⟩
  · have hchanges : ∃ w', w'.state = .fault ∧ ChangesValve c v s w w' := by
      rcases hc with ⟨l, x, hc, hline, hfault⟩ | ⟨hc, hmoving, hdue⟩
      · exact ⟨_, hfault, .inl ⟨l, x, hc, hline, rfl⟩⟩
      · exact ⟨_, rfl, .inr ⟨hc, hmoving, hdue, rfl⟩⟩
    obtain ⟨w', hfault, hchanges⟩ := hchanges
    obtain ⟨ls, f, hf, -, hexec⟩ := exec_changesValve hpower (by omega) hplant hw (by rw [hfault]; exact hnofault.symm) hchanges
    have hstate : valveState (withLinesAndValve s ls v f).plant v = .fault := (withLinesAndValve_state hw f).trans (by rw [hf, hfault])
    rw [valveChanged_fault (s := withLinesAndValve s ls v f) (Nat.ne_of_lt hv) honly hstate] at hexec
    refine ⟨_, hexec, failAttempt_takingDown (s := withLinesAndValve s ls v f) ha .lineupFail hphase, fun o horders ho hrunning => ?_⟩
    obtain ⟨o', ho', hreason, -, hleft⟩ :=
      stoppedFor_failAttempt (s := withLinesAndValve s ls v f) ha hphase ho (runningState_iff.2 hrunning)
    refine ⟨o', ho', hreason, ?_⟩
    rcases hleft with hstopping | ⟨hcancel, -⟩ | ⟨-, hleft⟩
    · exact .inl hstopping
    · cases hcancel
    · exact .inr hleft
  · obtain ⟨ls, f, hf, -, hexec⟩ := exec_changesValve hpower (Nat.le_refl 28) hplant hw hstate hc
    have hx : valveState (withLinesAndValve s ls 28 f).plant xv = w'.state := (withLinesAndValve_state hw f).trans (by rw [hf])
    obtain ⟨hvalves, hmode, hrun, hnone, hreturn, htarget⟩ := crossoverChanged_spec hx (changesValve_arrives hc hstate)
    have hself : (withLinesAndValve s ls 28 f).plant.valves[28]? = some w' := by
      rw [← hf]
      exact modValve_self (p := { s.plant with lines := ls }) hw f
    exact ⟨crossoverChanged (withLinesAndValve s ls 28 f), hexec, by rw [hvalves]; exact hself, hmode, hrun, hnone, hreturn, htarget⟩

end Sys2Proof.Machine
end

section
/-! PROOFS. The derivation of an order: its target clamped, its masses, and the source target raised where a destination lacks room (R113, R114). -/

namespace Sys2Proof.Machine

theorem targetAhead_iff {a : Action} {target current : Nat} :
    targetAhead a target current = true ↔ (a = .fill ∧ current < target) ∨ (a ≠ .fill ∧ target < current) := by
  cases a <;> simp [targetAhead]

section Given

variable {a : Action} {d : TankData} {r : Tank} {g : Target} {given : Int} (hgiven : givenLevel d r g = given)
include hgiven

/-- A target that does not lie ahead of the level is RANGE, whatever the destination (R113). -/
theorem derive_behind (dest : Option (TankData × Tank)) (h : ¬targetAhead a (clampLevel d given) r.level = true) : derive a d r dest g = none := by
  simp [derive, hgiven, h]

variable (hahead : targetAhead a (clampLevel d given) r.level = true)
include hahead

theorem derive_alone : derive a d r none g
    = some (deriveAt a d r none (clampLevel d given) (decide ((clampLevel d given : Int) ≠ given))) := by
  simp [derive, hgiven, hahead]

variable {dd : TankData} {dr : Tank}

theorem derive_fits (h : toMoveOf a r.mass (massAt d.points (clampLevel d given) r.density) ≤ roomOf dd dr) : derive a d r (some (dd, dr)) g
    = some (deriveAt a d r (some dr) (clampLevel d given) (decide ((clampLevel d given : Int) ≠ given))) := by
  simp [derive, deriveAt, hgiven, hahead, not_lt.2 h]

/-- Where the room is less than the mass to move, the source target is raised (R114). -/
theorem derive_short (h : roomOf dd dr < toMoveOf a r.mass (massAt d.points (clampLevel d given) r.density)) :
    derive a d r (some (dd, dr)) g = raiseTarget d r dr (roomOf dd dr) := by
  simp [derive, deriveAt, hgiven, hahead, h]

end Given

/-- Settles O43: the target ahead or not, then the mass to move against the destination's room. -/
theorem orderTargetsAreDerived : Obligations.OrderTargetsAreDerived := by
  intro act d r g given level target
  have hgiven : givenLevel d r g = given := by cases g <;> rfl
  refine ⟨fun dest h => derive_behind hgiven dest fun hahead => ?_, fun hact hlevel => ?_, fun hact hlevel => ?_,
    fun dd dr hact hlevel => ?_⟩
  · rcases targetAhead_iff.1 hahead with ⟨hact, hbelow⟩ | ⟨hact, habove⟩
    · exact h.elim (fun ⟨_, hlevel⟩ => hbelow.not_ge hlevel) fun ⟨hother, _⟩ => hother hact
    · exact h.elim (fun ⟨hfill, _⟩ => hact hfill) fun ⟨_, hlevel⟩ => habove.not_ge hlevel
  · subst hact
    exact derive_alone hgiven (targetAhead_iff.2 (.inl ⟨rfl, hlevel⟩))
  · subst hact
    exact derive_alone hgiven (targetAhead_iff.2 (.inr ⟨nofun, hlevel⟩))
  · subst hact
    have hahead : targetAhead .transfer level r.level = true := targetAhead_iff.2 (.inr ⟨nofun, hlevel⟩)
    refine ⟨fun hfits => derive_fits hgiven hahead hfits, fun hshort => ?_⟩
    have hraised := derive_short hgiven hahead hshort
    exact ⟨fun h => hraised.trans (if_neg (not_lt.2 h)), fun h => hraised.trans (if_pos h)⟩

end Sys2Proof.Machine
end

section
/-! PROOFS. HWIN: its numbers, the held flags that mirror the windows, the suspended orders that change or return, and the windows it answers with (R129, R132, R133; log 11, 14, 17, 18, 49). -/

namespace Sys2Proof.Machine

/-! ### The numbers -/

/-- A field that is out of its range where it is present is RANGE. -/
theorem inRangeIfPresent_outside {hi : Nat} {x : Option Int} (h : ∃ v, x = some v ∧ ¬(0 ≤ v ∧ v ≤ hi)) : inRangeIfPresent hi x = none := by
  obtain ⟨v, rfl, hout⟩ := h
  rw [inRangeIfPresent, natUpTo_eq_none (by omega), Option.map_none]

theorem hwinParts_outside {wn : Int} {wb wm : Option Int} (wv : Option Int)
    (h : ¬(0 ≤ wn ∧ wn ≤ 3) ∨ (∃ b, wb = some b ∧ ¬(0 ≤ b ∧ b ≤ 23)) ∨ ∃ m, wm = some m ∧ ¬(0 ≤ m ∧ m ≤ 31)) : hwinParts wn wv wb wm = none := by
  unfold hwinParts
  split
  · next hn hb hm =>
    rcases h with h | h | h
    · exact absurd (natUpTo_range (by rw [hn]; nofun)) h
    · rw [inRangeIfPresent_outside h] at hb
      cases hb
    · rw [inRangeIfPresent_outside h] at hm
      cases hm
  · rfl

theorem hwinParts_inside {n : Nat} {b m : Option Nat} (wv : Option Int) (hn : n ≤ 3) (hb : ∀ x, b = some x → x ≤ 23)
    (hm : ∀ x, m = some x → x ≤ 31) : hwinParts n wv (b.map Int.ofNat) (m.map Int.ofNat) = some (n, wv.map flagOf, b, m) := by
  simp only [hwinParts, natUpTo_natCast hn, inRangeIfPresent_natCast hb, inRangeIfPresent_natCast hm]

/-! ### The held flags (R132) -/

theorem mirrorHeld_getElem? (ws : List Window) (t : Nat) (ts : List Tank) (i : Nat) :
    (mirrorHeld ws t ts)[i]? = ts[i]?.map fun x => { x with held := heldBy ws (t + i) } := by
  induction ts generalizing t i with
  | nil => rfl
  | cons r rs ih =>
    cases i with
    | zero => rfl
    | succ i =>
      rw [mirrorHeld, List.getElem?_cons_succ, List.getElem?_cons_succ, ih, Nat.add_right_comm, Nat.add_assoc]

theorem heldSetChanged_iff {s : State} {before after : List Window} :
    heldSetChanged s before after = true ↔ ∃ i, i < s.tanks.length ∧ heldBy before i ≠ heldBy after i := by
  simp [heldSetChanged]

/-! ### A suspended order after a change of the windows (R129) -/

/-- The order gives up HULL or PREEMPTED for HELD: it is not MANUAL, and a tank that it needs is newly held (R129). -/
def becomesHeld (before after : List Window) (o : Order) : Bool :=
  (decide (o.reason = some .hull) || decide (o.reason = some .preempted)) && !o.manual && newlyHeld before after o

/-- The order was HELD, and no tank that it needs is held now (R129). -/
def noLongerHeld (after : List Window) (o : Order) : Bool :=
  decide (o.reason = some .held) && !(o.tank :: o.dest.toList).any (heldBy after)

/-- A suspended order as a change of the windows leaves it; one that returns to QUEUED keeps its reason (R129; log 17). -/
def afterWindows (before after : List Window) (o : Order) : Order :=
  if becomesHeld before after o then { o with reason := some .held }
  else if noLongerHeld after o then { o with state := .queued }
  else o

theorem newlyHeld_iff {before after : List Window} {o : Order} : newlyHeld before after o = true
    ↔ ∃ t ∈ o.tank :: o.dest.toList, heldBy after t = true ∧ heldBy before t = false := by
  simp only [newlyHeld, List.any_eq_true, Bool.and_eq_true, Bool.not_eq_true']

theorem becomesHeld_iff {before after : List Window} {o : Order} (h : o.reason = some .hull ∨ o.reason = some .preempted) :
    becomesHeld before after o = true
      ↔ o.manual = false ∧ ∃ t ∈ o.tank :: o.dest.toList, heldBy after t = true ∧ heldBy before t = false := by
  rw [← newlyHeld_iff]
  simp [becomesHeld, h]

theorem noLongerHeld_iff {after : List Window} {o : Order} (h : o.reason = some .held) :
    noLongerHeld after o = true ↔ ¬∃ t ∈ o.tank :: o.dest.toList, heldBy after t = true := by
  rw [← List.any_eq_true]
  simp [noLongerHeld, h]

theorem afterWindows_hullOrPreempted {before after : List Window} {o : Order} (h : o.reason = some .hull ∨ o.reason = some .preempted) :
    afterWindows before after o = if o.manual = false ∧ ∃ t ∈ o.tank :: o.dest.toList, heldBy after t = true ∧ heldBy before t = false
      then { o with reason := some .held } else o := by
  have hstays : ¬noLongerHeld after o = true := by rcases h with h | h <;> simp [noLongerHeld, h]
  rw [afterWindows, if_neg hstays]
  exact if_congr (becomesHeld_iff h) rfl rfl

theorem afterWindows_held {before after : List Window} {o : Order} (h : o.reason = some .held) :
    afterWindows before after o = if ∃ t ∈ o.tank :: o.dest.toList, heldBy after t = true then o else { o with state := .queued } := by
  have hstays : ¬becomesHeld before after o = true := by simp [becomesHeld, h]
  rw [afterWindows, if_neg hstays, if_congr (noLongerHeld_iff h) rfl rfl, ite_not]

theorem windowsChangedFor_eq (before : List Window) {s : State} {id : Nat} {o : Order} (ho : orderById s id = some o) :
    windowsChangedFor before s id = if becomesHeld before s.orders.windows o then modOrder s id fun o => { o with reason := some .held }
      else if noLongerHeld s.orders.windows o then queueOrder s id fun o => o else s := by
  rw [windowsChangedFor, ho]
  dsimp only
  split
  case h_1 h | h_2 h => simp [becomesHeld, noLongerHeld, h]
  case h_3 h =>
    simp only [becomesHeld, noLongerHeld, h]
    cases (o.tank :: o.dest.toList).any (heldBy s.orders.windows) <;> rfl
  case h_4 hhull hpreempted hheld =>
    simp only [becomesHeld, noLongerHeld, decide_eq_false hhull, decide_eq_false hpreempted, decide_eq_false hheld]
    rfl

/-- The order that is dealt with comes to the record of R129. -/
theorem orderById_windowsChangedFor (before : List Window) {s : State} {id : Nat} {o : Order} (ho : orderById s id = some o) :
    orderById (windowsChangedFor before s id) id = some (afterWindows before s.orders.windows o) := by
  obtain ⟨-, hid⟩ := mem_of_orderById ho
  rw [windowsChangedFor_eq before ho, afterWindows]
  split_ifs
  · exact orderById_modOrder ho hid
  · exact orderById_moveOrder (f := fun o => { o with state := .queued }) ho hid
  · exact ho

theorem orderById_windowsChangedFor_other (before : List Window) (s : State) {id j : Nat} (hj : j ≠ id) :
    orderById (windowsChangedFor before s id) j = orderById s j := by
  cases ho : orderById s id with
  | none => rw [windowsChangedFor, ho]
  | some o =>
    rw [windowsChangedFor_eq before ho]
    split_ifs
    · exact orderById_modOrder_other hj fun _ => rfl
    · exact orderById_moveOrder_other (f := fun o => { o with state := .queued }) hj fun _ => rfl
    · rfl

/-- Of the suspended orders, dealt with one after the other, each comes to the record of R129. -/
theorem orderById_foldl_windowsChangedFor (before : List Window) {ids : List Nat} (hnodup : ids.Nodup) {s : State} {id : Nat} {o : Order}
    (ho : orderById s id = some o) : orderById (ids.foldl (windowsChangedFor before) s) id
      = some (if id ∈ ids then afterWindows before s.orders.windows o else o) := by
  induction ids generalizing s o with
  | nil => simpa using ho
  | cons j ids ih =>
    obtain ⟨hj, hrest⟩ := List.nodup_cons.1 hnodup
    have hwindows : (windowsChangedFor before s j).orders.windows = s.orders.windows := (windowsChangedFor_path before s j).windows
    rw [List.foldl_cons]
    by_cases hid : id = j
    · subst hid
      rw [ih hrest (orderById_windowsChangedFor before ho), if_neg hj, if_pos List.mem_cons_self]
    · rw [ih hrest ((orderById_windowsChangedFor_other before s hid).trans ho), hwindows]
      simp [hid]

/-! ### The windows set (R132, R133) -/

/-- The windows set, with the held flags that mirror them (R132). -/
def mirrored (s : State) (ws : List Window) : State :=
  setTanks (setOrders s { s.orders with windows := ws }) (mirrorHeld ws 0 s.tanks)

/-- The windows set, and the suspended orders dealt with (R129). -/
def suspendedFollowed (s : State) (ws : List Window) : State :=
  (((ordersList s).filter fun o => o.state = .suspended).map Order.id).foldl (windowsChangedFor s.orders.windows) (mirrored s ws)

/-- The windows set with what follows before the arbiter's runs (R129, R133; log 14). -/
def windowsSet (s : State) (ws : List Window) : State :=
  if heldSetChanged (suspendedFollowed s ws) s.orders.windows ws then callArbiter (suspendedFollowed s ws) else suspendedFollowed s ws

theorem setWindows_eq (s : State) (ws : List Window) : setWindows s ws = settleArbiter (windowsSet s ws) := rfl

theorem suspendedFollowed_path (s : State) (ws : List Window) : Path ballastBlocks (mirrored s ws) (suspendedFollowed s ws) :=
  foldl_path (windowsChangedFor_path s.orders.windows) _ _

theorem windowsSet_path (s : State) (ws : List Window) : Path ballastBlocks (mirrored s ws) (windowsSet s ws) :=
  .ite ((suspendedFollowed_path s ws).trans ((callArbiter_path _).mono (by decide))) (suspendedFollowed_path s ws)

theorem windowsSet_windows (s : State) (ws : List Window) : (windowsSet s ws).orders.windows = ws := (windowsSet_path s ws).windows

theorem windowsSet_tank {s : State} (ws : List Window) {i : Nat} {x : Tank} (hx : s.tanks[i]? = some x) :
    (windowsSet s ws).tanks[i]? = some { x with held := heldBy ws i } := by
  have htanks : (windowsSet s ws).tanks = mirrorHeld ws 0 s.tanks := (windowsSet_path s ws).changesOnly .tanks (by decide)
  rw [htanks, mirrorHeld_getElem?, hx, Option.map_some, Nat.zero_add]

/-- A change of the set of held tanks calls for a run of the arbiter (R133). -/
theorem windowsSet_runOwed {s : State} {ws : List Window} (h : ∃ i, i < s.tanks.length ∧ heldBy s.orders.windows i ≠ heldBy ws i) :
    (windowsSet s ws).orders.runOwed = true := by
  have hlength : (suspendedFollowed s ws).tanks.length = s.tanks.length :=
    (suspendedFollowed_path s ws).tanks_length.trans (mirrorHeld_length ws 0 s.tanks)
  have hchanged : heldSetChanged (suspendedFollowed s ws) s.orders.windows ws = true := heldSetChanged_iff.2 (by rwa [hlength])
  rw [windowsSet, if_pos hchanged]
  rfl

theorem suspended_ids_nodup {s : State} (horders : OrdersOk s.orders) :
    (((ordersList s).filter fun o => o.state = .suspended).map Order.id).Nodup := by
  obtain ⟨-, -, hids, -⟩ := horders
  have hall : ((ordersList s).map Order.id).Nodup := by rwa [ordersList, List.map_filterMap]
  exact hall.sublist (List.filter_sublist.map _)

theorem windowsSet_order {s : State} (horders : OrdersOk s.orders) {o : Order} (ho : some o ∈ s.orders.slots) (hstate : o.state = .suspended)
    (ws : List Window) : orderById (windowsSet s ws) o.id = some (afterWindows s.orders.windows ws o) := by
  have hid : o.id ∈ ((ordersList s).filter fun o => o.state = .suspended).map Order.id :=
    List.mem_map_of_mem (List.mem_filter.2 ⟨mem_ordersList.2 ho, decide_eq_true hstate⟩)
  have hplaced : orderById (mirrored s ws) o.id = some o := orderById_of_mem horders ho
  have hfold := orderById_foldl_windowsChangedFor s.orders.windows (suspended_ids_nodup horders) hplaced
  rw [if_pos hid] at hfold
  unfold windowsSet
  split
  · exact hfold
  · exact hfold

theorem settled_windows (s : State) (ws : List Window) : (settleArbiter (windowsSet s ws)).orders.windows = ws :=
  (settleArbiter_path _).windows.trans (windowsSet_windows s ws)

/-- The reply shows the windows as they are set, and how many declared tanks they hold (R133; log 18). -/
theorem windowFields_settled (s : State) (ws : List Window) : windowFields (settleArbiter (windowsSet s ws))
    = (ws.flatMap fun x => [rvNum (boolCode x.valid), rvNum x.base, rvNum x.mask]) ++ [rvNum (heldCount s ws)] := by
  have hlength : (settleArbiter (windowsSet s ws)).tanks.length = s.tanks.length :=
    ((settleArbiter_path _).tanks_length.trans (windowsSet_path s ws).tanks_length).trans (mirrorHeld_length ws 0 s.tanks)
  rw [windowFields, heldCount, hlength, settled_windows]
  rfl

/-! ### HWIN (R133) -/

theorem hwin_range {wn : Int} {wv wb wm : Option Int} (h : hwinParts wn wv wb wm = none) (k : Nat) (s : State) :
    hwin k wn wv wb wm s = reply s .console k .range [] := by
  rw [hwin, h]
  rfl

section Parts

variable {wn : Int} {wv wb wm : Option Int} {n : Nat} {v : Option Bool} {b m : Option Nat} (hparts : hwinParts wn wv wb wm = some (n, v, b, m))
  {s : State} {w : Window} (hw : s.orders.windows[n]? = some w) (k : Nat)
include hparts hw

theorem hwin_limit (h : 18 < heldCount s (modAt s.orders.windows n fun _ => windowWith v b m w)) :
    hwin k wn wv wb wm s = reply s .console k .limit [] := by
  rw [hwin, hparts]
  exact if_pos (by rwa [modAt_of hw])

theorem hwin_sets (h : heldCount s (modAt s.orders.windows n fun _ => windowWith v b m w) ≤ 18) :
    let u := settleArbiter (windowsSet s (modAt s.orders.windows n fun _ => windowWith v b m w))
    hwin k wn wv wb wm s = reply u .console k .ok (windowFields u) := by
  rw [hwin, hparts]
  exact (if_neg (not_lt.2 (by rwa [modAt_of hw]))).trans (by rw [modAt_of hw, setWindows_eq])

end Parts

/-- Settles O45: the tests of HWIN, then what the windows set come to. -/
theorem hwinHoldsTanks : Obligations.HwinHoldsTanks := by
  intro k s wn wv wb wm hasked hcall horders
  have hexec : exec (.hwin k) s = .next (hwin k wn wv wb wm s) :=
    (exec_asked (r := .hwin wn wv wb wm) hasked).trans (congrArg _ (whenAdmitted_inCall hcall .console k _))
  refine ⟨fun h => hexec.trans (congrArg _ (hwin_range (hwinParts_outside wv h) k s)), ?_⟩
  intro n b m w hwn hn hwb hb hwm hm hw
  subst hwn hwb hwm
  have hparts := hwinParts_inside wv hn hb hm
  refine ⟨wv.map flagOf, Option.isSome_map, fun h => by rw [h]; rfl, fun h => by rw [h]; rfl, ?_⟩
  intro ws held count
  refine ⟨fun h => hexec.trans (congrArg _ (hwin_limit hparts hw k h)), fun h => ?_⟩
  refine ⟨windowsSet s ws, ?_, windowsSet_windows s ws, settled_windows s ws, fun i x hx => windowsSet_tank ws hx, windowsSet_runOwed,
    fun o ho hstate => ?_⟩
  · exact hexec.trans (congrArg _ ((hwin_sets hparts hw k h).trans (congrArg (reply _ .console k .ok) (windowFields_settled s ws))))
  · intro needed
    have hset := windowsSet_order horders ho hstate ws
    exact ⟨fun hreason => hset.trans (congrArg some (afterWindows_hullOrPreempted hreason)),
      fun hreason => hset.trans (congrArg some (afterWindows_held hreason))⟩

end Sys2Proof.Machine
end

section
/-! PROOFS. The gate's preview result and the grant (R144, R149, R161). -/

namespace Sys2Proof.Machine

/-! ### The preview result (R144) -/

theorem gateResult_forStep {s : State} {n : Nat} {y : Step} (hpreview : s.pour.preview = .forStep n) (hstep : stepByNumber s n = some y)
    (band : Band) :
    let s0 := { s with pour := { s.pour with preview := .none } }
    gateResult s band = if y.state = .evaluating then gateResultFor s0 y band else s0 := by
  intro s0
  have hstep0 : stepByNumber (setPour s { s.pour with preview := .none }) n = some y := hstep
  rw [gateResult, hpreview]
  dsimp only
  rw [hstep0]
  rfl

theorem gateResult_discarded {s : State} (hpreview : s.pour.preview = .discard) (band : Band) :
    let s0 := { s with pour := { s.pour with preview := .none } }
    gateResult s band = match s.pour.plan.find? fun z => z.state = .evaluating with
      | some y => askGate s0 y
      | none => s0 := by
  intro s0
  rw [gateResult, hpreview]
  rfl

section Result

variable {s : State} {y : Step}

/-- An unmet check with the terminal's request pending is answered WAIT, with a fresh hold timer. -/
theorem gateResultFor_unmet_pending {r : WaitReason} {k : Nat} (hunmet : firstUnmet s y = some r) (hpending : y.replyPending = some k)
    (band : Band) : gateResultFor s y band = startWaiting s y k r := by
  rw [gateResultFor, hunmet, hpending]

/-- An unmet check without a pending request leaves the hold timer running. -/
theorem gateResultFor_unmet {r : WaitReason} (hunmet : firstUnmet s y = some r) (hpending : y.replyPending = none) (band : Band) :
    gateResultFor s y band = modStep s y.number fun z => { z with state := .waiting, waitReason := some r } := by
  rw [gateResultFor, hunmet, hpending]

variable (hmet : firstUnmet s y = none)
include hmet

theorem gateResultFor_red_pending {k : Nat} (hpending : y.replyPending = some k) :
    gateResultFor s y .red = reply (modStep s y.number fun z => { z with state := .planned, replyPending := none })
      .terminal k .refuse [(.ST, .num y.number), (.RN, .num rnProjected)] := by
  rw [gateResultFor, hmet, hpending]
  exact if_pos rfl

theorem gateResultFor_red (hpending : y.replyPending = none) : gateResultFor s y .red = blockStep s y rnProjected := by
  rw [gateResultFor, hmet, hpending]
  exact if_pos rfl

theorem gateResultFor_grants {band : Band} (hband : band ≠ .red) : gateResultFor s y band = grant s y := by
  rw [gateResultFor, hmet]
  exact if_neg hband

end Result

/-! ### The grant (R149, R161) -/

theorem grant_answers {y : Step} {k : Nat} (hpending : y.replyPending = some k) (s : State) :
    grant s y = reply (pouringBegun (grantStep s y)) .terminal k .grant (grantFields y) := by
  rw [grant, hpending]

theorem grant_sends {y : Step} (hpending : y.replyPending = none) (s : State) :
    grant s y = handTerminal (pouringBegun (grantStep s y)) (grnt y) := by
  rw [grant, hpending]

/-- Step, hold and quiet timer once leave is given: the base mass is the hold's, which comes under TALLY without a tally (R149, R161). -/
def leaveGiven (s : State) (y : Step) (h : Hold) : State := { s with
  pour := { s.pour with
    plan := s.pour.plan.map fun z => if z.number = y.number
      then { z with
        state := .pouring, base := some h.mass, lastTally := some 0, grantTime := some s.clocks.uptime
        holdTimer := none, waitReason := none, replyPending := none }
      else z
    holds := modAt s.pour.holds (y.hold - 1) fun _ => { h with source := .tally, latest := none, previous := none, estimate := none } }
  term := { s.term with quietTimer := some (s.clocks.uptime + s.settings.qt.toNat), count := 0 } }

theorem pouringBegun_grantStep {s : State} {y : Step} {h : Hold} (hrec : holdRec s y.hold = some h) :
    pouringBegun (grantStep s y) = leaveGiven s y h := by
  have hmass : ((holdRec s y.hold).map Hold.mass).getD 0 = h.mass := by rw [hrec]; rfl
  unfold grantStep
  rw [hmass]
  exact congrArg pouringBegun (modHold_of_holdRec (s := modStep s y.number _) hrec _)

/-- Settles O50: the result for a step by its checks and band, the discarded result, and the grant by who is told of it. -/
theorem gateResultsGrantOrRefuse : Obligations.GateResultsGrantOrRefuse := by
  refine ⟨fun s band n y hpreview hstep hnumber => ?_, fun s band hpreview => ?_, fun s y h hrec => ?_⟩
  · subst hnumber
    intro s0
    have hresult : gateResult s band = if y.state = .evaluating then gateResultFor s0 y band else s0 :=
      gateResult_forStep hpreview hstep band
    refine ⟨fun hstate => hresult.trans (if_neg hstate), fun hstate => ?_⟩
    rw [hresult, if_pos hstate]
    refine ⟨fun r k hunmet hpending => gateResultFor_unmet_pending hunmet hpending band,
      fun r hunmet hpending => gateResultFor_unmet hunmet hpending band, fun k hmet hred hpending => ?_, fun hmet hred hpending => ?_,
      fun hmet hband => gateResultFor_grants hmet hband⟩
    · subst hred
      exact gateResultFor_red_pending hmet hpending
    · subst hred
      exact gateResultFor_red hmet hpending
  · intro s0
    rw [gateResult_discarded hpreview]
    refine ⟨fun hnone => ?_, fun y hfound => by rw [hfound]⟩
    have hnotFound : (s.pour.plan.find? fun z => z.state = .evaluating) = none := List.find?_eq_none.2 fun y hy => by simpa using hnone y hy
    rw [hnotFound]
  · intro t
    have htold : pouringBegun (grantStep s y) = t := pouringBegun_grantStep hrec
    exact ⟨fun k hpending => by rw [grant_answers hpending, htold]; rfl, fun hpending => by rw [grant_sends hpending, htold]; rfl⟩

end Sys2Proof.Machine
end

section
/-! PROOFS. SSKP, SCAN, LSTP and HCOR (R139, R148, R156; log 18, 49). -/

namespace Sys2Proof.Machine

/-! ### A step that stands in the plan -/

/-- The current step of a lawful plan stands in it. -/
theorem Stands.current {s : State} {y : Step} (hpour : PourOk s.pour) (hcurrent : currentStep s = some y) : Stands y s :=
  ⟨hpour.numbers_nodup, List.mem_of_find?_eq_some hcurrent⟩

/-- The steps of a lawful plan are numbered from 1 to its last (R134). -/
theorem PourOk.number_within {p : Pour} (h : PourOk p) {y : Step} (hy : y ∈ p.plan) : 1 ≤ y.number ∧ y.number ≤ p.plan.length := by
  obtain ⟨hnumbers, -, -⟩ := h
  have hmem : y.number ∈ (upTo p.plan.length).map (· + 1) := hnumbers ▸ List.mem_map_of_mem hy
  rw [upTo_eq_range] at hmem
  obtain ⟨i, hi, heq⟩ := List.mem_map.1 hmem
  have hlt := List.mem_range.1 hi
  omega

/-- The state of a step that has been changed, as reply fields. -/
theorem Stands.stateFields_modStep {s : State} {y : Step} (h : Stands y s) {f : Step → Step} (hf : ∀ z, (f z).number = z.number) :
    stateFields (modStep s y.number f) y.number = [(.ST, .num y.number), (.SS, .num (stepCode (f y).state))] := by
  have hstep : Machine.stepByNumber (modStep s y.number f) y.number = some (f y) := by
    simpa only [hf] using (h.modStep_self hf).stepByNumber
  rw [stateFields, hstep]

/-! ### SSKP (R148) -/

theorem sskp_range (k : Nat) {s : State} {st : Int} (h : ¬(1 ≤ st ∧ st ≤ s.pour.plan.length)) :
    sskp k st s = reply s .console k .range [] := by
  have hnumber : natIn 1 (lastStep s) st = none := natIn_outside h
  rw [sskp, hnumber]
  rfl

section Skip

variable (k : Nat) {s : State} {y : Step} (hpour : PourOk s.pour) (hy : y ∈ s.pour.plan)
include hpour hy

theorem sskp_named : sskp k y.number s
    = if y.state = .planned ∨ y.state = .waiting ∨ y.state = .blocked then reply (skipStep s y) .console k .ok []
      else reply s .console k .state [] := by
  obtain ⟨hlow, hhigh⟩ := hpour.number_within hy
  have hstands : Stands y s := ⟨hpour.numbers_nodup, hy⟩
  have hnumber : natIn 1 (lastStep s) y.number = some y.number := natIn_inside hlow hhigh
  simp only [sskp, hnumber, hstands.stepByNumber, Bool.or_eq_true, decide_eq_true_eq, or_assoc]
  rfl

theorem sskp_skips (hstate : y.state = .planned ∨ y.state = .waiting ∨ y.state = .blocked) :
    sskp k y.number s = reply (skipStep s y) .console k .ok [] := (sskp_named k hpour hy).trans (if_pos hstate)

theorem sskp_state (hplanned : y.state ≠ .planned) (hwaiting : y.state ≠ .waiting) (hblocked : y.state ≠ .blocked) :
    sskp k y.number s = reply s .console k .state [] := (sskp_named k hpour hy).trans (if_neg (by simp [hplanned, hwaiting, hblocked]))

end Skip

theorem skipStep_planned {y : Step} (hstate : y.state = .planned) (s : State) :
    skipStep s y = modStep s y.number fun x => { x with state := .skipped, holdTimer := none } := if_pos hstate

/-- A step that the terminal asked for is skipped with BLKD. -/
theorem skipStep_asked {y : Step} (hstate : y.state = .waiting ∨ y.state = .blocked) (s : State) :
    skipStep s y = handTerminal (modStep s y.number fun x => { x with state := .skipped, holdTimer := none }) (.blkd y.number rnSkipped) :=
  if_neg (by rcases hstate with h | h <;> simp [h])

/-! ### SCAN and LSTP (R148, R156) -/

theorem scan_notCurrent (k : Nat) {s : State} {st : Int} (h : ∀ y, currentStep s = some y → st ≠ y.number) :
    scan k st s = reply s .terminal k .sequence [] := by
  rw [scan, currentNamed_eq_none h]
  rfl

theorem lstp_notCurrent (k : Nat) {s : State} {st : Int} (h : ∀ y, currentStep s = some y → st ≠ y.number) :
    lstp k st s = reply s .terminal k .sequence [] := by
  rw [lstp, currentNamed_eq_none h]
  rfl

section Current

variable (k : Nat) {s : State} {y : Step} (hcurrent : currentStep s = some y)
include hcurrent

theorem scan_refused (hwaiting : y.state ≠ .waiting) (hblocked : y.state ≠ .blocked) :
    scan k y.number s = reply s .terminal k .state [] := by
  simp [scan, currentNamed_current hcurrent, hwaiting, hblocked, refuse]

theorem lstp_refused (hstate : y.state ≠ .halted) : lstp k y.number s = reply s .terminal k .state [] := by
  simp [lstp, currentNamed_current hcurrent, hstate, refuse]

variable (hpour : PourOk s.pour)
include hpour

/-- The step returns to PLANNED and its hold timer stops. -/
theorem scan_withdraws (hstate : y.state = .waiting ∨ y.state = .blocked) :
    scan k y.number s = reply (modStep s y.number fun x => { x with state := .planned, holdTimer := none })
      .terminal k .ok [(.ST, .num y.number), (.SS, .num 0)] := by
  have hfields := (Stands.current hpour hcurrent).stateFields_modStep (f := fun x => { x with state := .planned, holdTimer := none }) fun _ => rfl
  have hwithdrawn : (decide (y.state = .waiting) || decide (y.state = .blocked)) = true := by simpa using hstate
  simp only [scan, currentNamed_current hcurrent, hwithdrawn, if_true, hfields, stepCode]

/-- The loader's stop is marked and the step stays HALTED. -/
theorem lstp_marks (hstate : y.state = .halted) :
    lstp k y.number s = reply (modStep s y.number fun x => { x with loaderStopped := true })
      .terminal k .ok [(.ST, .num y.number), (.SS, .num 5)] := by
  have hfields := (Stands.current hpour hcurrent).stateFields_modStep (f := fun x => { x with loaderStopped := true }) fun _ => rfl
  simp only [lstp, currentNamed_current hcurrent, hstate, if_true, hfields, stepCode]

end Current

/-! ### HCOR (R139) -/

theorem holdNamed_undeclared {s : State} {hd : Int} (h : ∀ i : Nat, hd = i → i ≤ 9 → holdData s i = none) : holdNamed s hd = none := by
  by_cases hrange : 1 ≤ hd ∧ hd ≤ 9
  · have hcast : hd = hd.toNat := (Int.toNat_of_nonneg (by omega)).symm
    have hnumber : natIn 1 9 hd = some hd.toNat := by
      rw [hcast]
      exact natIn_inside (by omega) (by omega)
    simp [holdNamed, hnumber, h hd.toNat hcast (by omega)]
  · have hnumber : natIn 1 9 hd = none := natIn_outside hrange
    rw [holdNamed, hnumber]

/-- A declared hold has a number of its own. -/
theorem holdData_pos {s : State} {h : Nat} {d : HoldData} (hdata : holdData s h = some d) : 1 ≤ h := by
  refine Nat.one_le_iff_ne_zero.2 fun hzero => ?_
  rw [holdData, if_pos hzero] at hdata
  cases hdata

theorem holdNamed_declared {s : State} {h : Nat} {d : HoldData} (hmax : h ≤ 9) (hdata : holdData s h = some d) :
    holdNamed s h = some h := by
  have hnumber : natIn 1 9 h = some h := natIn_inside (holdData_pos hdata) hmax
  simp [holdNamed, hnumber, hdata]

/-- A hold is in use while the current step has begun to pour into it and is not REPORTING (R139). -/
theorem holdInUse_iff {s : State} {h : Nat} : holdInUse s h = true
    ↔ ∃ y, currentStep s = some y ∧ y.hold = h ∧ (y.state = .pouring ∨ y.state = .halted ∨ y.state = .settling) := by
  simp only [holdInUse, Option.any_eq_true, Bool.and_eq_true, Bool.or_eq_true, stepPours, decide_eq_true_eq, or_assoc]

theorem hcor_range (k : Nat) {s : State} {hd ms : Int} (h : holdNamed s hd = none ∨ natUpTo 2000000 ms = none) :
    hcor k hd ms s = reply s .console k .range [] := by
  rcases h with h | h
  · rw [hcor, h]
    rfl
  · rw [hcor, h]
    cases holdNamed s hd <;> rfl

section Correction

variable (k : Nat) {s : State} {h m : Nat} {d : HoldData} (hhold : h ≤ 9) (hdata : holdData s h = some d) (hmass : m ≤ 2000000)
include hhold hdata hmass

theorem hcor_inUse (huse : holdInUse s h = true) : hcor k h m s = reply s .console k .state [] := by
  simp [hcor, holdNamed_declared hhold hdata, natUpTo_natCast hmass, huse, refuse]

/-- The mass is corrected and an estimate ends; the evaluation is requested before the reply. -/
theorem hcor_corrects (huse : ¬holdInUse s h = true) :
    let u := liveRequest { s with pour := { s.pour with
      holds := modAt s.pour.holds (h - 1) fun x => { x with mass := m, source := .corrected, estimate := none } } } false
    hcor k h m s = reply u .console k .ok (holdFields u h) := by
  intro u
  have hset : modHold s h (fun x => { x with mass := m, source := .corrected, estimate := none }) = { s with pour := { s.pour with
      holds := modAt s.pour.holds (h - 1) fun x => { x with mass := m, source := .corrected, estimate := none } } } :=
    if_neg (Nat.one_le_iff_ne_zero.1 (holdData_pos hdata))
  simp only [hcor, holdNamed_declared hhold hdata, natUpTo_natCast hmass, if_neg huse, hset]
  rfl

end Correction

/-- Settles O48: each request by its tests and the state of the step or hold it names. -/
theorem stepsAndHoldsAreCorrected : Obligations.StepsAndHoldsAreCorrected := by
  refine ⟨fun k s st hasked hcall hpour => ?_, fun k s st c hcall hpour hasked => ?_, fun k s hd ms hasked hcall => ?_⟩
  · have hexec : exec (.sskp k) s = .next (sskp k st s) :=
      (exec_asked (r := .sskp st) hasked).trans (congrArg _ (whenAdmitted_inCall hcall .console k _))
    rw [hexec]
    refine ⟨fun hrange => congrArg _ (sskp_range k hrange), fun y hy hst => ?_⟩
    subst hst
    intro t
    refine ⟨fun hplanned => ?_, fun hasking => ?_,
      fun hplanned hwaiting hblocked => congrArg _ (sskp_state k hpour hy hplanned hwaiting hblocked)⟩
    · rw [sskp_skips k hpour hy (.inl hplanned), skipStep_planned hplanned]
    · rw [sskp_skips k hpour hy (.inr hasking), skipStep_asked hasking]
      rfl
  · rcases hasked with ⟨hasked, rfl⟩ | ⟨hasked, rfl⟩
    · have hexec : exec (.scan k) s = .next (scan k st s) :=
        (exec_asked (r := .scan st) hasked).trans (congrArg _ (whenAdmitted_inCall hcall .terminal k _))
      rw [hexec]
      refine ⟨fun hother => congrArg _ (scan_notCurrent k hother), fun y hcurrent hst => ?_⟩
      subst hst
      exact ⟨fun _ hstate => congrArg _ (scan_withdraws k hcurrent hpour hstate),
        fun _ hwaiting hblocked => congrArg _ (scan_refused k hcurrent hwaiting hblocked), nofun, nofun⟩
    · have hexec : exec (.lstp k) s = .next (lstp k st s) :=
        (exec_asked (r := .lstp st) hasked).trans (congrArg _ (whenAdmitted_inCall hcall .terminal k _))
      rw [hexec]
      refine ⟨fun hother => congrArg _ (lstp_notCurrent k hother), fun y hcurrent hst => ?_⟩
      subst hst
      exact ⟨nofun, nofun, fun _ hstate => congrArg _ (lstp_marks k hcurrent hpour hstate),
        fun _ hstate => congrArg _ (lstp_refused k hcurrent hstate)⟩
  · have hexec : exec (.hcor k) s = .next (hcor k hd ms s) :=
      (exec_asked (r := .hcor hd ms) hasked).trans (congrArg _ (whenAdmitted_inCall hcall .console k _))
    rw [hexec]
    refine ⟨fun houtside => congrArg _ (hcor_range k (houtside.imp holdNamed_undeclared fun hmass => natUpTo_eq_none (by omega))),
      fun h m d hhd hhold hdata hms hmass => ?_⟩
    subst hhd hms
    refine ⟨fun huse => congrArg _ (hcor_inUse k hhold hdata hmass (holdInUse_iff.2 huse)),
      fun hfree => congrArg _ (hcor_corrects k hhold hdata hmass fun huse => ?_)⟩
    obtain ⟨y, hcurrent, hinto, hstate⟩ := holdInUse_iff.1 huse
    obtain ⟨hpouring, hhalted, hsettling⟩ := hfree y hcurrent hinto
    rcases hstate with h | h | h <;> contradiction

end Sys2Proof.Machine
end

section
/-! PROOFS. PLAN and PCLR (R134 to R136; log 18, 49). -/

namespace Sys2Proof.Machine

/-! ### One step of the plan -/

/-- In a plan whose steps have different numbers, the change of a step's number is the change of that step alone. -/
theorem Stands.modStep_eq {s : State} {y : Step} (h : Stands y s) (f : Step → Step) :
    modStep s y.number f = { s with pour := { s.pour with plan := s.pour.plan.map fun z => if z = y then f z else z } } := by
  obtain ⟨hn, hy⟩ := h
  have hsame : ∀ z ∈ s.pour.plan, (if z.number = y.number then f z else z) = if z = y then f z else z := fun z hz =>
    if_congr ⟨List.inj_on_of_nodup_map hn hz hy, congrArg Step.number⟩ rfl rfl
  rw [modStep, List.map_congr_left hsame]
  rfl

/-! ### The numbers of a PLAN (R135, test 3) -/

theorem companionsOk_iff {cp : List Companion} : companionsOk cp = true ↔ ∀ c ∈ cp, c.order ≠ 0 ∧ c.required ≤ 100 := by
  simp [companionsOk]

theorem companionsClash_iff {cp : List Companion} : companionsClash cp = true ↔ ¬(cp.map Companion.order).Nodup := by
  induction cp with
  | nil => simp [companionsClash]
  | cons c cs ih =>
    rw [companionsClash, Bool.or_eq_true, ih, List.map_cons, List.nodup_cons, not_and_or, not_not, List.mem_map, List.any_eq_true]
    simp only [decide_eq_true_eq]

theorem periodNamed_outside {x : Int} (h : ¬(1 ≤ x ∧ x ≤ 3)) : periodNamed (some x) = none := by
  have hcode : natIn 1 3 x = none := natIn_outside h
  rw [periodNamed, hcode]
  rfl

theorem periodNamed_inside {c : Option Nat} (h : ∀ x, c = some x → 1 ≤ x ∧ x ≤ 3) : periodNamed (c.map Int.ofNat) = some c := by
  cases c with
  | none => rfl
  | some x =>
    have hcode : natIn 1 3 x = some x := natIn_inside (h x rfl).1 (h x rfl).2
    exact congrArg (Option.map some) hcode

/-! ### The tests of PLAN in order (R135) -/

section Tests

variable {s : State} {st hd pt : Int} {cp : List Companion} {hc : Option Int}

theorem planTests_format (h : 4 < cp.length) : planTests s st hd pt cp hc = .inl .format := if_pos h

theorem planTests_unnamed (hfew : cp.length ≤ 4)
    (h : natIn 1 48 st = none ∨ holdNamed s hd = none ∨ natIn 1 60000 pt = none ∨ periodNamed hc = none) :
    planTests s st hd pt cp hc = .inl .range := by
  rw [planTests, if_neg (not_lt.2 hfew)]
  split
  next hn hh hp hc => simp [hn, hh, hp, hc] at h
  next => rfl

theorem planTests_companions (hfew : cp.length ≤ 4) (h : ¬companionsOk cp = true) : planTests s st hd pt cp hc = .inl .range := by
  rw [planTests, if_neg (not_lt.2 hfew)]
  split
  next => exact if_pos (by simpa using h)
  next => rfl

end Tests

/-- A number, hold, planned mass, hold period or companion outside its range is refused with RANGE. -/
theorem planTests_range {s : State} {st hd pt : Int} {cp : List Companion} {hc : Option Int} (hfew : cp.length ≤ 4)
    (h : ¬(1 ≤ st ∧ st ≤ 48) ∨ (∀ h : Nat, hd = h → h ≤ 9 → holdData s h = none) ∨ ¬(1 ≤ pt ∧ pt ≤ 60000)
      ∨ (∃ c, hc = some c ∧ ¬(1 ≤ c ∧ c ≤ 3)) ∨ ∃ c ∈ cp, c.order = 0 ∨ 100 < c.required) :
    planTests s st hd pt cp hc = .inl .range := by
  rcases h with hnumber | hhold | hmass | ⟨c, rfl, hperiod⟩ | ⟨c, hc, hcompanion⟩
  · exact planTests_unnamed hfew (.inl (natIn_outside hnumber))
  · exact planTests_unnamed hfew (.inr (.inl (holdNamed_undeclared hhold)))
  · exact planTests_unnamed hfew (.inr (.inr (.inl (natIn_outside hmass))))
  · exact planTests_unnamed hfew (.inr (.inr (.inr (periodNamed_outside hperiod))))
  · refine planTests_companions hfew fun hok => ?_
    obtain ⟨horder, hrequired⟩ := companionsOk_iff.1 hok c hc
    omega

/-- The fields of a PLAN are numbers of their ranges, and its hold is declared with data `d`. -/
structure PlanNamed (s : State) (n h p : Nat) (cp : List Companion) (c : Option Nat) (d : HoldData) : Prop where
  few : cp.length ≤ 4
  number : 1 ≤ n ∧ n ≤ 48
  hold : h ≤ 9
  declared : holdData s h = some d
  planned : 1 ≤ p ∧ p ≤ 60000
  period : ∀ x, c = some x → 1 ≤ x ∧ x ≤ 3
  companions : ∀ x ∈ cp, x.order ≠ 0 ∧ x.required ≤ 100

section Named

variable {s : State} {n h p : Nat} {cp : List Companion} {c : Option Nat} {d : HoldData} (hnamed : PlanNamed s n h p cp c d)
include hnamed

/-- The tests that follow the ranges: companions, capacity, sequence, state. -/
theorem PlanNamed.tests : planTests s n h p cp (c.map Int.ofNat)
    = if companionsClash cp then .inl .conflict
      else if d.capacity < p then .inl .limit
      else if s.pour.plan.length + 1 < n then .inl .sequence
      else if (stepByNumber s n).any (fun x => x.state != .planned) then .inl .state
      else .inr (Step.planned_ n h p cp c) := by
  have hnumber : natIn 1 48 n = some n := natIn_inside hnamed.number.1 hnamed.number.2
  have hplanned : natIn 1 60000 p = some p := natIn_inside hnamed.planned.1 hnamed.planned.2
  have hok : companionsOk cp = true := companionsOk_iff.2 hnamed.companions
  simp only [planTests, if_neg (not_lt.2 hnamed.few), hnumber, hplanned, holdNamed_declared hnamed.hold hnamed.declared,
    periodNamed_inside hnamed.period, hok, hnamed.declared]
  rfl

theorem PlanNamed.conflict (hclash : ¬(cp.map Companion.order).Nodup) : planTests s n h p cp (c.map Int.ofNat) = .inl .conflict :=
  hnamed.tests.trans (if_pos (companionsClash_iff.2 hclash))

variable (hdiffer : (cp.map Companion.order).Nodup)
include hdiffer

theorem PlanNamed.limit (hover : d.capacity < p) : planTests s n h p cp (c.map Int.ofNat) = .inl .limit := by
  rw [hnamed.tests, if_neg (mt companionsClash_iff.1 (not_not.2 hdiffer)), if_pos hover]

variable (hfits : p ≤ d.capacity)
include hfits

theorem PlanNamed.sequence (hgap : s.pour.plan.length + 1 < n) : planTests s n h p cp (c.map Int.ofNat) = .inl .sequence := by
  rw [hnamed.tests, if_neg (mt companionsClash_iff.1 (not_not.2 hdiffer)), if_neg (not_lt.2 hfits), if_pos hgap]

variable (hnext : n ≤ s.pour.plan.length + 1)
include hnext

theorem PlanNamed.state (h' : (stepByNumber s n).any (fun x => x.state != .planned) = true) :
    planTests s n h p cp (c.map Int.ofNat) = .inl .state := by
  rw [hnamed.tests, if_neg (mt companionsClash_iff.1 (not_not.2 hdiffer)), if_neg (not_lt.2 hfits), if_neg (not_lt.2 hnext), if_pos h']

theorem PlanNamed.accepted (h' : (stepByNumber s n).any (fun x => x.state != .planned) = false) :
    planTests s n h p cp (c.map Int.ofNat) = .inr (Step.planned_ n h p cp c) := by
  rw [hnamed.tests, if_neg (mt companionsClash_iff.1 (not_not.2 hdiffer)), if_neg (not_lt.2 hfits), if_neg (not_lt.2 hnext),
    if_neg (by simp [h'])]

end Named

/-! ### PLAN (R135) -/

theorem plan_refused {s : State} {st hd pt : Int} {cp : List Companion} {hc : Option Int} {oc : Oc}
    (h : planTests s st hd pt cp hc = .inl oc) (k : Nat) : plan k st hd pt cp hc s = reply s .console k oc [] := by
  rw [plan, h]
  rfl

theorem plan_accepted {s : State} {st hd pt : Int} {cp : List Companion} {hc : Option Int} {x : Step}
    (h : planTests s st hd pt cp hc = .inr x) (k : Nat) :
    plan k st hd pt cp hc s = reply (writeStep s x) .console k .ok (stepFields x) := by
  rw [plan, h]

/-- No step of a lawful plan has the number after its last. -/
theorem PourOk.stepByNumber_next {s : State} (h : PourOk s.pour) : stepByNumber s (s.pour.plan.length + 1) = none := by
  refine List.find?_eq_none.2 fun y hy => ?_
  have hlast := (h.number_within hy).2
  simp only [decide_eq_true_eq]
  omega

theorem writeStep_next {s : State} {x : Step} (h : x.number = s.pour.plan.length + 1) :
    writeStep s x = { s with pour := { s.pour with plan := s.pour.plan ++ [x] } } := by
  refine if_neg ?_
  rw [lastStep]
  omega

theorem writeStep_replaces {s : State} {x y : Step} (hpour : PourOk s.pour) (hy : y ∈ s.pour.plan) (h : x.number = y.number) :
    writeStep s x = { s with pour := { s.pour with plan := s.pour.plan.map fun z => if z = y then x else z } } := by
  have hstands : Stands y s := ⟨hpour.numbers_nodup, hy⟩
  have hwithin : y.number ≤ lastStep s := (hpour.number_within hy).2
  rw [writeStep, h, if_pos hwithin, hstands.modStep_eq]

/-! ### PCLR (R136) -/

theorem withoutPlannedTail_append {left tail : List Step} (htail : ∀ x ∈ tail, x.state = .planned)
    (hleft : ∀ y, left.getLast? = some y → y.state ≠ .planned) : withoutPlannedTail (left ++ tail) = left := by
  have hskipped : (left ++ tail).reverse.dropWhile (fun x => decide (x.state = .planned))
      = left.reverse.dropWhile fun x => decide (x.state = .planned) := by
    rw [List.reverse_append]
    exact List.dropWhile_append_of_pos fun x hx => decide_eq_true (htail x (List.mem_reverse.1 hx))
  have hstops : left.reverse.dropWhile (fun x => decide (x.state = .planned)) = left.reverse := by
    cases hrev : left.reverse with
    | nil => rfl
    | cons y rest =>
      have hlast : left.getLast? = some y := by rw [List.getLast?_eq_head?_reverse, hrev, List.head?_cons]
      exact List.dropWhile_cons_of_neg (by simpa using hleft y hlast)
  rw [withoutPlannedTail, hskipped, hstops, List.reverse_reverse]

theorem pclr_tail (k : Nat) {s : State} {left tail : List Step} (hplan : s.pour.plan = left ++ tail) (htail : ∀ x ∈ tail, x.state = .planned)
    (hleft : ∀ y, left.getLast? = some y → y.state ≠ .planned) :
    pclr k none s = reply { s with pour := { s.pour with plan := left } } .console k .ok [(.RV, .num left.length)] := by
  rw [pclr, hplan, withoutPlannedTail_append htail hleft]
  rfl

theorem pclr_range (k : Nat) {s : State} {st : Int} (h : ¬(1 ≤ st ∧ st ≤ s.pour.plan.length)) :
    pclr k (some st) s = reply s .console k .range [] := by
  have hnumber : natIn 1 (lastStep s) st = none := natIn_outside h
  rw [pclr, hnumber]
  rfl

/-- A PCLR from a step of the plan on asks of that step and all after it that they are PLANNED. -/
theorem pclr_from (k : Nat) {s : State} {left tail : List Step} {y : Step} (hplan : s.pour.plan = left ++ y :: tail) :
    pclr k (some (left.length + 1 : Nat)) s = if ∀ x ∈ y :: tail, x.state = .planned
      then reply { s with pour := { s.pour with plan := left } } .console k .ok [(.RV, .num left.length)]
      else reply s .console k .state [] := by
  have hlast : left.length + 1 ≤ lastStep s := by simp [lastStep, hplan]
  have hnumber : natIn 1 (lastStep s) (left.length + 1 : Nat) = some (left.length + 1) := natIn_inside (by omega) hlast
  simp only [pclr, hnumber, hplan, Nat.add_sub_cancel, List.drop_left, List.take_left, List.all_eq_true, decide_eq_true_eq]
  rfl

/-- Settles O47: the tests of PLAN in order, what an accepted PLAN writes, and what PCLR leaves of the plan. -/
theorem planWritesAndClearsSteps : Obligations.PlanWritesAndClearsSteps := by
  refine ⟨fun k s st hd pt cp hc hasked hcall hpour => ?_, fun k s left tail hasked hcall hplan htail hleft => ?_,
    fun k s st hasked hcall => ?_⟩
  · have hexec : exec (.plan k) s = .next (plan k st hd pt cp hc s) :=
      (exec_asked (r := .plan st hd pt cp hc) hasked).trans (congrArg _ (whenAdmitted_inCall hcall .console k _))
    rw [hexec]
    have hrefuse : ∀ {oc}, planTests s st hd pt cp hc = .inl oc →
        Host.Outcome.next (plan k st hd pt cp hc s) = (.next (reply s .console k oc []) : Result) := fun htests =>
      congrArg _ (plan_refused htests k)
    refine ⟨fun hmany => hrefuse (planTests_format hmany), fun hfew => ⟨fun houtside => hrefuse (planTests_range hfew houtside), ?_⟩⟩
    intro n h p c d hst hn hn' hhd hhold hdata hpt hp hp' hhc hperiod hcompanions
    subst hst hhd hpt hhc
    have hnamed : PlanNamed s n h p cp c d := ⟨hfew, ⟨hn, hn'⟩, hhold, hdata, ⟨hp, hp'⟩, hperiod, hcompanions⟩
    refine ⟨fun hclash => hrefuse (hnamed.conflict hclash), fun hdiffer => ⟨fun hover => hrefuse (hnamed.limit hdiffer hover), fun hfits => ?_⟩⟩
    refine ⟨fun hgap => hrefuse (hnamed.sequence hdiffer hfits hgap), fun hnext => ?_, fun y hy hnumber => ?_⟩
    · have hfree : (stepByNumber s n).any (fun x => x.state != .planned) = false := by
        rw [hnext, hpour.stepByNumber_next]
        rfl
      rw [plan_accepted (hnamed.accepted hdiffer hfits hnext.le hfree), writeStep_next hnext]
    · have hstep : stepByNumber s n = some y := hnumber ▸ Stands.stepByNumber ⟨hpour.numbers_nodup, hy⟩
      have hwithin : n ≤ s.pour.plan.length + 1 := hnumber ▸ (hpour.number_within hy).2.trans (Nat.le_succ _)
      refine ⟨fun hstate => hrefuse (hnamed.state hdiffer hfits hwithin (by simp [hstep, hstate])), fun hstate => ?_⟩
      have hplanned : (stepByNumber s n).any (fun x => x.state != .planned) = false := by simp [hstep, hstate]
      rw [plan_accepted (hnamed.accepted hdiffer hfits hwithin hplanned), writeStep_replaces hpour hy hnumber.symm]
  · have hexec : exec (.pclr k) s = .next (pclr k none s) :=
      (exec_asked (r := .pclr none) hasked).trans (congrArg _ (whenAdmitted_inCall hcall .console k _))
    exact hexec.trans (congrArg _ (pclr_tail k hplan htail hleft))
  · have hexec : exec (.pclr k) s = .next (pclr k (some st) s) :=
      (exec_asked (r := .pclr (some st)) hasked).trans (congrArg _ (whenAdmitted_inCall hcall .console k _))
    rw [hexec]
    refine ⟨fun hrange => congrArg _ (pclr_range k hrange), fun left y tail hplan hst => ?_⟩
    have hfrom : st = (left.length + 1 : Nat) := hst
    subst hfrom
    rw [pclr_from k hplan]
    exact ⟨fun ⟨x, hx, hstate⟩ => congrArg _ (if_neg fun hall => hstate (hall x hx)), fun hall => congrArg _ (if_pos hall)⟩

end Sys2Proof.Machine
end

section
/-! PROOFS. SFRC, the halt and the resumption (R147, R152, R153; log 18). -/

namespace Sys2Proof.Machine

/-! ### Steps that stand in the plan -/

/-- Changes that agree on the step are one change. -/
theorem Stands.modStep_congr {s : State} {y : Step} (h : Stands y s) {f g : Step → Step} (hfg : f y = g y) :
    modStep s y.number f = modStep s y.number g := by
  obtain ⟨hn, hy⟩ := h
  have hsame : ∀ z ∈ s.pour.plan, (if z.number = y.number then f z else z) = if z.number = y.number then g z else z := fun z hz =>
    ite_congr rfl (fun hnumber => by rw [List.inj_on_of_nodup_map hn hz hy hnumber, hfg]) fun _ => rfl
  rw [modStep, modStep, List.map_congr_left hsame]

/-- Two changes of one step are one. -/
theorem modStep_modStep (s : State) (n : Nat) {f : Step → Step} (hf : ∀ z, (f z).number = z.number) (g : Step → Step) :
    modStep (modStep s n f) n g = modStep s n fun z => g (f z) := by
  have hplan : (modStep s n f).pour.plan.map (fun z => if z.number = n then g z else z)
      = s.pour.plan.map fun z => if z.number = n then g (f z) else z := by
    refine List.map_map.trans (List.map_congr_left fun z _ => ?_)
    by_cases hz : z.number = n
    · simp [hz, hf]
    · simp [hz]
  rw [modStep, hplan]
  rfl

theorem modHold_plan (s : State) (h : Nat) (f : Hold → Hold) : (modHold s h f).pour.plan = s.pour.plan := by
  unfold modHold
  split <;> rfl

/-- The state of a step that stands in the plan, in the reply to SFRC (log 18). -/
theorem Stands.forcedFields {s : State} {y : Step} (h : Stands y s) : forcedFields s y.number = [(.RV, .num (stepCode y.state))] := by
  rw [Machine.forcedFields, h.stepByNumber]
  rfl

/-! ### The grant -/

/-- A step as a grant leaves it (R149). -/
def grantedStep (s : State) (y : Step) : Step :=
  { y with
    state := .pouring, base := some (((holdRec s y.hold).map Hold.mass).getD 0), lastTally := some 0, grantTime := some (now s)
    holdTimer := none, waitReason := none, replyPending := none }

theorem Stands.grantStep {s : State} {y : Step} (h : Stands y s) : Stands (grantedStep s y) (grantStep s y) := by
  have hstep := h.modStep_self (f := fun z => { z with
    state := .pouring, base := some (((holdRec s y.hold).map Hold.mass).getD 0), lastTally := some 0, grantTime := some (now s)
    holdTimer := none, waitReason := none, replyPending := none }) fun _ => rfl
  rw [Machine.grantStep, Stands, modHold_plan]
  exact hstep

/-- A granted step stands POURING in the plan, whoever is told of it. -/
theorem Stands.grant {s : State} {y : Step} (h : Stands y s) : Stands (grantedStep s y) (grant s y) := by
  have hbegun : Stands (grantedStep s y) (pouringBegun (Machine.grantStep s y)) := h.grantStep
  cases hpending : y.replyPending with
  | none =>
    rw [grant_sends hpending]
    exact hbegun.rechecked nofun (handTerminal_path _ _).rechecksOnly
  | some k =>
    rw [grant_answers hpending]
    exact hbegun.rechecked nofun (reply_path _ .terminal _ _ _).rechecksOnly

/-! ### SFRC (R147) -/

/-- A step whose overshoot is accepted (R147). -/
def overshootTaken (y : Step) : Step := { y with overshootMark := false, overshootAccepted := true }

/-- A step as a resumption leaves it (R153). -/
def pouringAgain (y : Step) : Step := { y with state := .pouring, haltCause := none, loaderStopped := false }

theorem resume_eq (s : State) (y : Step) : resume s y = handTerminal (modStep s y.number pouringAgain) (grnt y) := rfl

theorem reportMet_iff {s : State} : reportMet s = true ↔ s.pour.outstanding = none := Option.isNone_iff_eq_none

theorem sfrc_notCurrent (k : Nat) {s : State} {st : Int} (h : ∀ y, currentStep s = some y → st ≠ y.number) :
    sfrc k st s = reply s .console k .sequence [] := by
  rw [sfrc, currentNamed_eq_none h]
  rfl

section Current

variable (k : Nat) {s : State} {y : Step} (hcurrent : currentStep s = some y)
include hcurrent

theorem sfrc_begun (hstate : y.state = .pouring ∨ y.state = .settling ∨ y.state = .reporting) :
    sfrc k y.number s = reply s .console k .state [] := by
  rcases hstate with hy | hy | hy <;> simp only [sfrc, currentNamed_current hcurrent, hy, refuse]

section Ungranted

variable (hstate : y.state = .planned ∨ y.state = .waiting ∨ y.state = .blocked ∨ y.state = .evaluating)
include hstate

/-- Of the checks of R141 a step that is forced needs report and hull alone. -/
theorem sfrc_ungranted : sfrc k y.number s
    = if !reportMet s then refuse s .console k .busy
      else if !hullMet s then refuse s .console k .limit
      else reply (grant (discardPreviewFor s y.number) y) .console k .ok (forcedFields (grant (discardPreviewFor s y.number) y) y.number) := by
  rcases hstate with hy | hy | hy | hy <;> simp only [sfrc, currentNamed_current hcurrent, hy]

theorem sfrc_busy (hreport : s.pour.outstanding ≠ none) : sfrc k y.number s = reply s .console k .busy [] :=
  (sfrc_ungranted k hcurrent hstate).trans (if_pos (by simpa using mt reportMet_iff.1 hreport))

variable (hreport : s.pour.outstanding = none)
include hreport

theorem sfrc_limit (hhull : ¬hullMet s = true) : sfrc k y.number s = reply s .console k .limit [] := by
  rw [sfrc_ungranted k hcurrent hstate, if_neg (by simp [reportMet_iff.2 hreport]), if_pos (by simpa using hhull)]
  rfl

theorem sfrc_grants (hpour : PourOk s.pour) (hhull : hullMet s = true) :
    sfrc k y.number s = reply (grant (discardPreviewFor s y.number) y) .console k .ok [(.RV, .num 4)] := by
  have hstands : Stands y (discardPreviewFor s y.number) := by
    unfold discardPreviewFor
    split <;> exact Stands.current hpour hcurrent
  have hfields : forcedFields (grant (discardPreviewFor s y.number) y) y.number = [(.RV, .num 4)] := hstands.grant.forcedFields
  rw [sfrc_ungranted k hcurrent hstate, if_neg (by simp [reportMet_iff.2 hreport]), if_neg (by simp [hhull]), hfields]

end Ungranted

section Halted

variable (hstate : y.state = .halted)
include hstate

theorem sfrc_halted_limit (hhull : ¬hullMet s = true) : sfrc k y.number s = reply s .console k .limit [] := by
  simp [sfrc, currentNamed_current hcurrent, hstate, hhull, refuse]

/-- A HALTED step is resumed, its overshoot accepted. -/
theorem sfrc_resumes (hpour : PourOk s.pour) (hhull : hullMet s = true) :
    sfrc k y.number s = reply (handTerminal (modStep s y.number fun z => pouringAgain (overshootTaken z)) (grnt y))
      .console k .ok [(.RV, .num 4)] := by
  have hresumed : resume (modStep s y.number overshootTaken) y
      = handTerminal (modStep s y.number fun z => pouringAgain (overshootTaken z)) (grnt y) := by
    rw [resume_eq]
    exact congrArg (handTerminal · (grnt y)) (modStep_modStep s y.number (f := overshootTaken) (fun _ => rfl) pouringAgain)
  have hpouring : Stands (pouringAgain (overshootTaken y)) (modStep s y.number fun z => pouringAgain (overshootTaken z)) :=
    (Stands.current hpour hcurrent).modStep_self (f := fun z => pouringAgain (overshootTaken z)) fun _ => rfl
  have hfields : forcedFields (handTerminal (modStep s y.number fun z => pouringAgain (overshootTaken z)) (grnt y)) y.number = [(.RV, .num 4)] :=
    (hpouring.rechecked nofun (handTerminal_path _ (grnt y)).rechecksOnly).forcedFields
  have hsfrc : sfrc k y.number s = reply (resume (modStep s y.number overshootTaken) y) .console k .ok
      (forcedFields (resume (modStep s y.number overshootTaken) y) y.number) := by
    simp only [sfrc, currentNamed_current hcurrent, hstate, hhull]
    rfl
  rw [hsfrc, hresumed, hfields]

end Halted

end Current

/-! ### Halt and resumption (R152, R153) -/

theorem halt_notPouring {s : State} (h : ∀ y, currentStep s = some y → y.state ≠ .pouring) (c : HaltCause) : halt s c = s := by
  cases hcurrent : currentStep s with
  | none => rw [halt, hcurrent]
  | some y =>
    rw [halt, hcurrent]
    exact if_neg (h y hcurrent)

/-- A halted step is told to the terminal, raises POUR_HALTED and is reported as it then stands. -/
theorem Stands.haltStep_eq {s : State} {y : Step} (h : Stands y s) (c : HaltCause) :
    Machine.haltStep s y c = trigger (raise (handTerminal (modStep s y.number fun _ => haltedBy c y) (.halt y.number (haltCode c))) 8 (some y.number))
      .exception (some (haltedBy c y)) := by
  have hmod : modStep s y.number (haltedBy c) = modStep s y.number fun _ => haltedBy c y := h.modStep_congr rfl
  have hhalted : Stands (haltedBy c y) (modStep s y.number (haltedBy c)) := h.modStep_self fun _ => rfl
  have hsent : RechecksOnly (modStep s y.number (haltedBy c))
      (raise (handTerminal (modStep s y.number (haltedBy c)) (.halt y.number (haltCode c))) pourHalted (some y.number)) :=
    ((handTerminal_path _ _).andThen (ds := [.terminal, .term, .attention]) (raise_path _ (by decide) _)).rechecksOnly
  have hreported := (hhalted.rechecked nofun hsent).stepByNumber
  rw [← hmod]
  exact congrArg (trigger _ .exception) hreported

/-- The conditions of R153: a HALTED step, the hull check met, no overshoot mark. -/
theorem tryResume_current {s : State} {y : Step} (hcurrent : currentStep s = some y) :
    tryResume s = if y.state = .halted ∧ hullMet s = true ∧ y.overshootMark = false then resume s y else s := by
  rw [tryResume, hcurrent]
  simp [and_assoc]

/-- Settles O51: SFRC by the state of the current step, then the halt and the resumption. -/
theorem stepsAreForcedHaltedAndResumed : Obligations.StepsAreForcedHaltedAndResumed := by
  refine ⟨fun k s st hasked hcall hpour => ?_, fun s cause => ⟨fun hnone => halt_notPouring hnone cause, ?_⟩, fun s => ?_⟩
  · have hexec : exec (.sfrc k) s = .next (sfrc k st s) :=
      (exec_asked (r := .sfrc st) hasked).trans (congrArg _ (whenAdmitted_inCall hcall .console k _))
    rw [hexec]
    refine ⟨fun hother => congrArg _ (sfrc_notCurrent k hother), fun y hcurrent hst => ?_⟩
    subst hst
    intro hull
    have hhull : hullMet s = true ↔ hull := hullMet_iff
    refine ⟨fun hstate => ⟨fun hreport => congrArg _ (sfrc_busy k hcurrent hstate hreport),
        fun hreport hunmet => congrArg _ (sfrc_limit k hcurrent hstate hreport (hhull.not.2 hunmet)),
        fun hreport hmet => congrArg _ (sfrc_grants k hcurrent hstate hreport hpour (hhull.2 hmet))⟩,
      fun hstate => ⟨fun hunmet => congrArg _ (sfrc_halted_limit k hcurrent hstate (hhull.not.2 hunmet)),
        fun hmet => congrArg _ (sfrc_resumes k hcurrent hstate hpour (hhull.2 hmet))⟩,
      fun hstate => congrArg _ (sfrc_begun k hcurrent hstate)⟩
  · intro y hcurrent hstate hpour y'
    exact (halt_pouring hcurrent hstate cause).trans ((Stands.current hpour hcurrent).haltStep_eq cause)
  · intro hull
    have hhull : hullMet s = true ↔ hull := hullMet_iff
    refine ⟨fun hstays => ?_, fun y hcurrent hstate hmark hmet =>
      (tryResume_current hcurrent).trans (if_pos ⟨hstate, hhull.2 hmet, hmark⟩)⟩
    cases hcurrent : currentStep s with
    | none => rw [tryResume, hcurrent]
    | some y =>
      refine (tryResume_current hcurrent).trans (if_neg fun ⟨hstate, hmet, hmark⟩ => ?_)
      rcases hstays y hcurrent with h | h | h
      · exact h hstate
      · simp [hmark] at h
      · exact h (hhull.1 hmet)

end Sys2Proof.Machine
end

section
/-! PROOFS. A free transmitter chooses its next frame: class 1, then the console's NOTEs, then reports (R176, R184, R192, R193). -/

namespace Sys2Proof.Machine

/-! ### The report builder's offer (R176) -/

theorem reportOffer_underWay {s : State} {l : Link} (h : ∃ x ∈ s.reports.queue, linkFlag l x = .sending) : reportOffer s l = none :=
  if_pos (by simpa [isSending] using h)

theorem reportOffer_unlinked {s : State} (h : s.term.state = .detached ∨ s.term.state = .lost) : reportOffer s .terminal = none := by
  unfold reportOffer
  split
  · rfl
  · exact if_pos (by simpa using h)

theorem reportOffer_nonePending {s : State} {l : Link} (h : ∀ x ∈ s.reports.queue, linkFlag l x ≠ .pending) : reportOffer s l = none := by
  have hnone : s.reports.queue.find? (fun x => linkFlag l x = .pending) = none := List.find?_eq_none.2 fun x hx => by simpa using h x hx
  unfold reportOffer
  split
  · rfl
  · split
    · rfl
    · exact hnone

/-- The oldest record that is pending for the link is offered, unless the link is silent. -/
theorem reportOffer_oldest {s : State} {l : Link} {older newer : List Report} {r : Report} (hsent : ¬∃ x ∈ s.reports.queue, linkFlag l x = .sending)
    (hlink : ¬(l = .terminal ∧ (s.term.state = .detached ∨ s.term.state = .lost))) (hqueue : s.reports.queue = older ++ r :: newer)
    (holder : ∀ x ∈ older, linkFlag l x ≠ .pending) (hr : linkFlag l r = .pending) : reportOffer s l = some r := by
  have hfound : s.reports.queue.find? (fun x => linkFlag l x = .pending) = some r := by
    have hnone : older.find? (fun x => linkFlag l x = .pending) = none := List.find?_eq_none.2 fun x hx => by simpa using holder x hx
    rw [hqueue, List.find?_append, hnone, Option.none_or, List.find?_cons, decide_eq_true hr]
  have hfree : ¬(s.reports.queue.any (isSending l) = true) := by simpa [isSending] using hsent
  rw [reportOffer, if_neg hfree, if_neg (by simpa using hlink), hfound]

/-! ### The choice by class (R192) -/

theorem lowerClasses_iff {s : State} {l : Link} : lowerClasses s l = true ↔ ¬(l = .console ∧ s.wrstPending = true) := by simp [lowerClasses, imp_iff_not_or]

/-- A transmission that begins sets the link's transmitter alone. -/
theorem beginTx_setPort (s : State) (l : Link) (p : Port) (f : TxFrame) :
    beginTx (setPort s l p) l f = setPort s l { p with tx := some { frame := f, wire := txBytes f } } := by
  rw [beginTx, portOf_setPort, setPort_setPort]

theorem beginReport_eq (s : State) (l : Link) (r : Report) :
    beginReport s l r = setPort
      { s with reports := { s.reports with queue := s.reports.queue.map fun x => if x.serial = r.serial then withLinkFlag l .sending x else x } } l
      { portOf s l with
        tx := some { frame := .rprt (withLinkFlag l .sending r) (gapOf l s.reports),
                     wire := txBytes (.rprt (withLinkFlag l .sending r) (gapOf l s.reports)) } } := by
  cases l <;> rfl

theorem noteOf_of {a : Attention} {n : Nat} {c : Condition} (h : a.conditions[n]? = some c) :
    noteOf a n = { condition := n, first := c.first, latest := c.latest, count := c.count } := by rw [noteOf, h]

theorem chooseFrame_busy {l : Link} {s : State} (h : (portOf s l).tx ≠ none) : chooseFrame l s = s := by
  obtain ⟨t, ht⟩ := Option.ne_none_iff_exists'.1 h
  rw [chooseFrame, ht]

section Free

variable {l : Link} {s : State} (hfree : (portOf s l).tx = none)
include hfree

theorem chooseFrame_class1 {f : Class1} {rest : List Class1} (hqueue : (portOf s l).queue = f :: rest) :
    chooseFrame l s = setPort s l { portOf s l with queue := rest, tx := some { frame := .class1 f, wire := txBytes (.class1 f) } } := by
  rw [chooseFrame, hfree]
  dsimp only
  rw [hqueue]
  exact beginTx_setPort s l _ _

variable (hqueue : (portOf s l).queue = [])
include hqueue

/-- With a WRST pending the console's transmitter takes class 1 alone (R193). -/
theorem chooseFrame_withheld (h : l = .console ∧ s.wrstPending = true) : chooseFrame l s = s := by
  have hlower : lowerClasses s l = false := Bool.eq_false_iff.2 fun hlower => lowerClasses_iff.1 hlower h
  rw [chooseFrame, hfree]
  dsimp only
  rw [hqueue, hlower]
  rfl

variable (hlower : ¬(l = .console ∧ s.wrstPending = true))
include hlower

theorem chooseFrame_note {n : Nat} {rest : List Nat} (hconsole : l = .console) (howed : s.attention.owed = n :: rest) :
    chooseFrame l s = beginTx (setAttention s { s.attention with owed := rest }) l (.note (noteOf s.attention n)) := by
  rw [chooseFrame, hfree]
  dsimp only
  rw [hqueue, lowerClasses_iff.2 hlower, if_pos hconsole, howed]
  rfl

/-- Where no NOTE is owed the report builder is asked (R176). -/
theorem chooseFrame_asksReports (howed : l = .console → s.attention.owed = []) :
    chooseFrame l s = match reportOffer s l with
      | some r => beginReport s l r
      | none => s := by
  have hnote : (if l = .console then s.attention.owed else []) = [] := by
    split
    · next hconsole => exact howed hconsole
    · rfl
  rw [chooseFrame, hfree]
  dsimp only
  rw [hqueue, lowerClasses_iff.2 hlower, hnote]
  rfl

end Free

/-- Settles O13: each class in turn, and in the lowest the report builder's offer. -/
theorem transmitterChoosesByClass : Obligations.TransmitterChoosesByClass := by
  intro l s hpower
  have hexec : exec (.frameTransmitStart l) s = .next (chooseFrame l s) := event_powered hpower _
  rw [hexec]
  refine ⟨fun hbusy => congrArg _ (chooseFrame_busy hbusy), fun hfree => ⟨fun f rest hqueue => congrArg _ (chooseFrame_class1 hfree hqueue),
    fun hqueue => ⟨fun hwrst => congrArg _ (chooseFrame_withheld hfree hqueue hwrst),
      fun hlower => ⟨fun n rest c hconsole howed hc => ?_, fun howed => ?_⟩⟩⟩⟩
  · rw [chooseFrame_note hfree hqueue hlower hconsole howed, noteOf_of hc]
    subst hconsole
    rfl
  · intro silent
    rw [chooseFrame_asksReports hfree hqueue hlower howed]
    refine ⟨fun hnothing => ?_, fun older r newer hsilent hreports holder hr => ?_⟩
    · have hoffer : reportOffer s l = none := by
        obtain (hsent | ⟨rfl, hlink⟩) | hnone := hnothing
        · exact reportOffer_underWay hsent
        · exact reportOffer_unlinked hlink
        · exact reportOffer_nonePending hnone
      rw [hoffer]
    · obtain ⟨hsent, hlink⟩ := not_or.1 hsilent
      rw [reportOffer_oldest hsent hlink hreports holder hr]
      exact congrArg _ (beginReport_eq s l r)

end Sys2Proof.Machine
end

section
/-! PROOFS. RCFG: its tests in order and the settings it leaves (R168, R169; log 11, 18). -/

namespace Sys2Proof.Machine

/-! ### The fields of an RCFG -/

theorem reportKindNamed_reportCode (k : ReportKind) : reportKindNamed (reportCode k) = some k := by cases k <;> rfl

theorem reportKindNamed_outside {rk : Int} (h : ¬(0 ≤ rk ∧ rk ≤ 3)) : reportKindNamed rk = none := by
  rw [reportKindNamed, if_neg (by omega), if_neg (by omega), if_neg (by omega), if_neg (by omega)]

theorem routeNamed_routeCode (r : Route) : routeNamed (routeCode r) = some r := by cases r <;> rfl

theorem routeNamed_outside {ru : Int} (h : ¬(0 ≤ ru ∧ ru ≤ 2)) : routeNamed ru = none := by
  rw [routeNamed, if_neg (by omega), if_neg (by omega), if_neg (by omega)]

theorem overrideNamed_overrideCode {c : Option Nat} (h : ∀ n, c = some n → n ≤ 15) : overrideNamed (overrideCode c) = some c := by
  cases c with
  | none => rfl
  | some n =>
    have hn : n ≤ 15 := h n rfl
    show overrideNamed (n : Int) = _
    rw [overrideNamed, if_neg (by omega), natUpTo_natCast hn]
    rfl

theorem overrideNamed_outside {ch : Int} (h : ¬(0 ≤ ch ∧ ch ≤ 15)) (hnone : ch ≠ 255) : overrideNamed ch = none := by
  rw [overrideNamed, if_neg hnone, natUpTo_eq_none (by omega)]
  rfl

/-- An absent field is taken, and so is one whose value is the code of something. -/
theorem present_map {α : Type} {f : Int → Option α} {code : α → Int} {x : Option α} (h : ∀ a, x = some a → f (code a) = some a) :
    present f (x.map code) = some x := by
  cases x with
  | none => rfl
  | some a => exact congrArg (Option.map some) (h a rfl)

theorem present_refused {α : Type} {f : Int → Option α} {x : Option Int} (h : ∃ v, x = some v ∧ f v = none) : present f x = none := by
  obtain ⟨v, rfl, hv⟩ := h
  exact congrArg (Option.map some) hv

theorem contentNamed_refused {ic : List Int} (hic : ic ≠ [0]) (h : ∃ x ∈ ic, codeOk x = false) : contentNamed ic = none := by
  rw [contentNamed, if_neg hic, if_neg (by simpa using h)]

/-- A single 0 empties the list; other codes are taken as they are (R169). -/
theorem contentNamed_taken {ic : List Nat} (h : ic.map Int.ofNat = [0] ∨ ∀ x ∈ ic.map Int.ofNat, codeOk x = true) :
    contentNamed (ic.map Int.ofNat) = some (if ic.map Int.ofNat = [0] then [] else ic) := by
  by_cases hempty : ic.map Int.ofNat = [0]
  · rw [contentNamed, if_pos hempty, if_pos hempty]
  · have hback : (ic.map Int.ofNat).map Int.toNat = ic := by
      rw [List.map_map]
      exact List.map_id'' (fun n => Int.toNat_natCast n) ic
    rw [contentNamed, if_neg hempty, if_neg hempty, if_pos (List.all_eq_true.2 (h.resolve_left hempty)), hback]

/-! ### The length mode (R195; log 11) -/

/-- A free value is AUTO or a length of the range (log 11). -/
theorem otherMode_fixed {lm : Int} {n : Nat} (h : otherMode lm = .fixed n) : 4 ≤ n ∧ n ≤ 64 := by
  unfold otherMode at h
  split at h
  · cases h
  · next v _ =>
    have hv := v.isLt
    cases h
    omega

theorem lengthModeWith_fixed {f : RcfgFields} {ll : Option Nat} {old : LengthMode} {n : Nat} (hll : ∀ m, ll = some m → 4 ≤ m ∧ m ≤ 64)
    (hlm : f.lm ≠ none) (h : lengthModeWith f ll old = .fixed n) : 4 ≤ n ∧ n ≤ 64 := by
  unfold lengthModeWith at h
  split at h
  · exact absurd ‹_› hlm
  · split at h
    · cases ll with
      | none => cases h; decide
      | some m => cases h; exact hll m rfl
    · split at h
      · cases h
      · exact otherMode_fixed h

/-! ### The tests (R169) -/

theorem rcfgShape_iff {f : RcfgFields} : rcfgShape f = true ↔ (f.lm = some 1 ↔ f.ll.isSome = true) ∧ f.ic.length ≤ 40 := by
  rw [rcfgShape, Bool.and_eq_true, beq_iff_eq, asksFixed, Bool.eq_iff_iff, decide_eq_true_iff, decide_eq_true_iff]

theorem rcfgTests_format {f : RcfgFields} (h : ¬(f.lm = some 1 ↔ f.ll.isSome = true) ∨ 40 < f.ic.length) (r : Reports) :
    rcfgTests r f = .inl .format := by
  have hshape : rcfgShape f = false := Bool.eq_false_iff.2 fun hshape => by
    obtain ⟨hlm, hic⟩ := rcfgShape_iff.1 hshape
    exact h.elim (fun hno => hno hlm) (Nat.not_lt.2 hic)
  rw [rcfgTests, hshape]
  rfl

section Shaped

variable {f : RcfgFields} (hlm : f.lm = some 1 ↔ f.ll.isSome = true) (hic : f.ic.length ≤ 40)
include hlm hic

/-- One value that cannot be taken refuses the request (R169, tests 2 and 3). -/
theorem rcfgTests_range (h : reportKindNamed f.rk = none ∨ present routeNamed f.ru = none ∨ present overrideNamed f.ch = none
    ∨ present (natIn 4 64) f.ll = none ∨ contentNamed f.ic = none) (r : Reports) : rcfgTests r f = .inl .range := by
  rw [rcfgTests, rcfgShape_iff.2 ⟨hlm, hic⟩]
  split
  · contradiction
  · split
    · simp_all
    · rfl

theorem rcfgTests_taken {k : ReportKind} {ru : Option Route} {ch : Option (Option Nat)} {ll : Option Nat} {content : List Nat}
    (hrk : reportKindNamed f.rk = some k) (hru : present routeNamed f.ru = some ru) (hch : present overrideNamed f.ch = some ch)
    (hll : present (natIn 4 64) f.ll = some ll) (hcontent : contentNamed f.ic = some content) (r : Reports) :
    rcfgTests r f = .inr (k, {
      route := ru.getD (settingsOf r k).route, channel := ch.getD (settingsOf r k).channel,
      lengthMode := lengthModeWith f ll (settingsOf r k).lengthMode, content := if f.ic.isEmpty then (settingsOf r k).content else content }) := by
  rw [rcfgTests, rcfgShape_iff.2 ⟨hlm, hic⟩, hrk, hru, hch, hll, hcontent]
  rfl

theorem rcfgTests_outside (h : ¬(0 ≤ f.rk ∧ f.rk ≤ 3) ∨ (∃ x, f.ru = some x ∧ ¬(0 ≤ x ∧ x ≤ 2))
    ∨ (∃ x, f.ch = some x ∧ ¬(0 ≤ x ∧ x ≤ 15) ∧ x ≠ 255) ∨ (∃ x, f.ll = some x ∧ ¬(4 ≤ x ∧ x ≤ 64)) ∨ (f.ic ≠ [0] ∧ ∃ x ∈ f.ic, codeOk x = false))
    (r : Reports) : rcfgTests r f = .inl .range := by
  refine rcfgTests_range hlm hic ?_ r
  obtain hrk | ⟨x, hx, hru⟩ | ⟨x, hx, hch, hnone⟩ | ⟨x, hx, hll⟩ | ⟨hone, hcode⟩ := h
  · exact .inl (reportKindNamed_outside hrk)
  · exact .inr (.inl (present_refused ⟨x, hx, routeNamed_outside hru⟩))
  · exact .inr (.inr (.inl (present_refused ⟨x, hx, overrideNamed_outside hch hnone⟩)))
  · exact .inr (.inr (.inr (.inl (present_refused ⟨x, hx, natIn_outside hll⟩))))
  · exact .inr (.inr (.inr (.inr (contentNamed_refused hone hcode))))

/-- Fields that name a kind, a route, a channel, a length and a content list are taken; the settings not named stay (R169). -/
theorem rcfgTests_named {rk : ReportKind} {ru : Option Route} {ch : Option (Option Nat)} {ll : Option Nat} {ic : List Nat}
    (hrk : f.rk = reportCode rk) (hru : f.ru = ru.map routeCode) (hch : f.ch = ch.map overrideCode) (hchannel : ∀ n, ch = some (some n) → n ≤ 15)
    (hll : f.ll = ll.map Int.ofNat) (hlength : ∀ n, ll = some n → 4 ≤ n ∧ n ≤ 64) (hcodes : f.ic = ic.map Int.ofNat)
    (hok : f.ic = [0] ∨ ∀ x ∈ f.ic, codeOk x = true) (r : Reports) :
    rcfgTests r f = .inr (rk, {
      route := ru.getD (settingsOf r rk).route, channel := ch.getD (settingsOf r rk).channel,
      lengthMode := lengthModeWith f ll (settingsOf r rk).lengthMode,
      content := if f.ic = [] then (settingsOf r rk).content else if f.ic = [0] then [] else ic }) := by
  have hroute : present routeNamed f.ru = some ru := by
    rw [hru, present_map fun a _ => routeNamed_routeCode a]
  have hoverride : present overrideNamed f.ch = some ch := by
    rw [hch, present_map fun a ha => overrideNamed_overrideCode fun n hn => hchannel n (ha.trans (congrArg some hn))]
  have hnumber : present (natIn 4 64) f.ll = some ll := by
    rw [hll]
    refine present_map fun n hn => ?_
    obtain ⟨hlow, hhigh⟩ := hlength n hn
    exact natIn_inside hlow hhigh
  have hcontent : contentNamed f.ic = some (if f.ic = [0] then [] else ic) := by
    rw [hcodes] at hok ⊢
    exact contentNamed_taken hok
  rw [rcfgTests_taken hlm hic (by rw [hrk, reportKindNamed_reportCode]) hroute hoverride hnumber hcontent]
  simp only [List.isEmpty_iff]

end Shaped

/-! ### RCFG -/

theorem rcfg_refused {s : State} {f : RcfgFields} {oc : Oc} (h : rcfgTests s.reports f = .inl oc) (k : Nat) :
    rcfg k f s = reply s .console k oc [] := by
  rw [rcfg, h]
  rfl

theorem rcfg_accepted {s : State} {f : RcfgFields} {kind : ReportKind} {x : ReportSettings} (h : rcfgTests s.reports f = .inr (kind, x)) (k : Nat) :
    rcfg k f s = reply { s with reports := withSettings s.reports kind x } .console k .ok (settingsFields x) := by
  rw [rcfg, h]
  rfl

theorem settingsOf_withSettings (r : Reports) (k : ReportKind) (x : ReportSettings) : settingsOf (withSettings r k x) k = x := by cases k <;> rfl

theorem settingsOf_withSettings_ne {k other : ReportKind} (h : other ≠ k) (r : Reports) (x : ReportSettings) :
    settingsOf (withSettings r k x) other = settingsOf r other := by
  cases k <;> cases other <;> simp [settingsOf, withSettings] at h ⊢

end Sys2Proof.Machine
end

section
/-! PROOFS. Triggers and RREQ: serials, a record that joins the queue, and the oldest one discarded from a full queue (R171 to R175, R179; log 48). -/

namespace Sys2Proof.Machine

/-! ### Serials (R173) -/

theorem nextSerial_exhausted {s : State} {k : ReportKind} (hk : k ≠ .departure)
    (h : s.reports.counter = none ∨ ∃ n, s.reports.counter = some n ∧ 65534 ≤ n) : nextSerial s k = none := by
  obtain hnone | ⟨n, hn, hmax⟩ := h
  · rw [nextSerial, hnone]
  · simp [nextSerial, hn, hk, hmax]

theorem nextSerial_next {s : State} {n : Nat} (h : s.reports.counter = some n) (hn : n < 65534) (k : ReportKind) : nextSerial s k = some (n + 1) := by
  simp [nextSerial, h, Nat.not_le.2 hn]

/-! ### What a recheck leaves (R145) -/

theorem recheck_reports (s : State) : (recheck s).reports = s.reports := (recheck_path s).changesOnly .reports (by decide)

theorem recheck_attention (s : State) : (recheck s).attention = s.attention := (recheck_path s).changesOnly .attention (by decide)

theorem enterEvaluating_outstanding (s : State) (y : Step) (k : Option Nat) :
    (enterEvaluating s y k).pour.outstanding = s.pour.outstanding := by
  unfold enterEvaluating
  dsimp only
  split
  · have hpour : ∀ (u : State) (e : PreviewEntry), (placePreview u e).pour = u.pour := fun u e =>
      (choose_path _).changesOnly .pour (by decide)
    rw [askGate, hpour]
    rfl
  · rfl

theorem recheck_outstanding (s : State) : (recheck s).pour.outstanding = s.pour.outstanding := by
  unfold recheck
  split
  · rfl
  · split
    · rfl
    · exact enterEvaluating_outstanding s _ none

/-! ### The queue (R174, R175) -/

/-- The state after a record `x` has joined the queue and the oldest one, `old`, been discarded from it, before the recheck (R175; log 48). -/
def afterDiscard (s : State) (old : Report) (rest : List Report) (x : Report) : State :=
  { s with
    reports := { s.reports with
      queue := rest ++ [x]
      counter := some x.serial
      consoleGap := if old.consoleFlag = .pending then min 255 (s.reports.consoleGap + 1) else s.reports.consoleGap
      terminalGap := if old.terminalFlag = .pending then min 255 (s.reports.terminalGap + 1) else s.reports.terminalGap }
    attention := if old.consoleFlag = .pending ∨ old.terminalFlag = .pending then raiseIn s.attention 12 (some old.serial) else s.attention
    pour := if s.pour.outstanding = some old.serial then { s.pour with outstanding := none } else s.pour }

theorem joinQueue_room {s : State} (h : s.reports.queue.length < 8) (x : Report) :
    joinQueue s x = { s with reports := { s.reports with queue := s.reports.queue ++ [x], counter := some x.serial } } := by
  cases hqueue : s.reports.queue with
  | nil =>
    rw [joinQueue, hqueue]
    rfl
  | cons y rest =>
    rw [hqueue] at h
    rw [joinQueue, hqueue]
    exact if_pos h

theorem discardCounts_iff {x : Report} : discardCounts x = true ↔ x.consoleFlag = .pending ∨ x.terminalFlag = .pending := by simp [discardCounts]

theorem raiseGap_eq (s : State) (x : Report) :
    (if discardCounts x = true then raise s reportGap (some x.serial) else s) = { s with
      attention := if x.consoleFlag = .pending ∨ x.terminalFlag = .pending then raiseIn s.attention 12 (some x.serial) else s.attention } := by
  simp only [← discardCounts_iff]
  split <;> rfl

/-- The pour gate forgets the serial of the record that left, and a WAITING step is rechecked (R141, R145). -/
theorem recordLeft_eq (s : State) (serial : Nat) : recordLeft s serial = recheck { s with
    pour := if s.pour.outstanding = some serial then { s.pour with outstanding := none } else s.pour } := by
  refine congrArg recheck ?_
  split <;> rfl

theorem joinQueue_full {s : State} {old : Report} {rest : List Report} (hqueue : s.reports.queue = old :: rest) (hfull : rest.length = 7) (x : Report) :
    joinQueue s x = recheck (afterDiscard s old rest x) := by
  have hroom : ¬rest.length + 1 < Config.reportQueueMax := by
    rw [hfull]
    decide
  rw [joinQueue, hqueue]
  dsimp only
  rw [if_neg hroom, raiseGap_eq, recordLeft_eq]
  rfl

/-! ### Triggers -/

theorem trigger_exhausted {s : State} {k : ReportKind} (h : nextSerial s k = none) (y : Option Step) : trigger s k y = s := by rw [trigger, h]

theorem trigger_serial {s : State} {k : ReportKind} {n : Nat} (h : nextSerial s k = some n) (y : Option Step) :
    trigger s k y = joinQueue s (compose s k y n) := by rw [trigger, h]

/-- A discard of a record that some link still waits for raises REPORT_GAP (R175; log 48). -/
theorem afterDiscard_gap {s : State} (h : AttentionOk s.attention) {old : Report} (hgap : old.consoleFlag = .pending ∨ old.terminalFlag = .pending)
    (rest : List Report) (x : Report) : isPending (afterDiscard s old rest x).attention 12 = true := by
  obtain ⟨hlength, -⟩ := h
  obtain ⟨c, hc⟩ : ∃ c, s.attention.conditions[12]? = some c := ⟨_, List.getElem?_eq_getElem (by omega)⟩
  rw [afterDiscard, if_pos hgap]
  exact isPending_raiseIn hc _

/-! ### RREQ (R179) -/

theorem rreq_exhausted {s : State} (h : nextSerial s .survey = none) (k : Nat) : rreq k s = reply s .console k .limit [] := by
  rw [rreq, h]
  rfl

theorem rreq_serial {s : State} {n : Nat} (h : nextSerial s .survey = some n) (k : Nat) :
    rreq k s = reply (joinQueue s (compose s .survey none n)) .console k .ok
      [(.SR, .num n), (.QN, .num (joinQueue s (compose s .survey none n)).reports.queue.length)] := by
  rw [rreq, h]
  dsimp only
  rw [trigger_serial h]

end Sys2Proof.Machine
end

section
/-! PROOFS. A composed record: its content list expanded, its places filled, and the values of its items; the range of a content code (R169 to R172). -/

namespace Sys2Proof.Machine

/-! ### Codes (R169, R170) -/

theorem familyOf_code (f : Nat) {i : Nat} (h : i < 256) : familyOf (f * 256 + i) = f := by
  unfold familyOf
  omega

theorem indexOf_code (f : Nat) {i : Nat} (h : i < 256) : indexOf (f * 256 + i) = i := by
  unfold indexOf
  omega

/-- The table of R170: the index range of each family. -/
theorem familyRange_iff {f lo hi : Nat} : familyRange f = some (lo, hi) ↔
    (1 ≤ f ∧ f ≤ 3 ∧ lo = 0 ∧ hi = 23) ∨ (4 ≤ f ∧ f ≤ 5 ∧ lo = 1 ∧ hi = 9) ∨ (6 ≤ f ∧ f ≤ 9 ∧ lo = 1 ∧ hi = 12)
      ∨ (f = 10 ∧ lo = 0 ∧ hi = 10) ∨ (11 ≤ f ∧ f ≤ 12 ∧ lo = 1 ∧ hi = 4) ∨ (f = 13 ∧ lo = 0 ∧ hi = 3) := by
  rcases Nat.lt_or_ge f 14 with hin | hout
  · interval_cases f <;> simp [familyRange] <;> omega
  · have hnone : familyRange f = none := by
      obtain ⟨n, rfl⟩ := Nat.exists_eq_add_of_le' hout
      rfl
    simp only [hnone, reduceCtorEq, false_iff]
    omega

theorem codeOk_natCast {n : Nat} (h : n ≤ 65535) :
    codeOk n = true ↔ ∃ lo hi, familyRange (familyOf n) = some (lo, hi) ∧ (indexOf n = 255 ∨ (lo ≤ indexOf n ∧ indexOf n ≤ hi)) := by
  rw [codeOk, natUpTo_natCast h]
  dsimp only
  cases hrange : familyRange (familyOf n) with
  | none => simp
  | some range =>
    obtain ⟨lo, hi⟩ := range
    simp [inRange_iff]

/-- A content code names a family of R170 and an index of its range, or 0xFF. -/
theorem codeOk_iff {x : Int} : codeOk x = true ↔ ∃ family index : Nat, x = family * 256 + index
    ∧ ((1 ≤ family ∧ family ≤ 3 ∧ index ≤ 23)
      ∨ (4 ≤ family ∧ family ≤ 5 ∧ 1 ≤ index ∧ index ≤ 9)
      ∨ (6 ≤ family ∧ family ≤ 9 ∧ 1 ≤ index ∧ index ≤ 12)
      ∨ (family = 10 ∧ index ≤ 10)
      ∨ (11 ≤ family ∧ family ≤ 12 ∧ 1 ≤ index ∧ index ≤ 4)
      ∨ (family = 13 ∧ index ≤ 3)
      ∨ (1 ≤ family ∧ family ≤ 13 ∧ index = 255)) := by
  constructor
  · intro hok
    have hword : 0 ≤ x ∧ x ≤ 65535 := natUpTo_range (hi := 65535) fun hnone => by
      rw [codeOk, hnone] at hok
      cases hok
    obtain ⟨n, rfl⟩ := Int.eq_ofNat_of_zero_le hword.1
    obtain ⟨lo, hi, hrange, hindex⟩ := (codeOk_natCast (by omega)).1 hok
    refine ⟨familyOf n, indexOf n, ?_, ?_⟩
    · unfold familyOf indexOf
      omega
    · have htable := familyRange_iff.1 hrange
      obtain hwhole | hindex := hindex
      · exact .inr (.inr (.inr (.inr (.inr (.inr ⟨by omega, by omega, hwhole⟩)))))
      · rcases htable with h | h | h | h | h | h
        · exact .inl (by omega)
        · exact .inr (.inl (by omega))
        · exact .inr (.inr (.inl (by omega)))
        · exact .inr (.inr (.inr (.inl (by omega))))
        · exact .inr (.inr (.inr (.inr (.inl (by omega)))))
        · exact .inr (.inr (.inr (.inr (.inr (.inl (by omega))))))
  · rintro ⟨family, index, rfl, h⟩
    have hindex : index < 256 := by omega
    have hcode : codeOk ((family * 256 + index : Nat) : Int) = true := by
      refine (codeOk_natCast (by omega)).2 ?_
      rw [familyOf_code family hindex, indexOf_code family hindex]
      rcases h with h | h | h | h | h | h | h
      · exact ⟨0, 23, familyRange_iff.2 (by omega), by omega⟩
      · exact ⟨1, 9, familyRange_iff.2 (by omega), by omega⟩
      · exact ⟨1, 12, familyRange_iff.2 (by omega), by omega⟩
      · exact ⟨0, 10, familyRange_iff.2 (by omega), by omega⟩
      · exact ⟨1, 4, familyRange_iff.2 (by omega), by omega⟩
      · exact ⟨0, 3, familyRange_iff.2 (by omega), by omega⟩
      · obtain ⟨hlow, hhigh, rfl⟩ := h
        obtain ⟨lo, hi, hrange⟩ : ∃ lo hi, familyRange family = some (lo, hi) := by interval_cases family <;> exact ⟨_, _, rfl⟩
        exact ⟨lo, hi, hrange, .inl rfl⟩
    exact_mod_cast hcode

/-! ### The expansion of a content list (R170) -/

/-- The indices that 0xFF stands for, with profile `p` in force. -/
def wholeIndices (p : Profile) (family : Nat) : List Nat :=
  if family = 1 ∨ family = 2 ∨ family = 3 then List.range p.tanks.length
  else if family = 4 ∨ family = 5 then (List.range p.holds.length).map fun i => i + 1
  else if family = 6 ∨ family = 7 ∨ family = 8 ∨ family = 9 then (List.range p.frames.length).map fun i => i + 1
  else if family = 10 then List.range 11
  else if family = 11 ∨ family = 12 then (List.range 4).map fun i => i + 1
  else if family = 13 then List.range 4 else []

theorem wholeFamily_eq {s : State} {p : Profile} (h : s.profile = .valid p) (family : Nat) : wholeFamily s family = wholeIndices p family := by
  rw [wholeFamily, profileOf_of_valid h, wholeIndices]
  dsimp only
  split <;> simp_all

theorem expand_eq {s : State} {p : Profile} (h : s.profile = .valid p) (content : List Nat) :
    expand s content = content.flatMap fun code =>
      if code % 256 = 255 then (wholeIndices p (code / 256)).map fun i => code / 256 * 256 + i else [code] := by
  simp only [expand, wholeFamily_eq h]
  rfl

/-! ### The places of a record (R172) -/

theorem itemPlaces_length (items : List Item) (n : Nat) : (itemPlaces items n).length = n := padTo_length (List.length_take_le n items) nullItem

/-- A place holds its item, and a NULL item past the last one. -/
theorem itemPlaces_getElem? (items : List Item) {j n : Nat} (h : j < n) : (itemPlaces items n)[j]? = some (items[j]?.getD nullItem) := by
  rw [itemPlaces, padTo, List.getElem?_append, List.length_take]
  by_cases hj : j < items.length
  · rw [if_pos (by omega), List.getElem?_take_of_lt h, List.getElem?_eq_getElem hj]
    rfl
  · rw [if_neg (by omega), List.getElem?_replicate, if_pos (by omega), List.getElem?_eq_none (by omega)]
    rfl

/-! ### The values of items (R170, R171) -/

theorem declaredHold_undeclared {s : State} {h : Nat} (hnone : holdData s h = none) : declaredHold s h = none := by
  rw [declaredHold, hnone]
  rfl

theorem declaredHold_declared {s : State} {h : Nat} {d : HoldData} {r : Hold} (hlow : 1 ≤ h) (hdata : holdData s h = some d)
    (hrec : s.pour.holds[h - 1]? = some r) : declaredHold s h = some r := by
  have hheld : holdRec s h = some r := by rw [holdRec, if_neg (by omega), hrec]
  rw [declaredHold, hdata]
  exact hheld

theorem frameItem_notLive {s : State} (h : s.hull.live = none) (g : EvalResult → List (Option Int)) (f : Nat) : frameItem s g f = none := by
  simp [frameItem, h]

theorem frameItem_live {s : State} {r : EvalResult} (h : s.hull.live = some r) (g : EvalResult → List (Option Int)) {f : Nat} (hlow : 1 ≤ f) :
    frameItem s g f = ((g r)[f - 1]?).join := by
  rw [frameItem, if_neg (by omega), h]
  rfl

theorem hullItem_band (s : State) : hullItem s 8 = some (bandCode (hullBand s)) := rfl

theorem hullItem_notLive {s : State} (h : s.hull.live = none) {i : Nat} (hi : i ≠ 8) : hullItem s i = none := by
  rw [hullItem, if_neg hi, h]
  rfl

theorem hullItem_live {s : State} {r : EvalResult} (h : s.hull.live = some r) : (List.range 11).map (hullItem s) =
    [some r.displacement, some r.tMean, some r.tAft, some r.tFwd, some r.trim, some r.lcg, some r.peak, some (peakSourceCode r.peakSource),
      some (bandCode (some r.band)), some r.ballast, some r.cargo] := by
  simp [List.range_succ, hullItem, hullBand, h]

section Values

variable (s : State) (y : Option Step) {i : Nat} (hi : i < 256)
include hi

theorem itemValue_tank : itemValue s y (1 * 256 + i) = (s.tanks[i]?).map (fun t => (t.level : Int))
    ∧ itemValue s y (2 * 256 + i) = (s.tanks[i]?).map (fun t => (t.mass : Int))
    ∧ itemValue s y (3 * 256 + i) = (s.tanks[i]?).map fun t => gaugeCode t.gauge := by
  refine ⟨?_, ?_, ?_⟩ <;> rw [itemValue, familyOf_code _ hi, indexOf_code _ hi] <;> rfl

theorem itemValue_hold : itemValue s y (4 * 256 + i) = (declaredHold s i).map (fun h => (h.mass : Int))
    ∧ itemValue s y (5 * 256 + i) = (declaredHold s i).map fun h => holdSourceCode h.source := by
  refine ⟨?_, ?_⟩ <;> rw [itemValue, familyOf_code _ hi, indexOf_code _ hi] <;> rfl

theorem itemValue_frame : itemValue s y (6 * 256 + i) = frameItem s EvalResult.sf i ∧ itemValue s y (7 * 256 + i) = frameItem s EvalResult.bm i
    ∧ itemValue s y (8 * 256 + i) = frameItem s EvalResult.sfUtil i ∧ itemValue s y (9 * 256 + i) = frameItem s EvalResult.bmUtil i := by
  refine ⟨?_, ?_, ?_, ?_⟩ <;> rw [itemValue, familyOf_code _ hi, indexOf_code _ hi] <;> rfl

theorem itemValue_hull : itemValue s y (10 * 256 + i) = hullItem s i := by
  rw [itemValue, familyOf_code _ hi, indexOf_code _ hi]
  rfl

theorem itemValue_pump : itemValue s y (11 * 256 + i) = (pumpRec s i).map (fun p => pumpCode p.state)
    ∧ itemValue s y (12 * 256 + i) = (pumpRec s i).map fun p => ((min 2147483647 p.runSeconds : Nat) : Int) := by
  refine ⟨?_, ?_⟩ <;> rw [itemValue, familyOf_code _ hi, indexOf_code _ hi] <;> rfl

theorem itemValue_step : itemValue s y (13 * 256 + i) = stepItem y i := by
  rw [itemValue, familyOf_code _ hi, indexOf_code _ hi]
  rfl

end Values

/-! ### The record (R171, R172, R174) -/

theorem reportLength_auto (n : Nat) : reportLength .auto n = min 64 (max 4 (4 * ((n + 3) / 4))) := by rw [reportLength, Nat.mul_comm]

theorem consoleFlagOf_eq (r : Route) : consoleFlagOf r = if r = .terminal then .clear else .pending := by cases r <;> rfl

theorem terminalFlagOf_eq (r : Route) : terminalFlagOf r = if r = .console then .clear else .pending := by cases r <;> rfl

/-- A flag of the live result, clear without one. -/
theorem liveFlag_iff (live : Option EvalResult) (g : EvalResult → Bool) : (live.map g).getD false = true ↔ ∃ r, live = some r ∧ g r = true := by
  cases live <;> simp

section Composed

variable (s : State) (k : ReportKind) (y : Option Step) (serial : Nat)

theorem compose_length : (compose s k y serial).items.length
    = reportLength (settingsOf s.reports k).lengthMode (expand s (settingsOf s.reports k).content).length := itemPlaces_length _ _

variable {j : Nat} (hj : j < reportLength (settingsOf s.reports k).lengthMode (expand s (settingsOf s.reports k).content).length)
include hj

theorem compose_item {c : Nat} (hc : (expand s (settingsOf s.reports k).content)[j]? = some c) :
    (compose s k y serial).items[j]? = some { code := c, value := itemValue s y c } := by
  rw [compose]
  dsimp only
  rw [itemPlaces_getElem? _ hj, List.getElem?_map, hc]
  rfl

theorem compose_null (h : (expand s (settingsOf s.reports k).content).length ≤ j) :
    (compose s k y serial).items[j]? = some { code := 0, value := some 0 } := by
  rw [compose]
  dsimp only
  rw [itemPlaces_getElem? _ hj, List.getElem?_map, List.getElem?_eq_none h]
  rfl

end Composed

end Sys2Proof.Machine
end

section
/-! PROOFS. The settlement of the report requests: RCFG, RREQ, the trigger, the composed record and its items (R168 to R175, R179; log 11, 18, 48). -/

namespace Sys2Proof.Machine

/-! ### RCFG (R169) -/

section Configured

variable {k : Nat} {s : State} {f : RcfgFields} (hasked : Asked s .console k (.rcfg f))
include hasked

theorem exec_rcfg : exec (.rcfg k) s = .next (rcfg k f s) := exec_asked (r := .rcfg f) hasked

theorem exec_rcfg_refused {oc : Oc} (h : rcfgTests s.reports f = .inl oc) : exec (.rcfg k) s = .next (reply s .console k oc []) := by
  rw [exec_rcfg hasked, rcfg_refused h]

end Configured

/-! ### RREQ (R179) -/

section Requested

variable {k : Nat} {s : State} (hasked : Asked s .console k .rreq) (hcall : s.call = .inCall)
include hasked hcall

theorem exec_rreq : exec (.rreq k) s = .next (rreq k s) :=
  (exec_asked (r := .rreq) hasked).trans (congrArg _ (whenAdmitted_inCall hcall .console k _))

variable {n : Nat} (hcounter : s.reports.counter = some n) (hn : n < 65534)
include hcounter hn

theorem exec_rreq_room (hroom : s.reports.queue.length < 8) : exec (.rreq k) s = .next (reply
    { s with reports := { s.reports with queue := s.reports.queue ++ [compose s .survey none (n + 1)], counter := some (n + 1) } }
    .console k .ok [(.SR, .num (n + 1 : Nat)), (.QN, .num (s.reports.queue.length + 1 : Nat))]) := by
  rw [exec_rreq hasked hcall, rreq_serial (nextSerial_next hcounter hn .survey), joinQueue_room hroom]
  dsimp only
  rw [List.length_append]
  rfl

theorem exec_rreq_full {old : Report} {rest : List Report} (hqueue : s.reports.queue = old :: rest) (hfull : rest.length = 7) :
    exec (.rreq k) s = .next (reply (recheck (afterDiscard s old rest (compose s .survey none (n + 1))))
      .console k .ok [(.SR, .num (n + 1 : Nat)), (.QN, .num 8)]) := by
  have hcount : (rest ++ [compose s .survey none (n + 1)]).length = 8 := by rw [List.length_append, hfull, List.length_singleton]
  rw [exec_rreq hasked hcall, rreq_serial (nextSerial_next hcounter hn .survey), joinQueue_full hqueue hfull, recheck_reports]
  dsimp only [afterDiscard]
  rw [hcount]
  rfl

end Requested

/-! ### The statement -/

/-- Settles O54: RCFG by its tests, RREQ and the trigger by the serials left and the room of the queue, then the record and its items place by place. -/
theorem reportRequestsAreAnswered : Obligations.ReportRequestsAreAnswered := by
  refine ⟨fun k s f hasked => ⟨fun h => exec_rcfg_refused hasked (rcfgTests_format h _), fun hlm hic =>
      ⟨fun h => exec_rcfg_refused hasked (rcfgTests_outside hlm hic h _), ?_⟩⟩,
    fun k s hasked hcall => ⟨?_, fun n hcounter hn => ⟨fun hroom => exec_rreq_room hasked hcall hcounter hn hroom, ?_⟩⟩,
    fun s k y hk => ⟨?_, fun n hcounter hn => ⟨?_, ?_⟩⟩, fun s p k y serial hp => ?_, fun s y => ?_, fun x => codeOk_iff⟩
  · intro rk ru ch ll ic hrk hru hch hchannel hll hlength hcodes hok old
    have htests := rcfgTests_named hlm hic hrk hru hch hchannel hll hlength hcodes hok s.reports
    refine ⟨lengthModeWith f ll old.lengthMode, ?_, ?_, ?_, fun n hsome hfixed => lengthModeWith_fixed hlength hsome hfixed, ?_⟩
    · intro hnone
      rw [lengthModeWith, hnone]
    · intro hauto
      rw [lengthModeWith, hauto]
      rfl
    · intro n hfixed hn
      rw [lengthModeWith, hfixed, hn]
      rfl
    · exact ⟨(exec_rcfg hasked).trans (congrArg _ (rcfg_accepted htests k)), settingsOf_withSettings _ _ _,
        fun other hne => settingsOf_withSettings_ne hne _ _⟩
  · intro hexhausted
    rw [exec_rreq hasked hcall, rreq_exhausted (nextSerial_exhausted nofun hexhausted)]
  · intro old rest hqueue hfull
    refine ⟨_, exec_rreq_full hasked hcall hcounter hn hqueue hfull, ?_⟩
    rw [recheck_reports, recheck_attention, recheck_outstanding]
    exact ⟨rfl, rfl, rfl, rfl, fun hattention hgap => afterDiscard_gap hattention hgap _ _, fun hout => by rw [afterDiscard, if_pos hout]⟩
  · exact fun hexhausted => trigger_exhausted (nextSerial_exhausted hk hexhausted) y
  · exact fun hroom => (trigger_serial (nextSerial_next hcounter hn k) y).trans (joinQueue_room hroom _)
  · exact fun old rest hqueue hfull => (trigger_serial (nextSerial_next hcounter hn k) y).trans (joinQueue_full hqueue hfull _)
  · intro x set from1 whole codes length
    have hcodes : expand s set.content = codes := expand_eq hp set.content
    have hlength : reportLength set.lengthMode (expand s set.content).length = length := by
      rw [hcodes]
      show _ = (match set.lengthMode with | .auto => min 64 (max 4 (4 * ((codes.length + 3) / 4))) | .fixed l => l)
      cases set.lengthMode with
      | auto => exact reportLength_auto _
      | fixed l => rfl
    refine ⟨rfl, rfl, ?_, ?_, (compose_length s k y serial).trans hlength, fun j c hj hc => ?_, fun j hj hnull => ?_,
      liveFlag_iff s.hull.live EvalResult.tableLow, liveFlag_iff s.hull.live EvalResult.tableHigh, rfl, rfl, ?_, consoleFlagOf_eq set.route,
      terminalFlagOf_eq set.route⟩
    · cases k <;> rfl
    · rw [← hlength, ← hcodes]
      exact decide_eq_true_iff
    · exact compose_item s k y serial (hlength ▸ hj) (hcodes ▸ hc)
    · exact compose_null s k y serial (hlength ▸ hj) (hcodes ▸ hnull)
    · cases y <;> rfl
  · intro item
    refine ⟨fun i hi hnone => ?_, fun i t hi htank => ?_, fun h hlow hhigh hnone => ?_, fun h d r hlow hhigh hdata hrec => ?_,
      fun hlive => ⟨?_, fun i hi hband => ?_, fun f hlow hhigh => ?_⟩, fun r hlive => ⟨?_, fun f hlow hhigh => ?_⟩,
      fun n q hlow hhigh hpump => ?_, fun hnone i hi => ?_, fun z hstep => ?_⟩
    · have hvalues := itemValue_tank s y (i := i) (by omega)
      rwa [hnone] at hvalues
    · have hvalues := itemValue_tank s y (i := i) (by omega)
      rwa [htank] at hvalues
    · have hvalues := itemValue_hold s y (i := h) (by omega)
      rwa [declaredHold_undeclared hnone] at hvalues
    · have hvalues := itemValue_hold s y (i := h) (by omega)
      rwa [declaredHold_declared hlow hdata hrec] at hvalues
    · have hvalue := itemValue_hull s y (i := 8) (by omega)
      rwa [hullItem_band, hullBand, hlive] at hvalue
    · exact (itemValue_hull s y (by omega)).trans (hullItem_notLive hlive hband)
    · have hvalues := itemValue_frame s y (i := f) (by omega)
      simp only [frameItem_notLive hlive] at hvalues
      exact hvalues
    · refine Eq.trans (List.map_congr_left fun i hi => ?_) (hullItem_live hlive)
      have hindex : i < 11 := List.mem_range.1 hi
      exact itemValue_hull s y (by omega)
    · have hvalues := itemValue_frame s y (i := f) (by omega)
      simp only [frameItem_live hlive _ hlow] at hvalues
      exact hvalues
    · have hvalues := itemValue_pump s y (i := n) (by omega)
      rwa [pumpRec_of hlow hpump] at hvalues
    · subst hnone
      exact itemValue_step s none (by omega)
    · subst hstep
      have hvalue : ∀ i < 4, item (13 * 256 + i) = stepItem (some z) i := fun i hi => itemValue_step s (some z) (by omega)
      exact ⟨hvalue 0 (by decide), hvalue 1 (by decide), hvalue 2 (by decide), hvalue 3 (by decide)⟩

end Sys2Proof.Machine
end

section
/-! PROOFS. What the operations of the attention unit do to a record, to the owed notices and to the mask (R182 to R186). -/

namespace Sys2Proof.Machine

/-! ### A record changed, and a notice owed (R184) -/

theorem modCond_getElem?_self {a : Attention} {n : Nat} {c : Condition} (h : a.conditions[n]? = some c) (f : Condition → Condition) :
    (modCond a n f).conditions[n]? = some (f c) := by
  rw [modCond_getElem?, if_pos rfl, h]
  rfl

theorem modCond_getElem?_other (a : Attention) {n m : Nat} (h : m ≠ n) (f : Condition → Condition) :
    (modCond a n f).conditions[m]? = a.conditions[m]? := by rw [modCond_getElem?, if_neg h.symm]

@[simp] theorem owe_conditions (a : Attention) (n : Nat) : (owe a n).conditions = a.conditions := by
  unfold owe
  split <;> rfl

@[simp] theorem owe_mask (a : Attention) (n : Nat) : (owe a n).mask = a.mask := by
  unfold owe
  split <;> rfl

theorem owe_owed_new {a : Attention} {n : Nat} (henabled : enabled a n = true) (hnew : n ∉ a.owed) : (owe a n).owed = a.owed ++ [n] := by
  simp [owe, henabled, hnew]

theorem owe_owed_kept {a : Attention} {n : Nat} (h : enabled a n = false ∨ n ∈ a.owed) : (owe a n).owed = a.owed := by
  rcases h with hdisabled | howed
  · simp [owe, hdisabled]
  · simp [owe, howed]

/-! ### Raised and reported conditions (R182, R183) -/

section Reported

variable {a : Attention} {n : Nat} {c : Condition} (hc : a.conditions[n]? = some c)
include hc

theorem raiseIn_first (detail : Option Nat) (h : c.pending = false) :
    raiseIn a n detail = owe (modCond a n fun c => { c with pending := true, count := 1, first := detail, latest := detail }) n := by
  simp [raiseIn, hc, h]

theorem raiseIn_again (detail : Option Nat) (h : c.pending = true) :
    raiseIn a n detail = modCond a n fun c => { c with count := countUp c.count, latest := detail } := by
  simp [raiseIn, hc, h]

theorem causeIn_repeated : causeIn a n c.cause = a := by simp [causeIn, hc]

theorem causeIn_begins (h : c.cause = false) :
    causeIn a n true = owe (modCond a n fun c => { c with pending := true, cause := true, count := countUp c.count }) n := by
  simp [causeIn, hc, h]

theorem causeIn_stops (h : c.cause = true) :
    causeIn a n false = withdrawNotice (modCond a n fun c => { c with pending := false, cause := false }) n := by
  simp [causeIn, hc, h]

end Reported

/-! ### The mask replaced (R185) -/

theorem getLsbD_ofNat_14 (n c : Nat) : (BitVec.ofNat 14 n).getLsbD c = (decide (c < 14) && n.testBit c) := BitVec.getLsbD_ofNat 14 n c

/-- The conditions newly enabled by a mask and pending, in rising number. -/
def newlyOwed (a : Attention) (mask : BitVec 14) : List Nat :=
  (List.range 14).filter fun n => mask.getLsbD n && !enabled a n && isPending a n

theorem enableIn_eq (a : Attention) (mask : BitVec 14) :
    enableIn a mask = { a with mask := mask, owed := a.owed.filter (fun n => mask.getLsbD n) ++ newlyOwed a mask } := by
  rw [enableIn, upTo_eq_range]
  rfl

theorem newlyOwed_rising (a : Attention) (mask : BitVec 14) : (newlyOwed a mask).Pairwise (· < ·) := List.pairwise_lt_range.filter _

theorem mem_newlyOwed {a : Attention} {n c : Nat} : c ∈ newlyOwed a (BitVec.ofNat 14 n) ↔
    c < 14 ∧ n.testBit c = true ∧ enabled a c = false ∧ isPending a c = true := by
  simp only [newlyOwed, getLsbD_ofNat_14, List.mem_filter, List.mem_range, Bool.and_eq_true, decide_eq_true_eq, Bool.not_eq_true']
  tauto

/-- Only conditions that the mask has a bit for are owed a notice. -/
theorem AttentionOk.owed_lt {a : Attention} (h : AttentionOk a) {n : Nat} (hn : n ∈ a.owed) : n < 14 := by
  obtain ⟨-, -, howed, -⟩ := h
  by_contra hout
  have hdisabled : enabled a n = false := BitVec.getLsbD_of_ge _ _ (Nat.le_of_not_lt hout)
  exact Bool.false_ne_true (hdisabled.symm.trans (howed n hn).1)

theorem AttentionOk.keptOwed {a : Attention} (h : AttentionOk a) (n : Nat) :
    a.owed.filter (fun c => (BitVec.ofNat 14 n).getLsbD c) = a.owed.filter fun c => n.testBit c :=
  List.filter_congr fun c hc => by rw [getLsbD_ofNat_14, decide_eq_true (h.owed_lt hc), Bool.true_and]

/-! ### Conditions acknowledged (R186) -/

/-- The record of condition `n` once it has been acknowledged. -/
def acknowledged (n : Nat) (c : Condition) : Condition :=
  if isLevel n then { c with count := if c.cause then c.count else 0 } else Condition.initial

theorem acknowledged_level {n : Nat} (h : isLevel n = true) (c : Condition) :
    acknowledged n c = { c with count := if c.cause then c.count else 0 } := if_pos h

theorem acknowledged_latched {n : Nat} (h : isLevel n = false) (c : Condition) : acknowledged n c = Condition.initial :=
  if_neg (Bool.not_eq_true _ ▸ h)

theorem acknowledged_twice (n : Nat) (c : Condition) : acknowledged n (acknowledged n c) = acknowledged n c := by
  cases hlevel : isLevel n with
  | true => cases hcause : c.cause <;> simp [acknowledged_level hlevel, hcause]
  | false => simp only [acknowledged_latched hlevel]

theorem ackIn_absent {a : Attention} {n : Nat} (h : a.conditions[n]? = none) : ackIn a n = a := by rw [ackIn, h]

section Acknowledged

variable {a : Attention} {n : Nat} {c : Condition} (hc : a.conditions[n]? = some c)
include hc

theorem ackIn_holding (hlevel : isLevel n = true) (h : c.cause = true) : ackIn a n = a := by simp [ackIn, hc, hlevel, h]

theorem ackIn_ended (hlevel : isLevel n = true) (h : c.cause = false) : ackIn a n = modCond a n fun c => { c with count := 0 } := by
  simp [ackIn, hc, hlevel, h]

theorem ackIn_idle (hlatched : isLevel n = false) (h : c.pending = false) : ackIn a n = a := by simp [ackIn, hc, hlatched, h]

theorem ackIn_pending (hlatched : isLevel n = false) (h : c.pending = true) :
    ackIn a n = withdrawNotice (modCond a n fun c => { c with pending := false, count := 0, first := none, latest := none }) n := by
  simp [ackIn, hc, hlatched, h]

/-- A latched condition has no cause recorded. -/
theorem AttentionOk.latched_cause (h : AttentionOk a) (hlatched : isLevel n = false) : c.cause = false := by
  obtain ⟨-, -, -, hrecords⟩ := h
  obtain ⟨-, hlaw⟩ := hrecords n c hc
  rw [hlatched, if_neg Bool.false_ne_true] at hlaw
  exact hlaw.1

/-- A latched condition that is not pending has the record of reset. -/
theorem AttentionOk.latched_idle (h : AttentionOk a) (hlatched : isLevel n = false) (hidle : c.pending = false) : c = Condition.initial := by
  obtain ⟨-, -, -, hrecords⟩ := h
  obtain ⟨-, hlaw⟩ := hrecords n c hc
  rw [hlatched, if_neg Bool.false_ne_true] at hlaw
  obtain ⟨hcause, hcleared⟩ := hlaw
  obtain ⟨hcount, hfirst, hlatest⟩ := hcleared hidle
  cases c
  simp_all [Condition.initial]

/-- What one acknowledgement does, by the condition's kind and state: the record of the condition named, and its notice. -/
theorem ackIn_named (h : AttentionOk a) : (ackIn a n).conditions[n]? = some (acknowledged n c)
    ∧ (n ∈ (ackIn a n).owed ↔ n ∈ a.owed ∧ isLevel n = true) := by
  cases hlevel : isLevel n with
  | true =>
    rw [acknowledged_level hlevel]
    cases hcause : c.cause with
    | true =>
      rw [ackIn_holding hc hlevel hcause, hc, if_pos rfl, ← hcause]
      simp
    | false =>
      rw [ackIn_ended hc hlevel hcause, modCond_getElem?_self hc, modCond_owed, hcause]
      simp
  | false =>
    rw [acknowledged_latched hlevel]
    cases hpending : c.pending with
    | true =>
      rw [ackIn_pending hc hlevel hpending]
      exact ⟨(modCond_getElem?_self hc _).trans (by rw [h.latched_cause hc hlevel]; rfl), by simp [withdrawNotice]⟩
    | false =>
      have hnotOwed : n ∉ a.owed := fun hn => by
        obtain ⟨-, -, howed, -⟩ := h
        have hp := (howed n hn).2
        rw [isPending, hc, Option.map_some, hpending] at hp
        exact Bool.false_ne_true hp
      rw [ackIn_idle hc hlevel hpending, hc, h.latched_idle hc hlevel hpending]
      simp [hnotOwed]

end Acknowledged

/-- An acknowledgement leaves the mask, and the records and notices of the other conditions. -/
theorem ackIn_frame (a : Attention) (n : Nat) : (ackIn a n).mask = a.mask
    ∧ ∀ m, m ≠ n → (ackIn a n).conditions[m]? = a.conditions[m]? ∧ (m ∈ (ackIn a n).owed ↔ m ∈ a.owed) := by
  cases hc : a.conditions[n]? with
  | none =>
    rw [ackIn_absent hc]
    exact ⟨rfl, fun _ _ => ⟨rfl, .rfl⟩⟩
  | some c =>
    cases hlevel : isLevel n with
    | true =>
      cases hcause : c.cause with
      | true =>
        rw [ackIn_holding hc hlevel hcause]
        exact ⟨rfl, fun _ _ => ⟨rfl, .rfl⟩⟩
      | false =>
        rw [ackIn_ended hc hlevel hcause]
        exact ⟨rfl, fun m hm => ⟨modCond_getElem?_other a hm _, .rfl⟩⟩
    | false =>
      cases hpending : c.pending with
      | true =>
        rw [ackIn_pending hc hlevel hpending]
        exact ⟨rfl, fun m hm => ⟨modCond_getElem?_other a hm _, by simp [withdrawNotice, modCond_owed, hm]⟩⟩
      | false =>
        rw [ackIn_idle hc hlevel hpending]
        exact ⟨rfl, fun _ _ => ⟨rfl, .rfl⟩⟩

theorem ackAll_mask (ns : List Nat) (a : Attention) : (ns.foldl ackIn a).mask = a.mask := by
  induction ns generalizing a with
  | nil => rfl
  | cons n ns ih => exact (ih _).trans (ackIn_frame a n).1

theorem ackAll_unnamed {ns : List Nat} {m : Nat} (h : m ∉ ns) (a : Attention) :
    (ns.foldl ackIn a).conditions[m]? = a.conditions[m]? ∧ (m ∈ (ns.foldl ackIn a).owed ↔ m ∈ a.owed) := by
  induction ns generalizing a with
  | nil => exact ⟨rfl, .rfl⟩
  | cons n ns ih =>
    obtain ⟨hne, hrest⟩ := not_or.1 (mt List.mem_cons.2 h)
    obtain ⟨hrecord, hnotice⟩ := (ackIn_frame a n).2 m hne
    obtain ⟨hrecords, hnotices⟩ := ih hrest (ackIn a n)
    exact ⟨hrecords.trans hrecord, hnotices.trans hnotice⟩

/-- A condition named in a list is acknowledged, also where the list names it more than once. -/
theorem ackAll_named {ns : List Nat} {m : Nat} (hm : m ∈ ns) {a : Attention} (h : AttentionOk a) {c : Condition}
    (hc : a.conditions[m]? = some c) : (ns.foldl ackIn a).conditions[m]? = some (acknowledged m c)
      ∧ (m ∈ (ns.foldl ackIn a).owed ↔ m ∈ a.owed ∧ isLevel m = true) := by
  induction ns generalizing a c with
  | nil => cases hm
  | cons n ns ih =>
    by_cases hrest : m ∈ ns
    · by_cases hmn : m = n
      · subst hmn
        obtain ⟨hrecord, hnotice⟩ := ackIn_named hc h
        obtain ⟨hrecords, hnotices⟩ := ih hrest (h.ack m) hrecord
        exact ⟨acknowledged_twice m c ▸ hrecords, hnotices.trans (by rw [hnotice]; tauto)⟩
      · obtain ⟨hrecord, hnotice⟩ := (ackIn_frame a n).2 m hmn
        obtain ⟨hrecords, hnotices⟩ := ih hrest (h.ack n) (hrecord.trans hc)
        exact ⟨hrecords, hnotices.trans (by rw [hnotice])⟩
    · obtain rfl : m = n := (List.mem_cons.1 hm).resolve_right hrest
      obtain ⟨hrecord, hnotice⟩ := ackIn_named hc h
      obtain ⟨hrecords, hnotices⟩ := ackAll_unnamed hrest (ackIn a m)
      exact ⟨hrecords.trans hrecord, hnotices.trans hnotice⟩

/-! ### The conditions that an AACK names (R186) -/

theorem conditionsNamed_natCast {ns : List Nat} (h : ∀ n ∈ ns, n ≤ 13) : conditionsNamed (ns.map Int.ofNat) = some ns := by
  induction ns with
  | nil => rfl
  | cons n ns ih =>
    obtain ⟨hn, hrest⟩ := List.forall_mem_cons.1 h
    have hfirst : natUpTo 13 (Int.ofNat n) = some n := natUpTo_natCast hn
    rw [List.map_cons, conditionsNamed, hfirst, ih hrest]

theorem conditionsNamed_outside {cn : List Int} (h : ∃ x ∈ cn, ¬(0 ≤ x ∧ x ≤ 13)) : conditionsNamed cn = none := by
  induction cn with
  | nil =>
    obtain ⟨x, hx, -⟩ := h
    cases hx
  | cons y ys ih =>
    obtain ⟨x, hx, hout⟩ := h
    rcases List.mem_cons.1 hx with rfl | hrest
    · have hnone : natUpTo 13 x = none := natUpTo_eq_none (by omega)
      rw [conditionsNamed, hnone]
    · rw [conditionsNamed, ih ⟨x, hrest, hout⟩]
      cases natUpTo 13 y <;> rfl

end Sys2Proof.Machine
end

section
/-! PROOFS. The settlement of the attention unit: AENB and AACK, the latched conditions raised, the level conditions and their owners' reports (R80, R83, R162, R182, R183, R185, R186; log 13, 18). -/

namespace Sys2Proof.Machine

/-! ### AENB and AACK (R185, R186) -/

theorem aenb_outside {em : Int} (h : ¬(0 ≤ em ∧ em ≤ 0x3FFF)) (k : Nat) (s : State) : aenb k em s = reply s .console k .range [] := by
  have hnone : natUpTo 0x3FFF em = none := natUpTo_eq_none (by omega)
  rw [aenb, hnone]
  rfl

theorem aenb_accepted {n : Nat} (h : n ≤ 0x3FFF) (k : Nat) (s : State) :
    aenb k n s = reply { s with attention := enableIn s.attention (BitVec.ofNat 14 n) } .console k .ok [(.RV, .num n)] := by
  rw [aenb, natUpTo_natCast h]
  rfl

theorem aack_outside {cn : List Int} (h : ∃ x ∈ cn, ¬(0 ≤ x ∧ x ≤ 13)) (k : Nat) (s : State) :
    aack k cn s = reply s .console k .range [] := by
  rw [aack, conditionsNamed_outside h]
  rfl

theorem aack_accepted {ns : List Nat} (h : ∀ n ∈ ns, n ≤ 13) (k : Nat) (s : State) :
    aack k (ns.map Int.ofNat) s = reply { s with attention := ns.foldl ackIn s.attention } .console k .ok
      (((upTo 14).filter fun n => isPending (ns.foldl ackIn s.attention) n).map fun n : Nat => (.RV, .num n)) := by
  rw [aack, conditionsNamed_natCast h]
  rfl

/-- Settles O55: AENB by its range, then AACK by its range and by whether it names the condition. -/
theorem attentionRequestsAct : Obligations.AttentionRequestsAct := by
  refine ⟨fun k s em hasked hok => ?_, fun k s cn hasked hok => ?_⟩
  · have hexec : exec (.aenb k) s = .next (aenb k em s) := exec_asked (r := .aenb em) hasked
    rw [hexec]
    refine ⟨fun hout => congrArg _ (aenb_outside hout k s), fun n hem hn => ?_⟩
    subst hem
    refine ⟨_, newlyOwed s.attention (BitVec.ofNat 14 n), ?_, rfl, newlyOwed_rising _ _, fun c => mem_newlyOwed⟩
    rw [aenb_accepted hn, enableIn_eq, hok.keptOwed]
  · have hexec : exec (.aack k) s = .next (aack k cn s) := exec_asked (r := .aack cn) hasked
    rw [hexec]
    refine ⟨fun hout => congrArg _ (aack_outside hout k s), fun ns hcn hns => ?_⟩
    subst hcn
    refine ⟨ns.foldl ackIn s.attention, congrArg _ (aack_accepted hns k s), ackAll_mask ns _, fun n c hc =>
      ⟨fun hother => ?_, fun hnamed hlatched => ?_, fun hnamed hlevel => ?_⟩⟩
    · obtain ⟨hrecord, hnotice⟩ := ackAll_unnamed hother s.attention
      exact ⟨hrecord.trans hc, hnotice⟩
    · obtain ⟨hrecord, hnotice⟩ := ackAll_named hnamed hok hc
      exact ⟨acknowledged_latched hlatched c ▸ hrecord, fun howed => Bool.false_ne_true (hlatched.symm.trans (hnotice.1 howed).2)⟩
    · obtain ⟨hrecord, hnotice⟩ := ackAll_named hnamed hok hc
      exact ⟨acknowledged_level hlevel c ▸ hrecord, hnotice.trans (and_iff_left hlevel)⟩

/-! ### Latched conditions (R182) -/

/-- Settles O56, by whether the condition is pending. -/
theorem latchedConditionsAreRaised : Obligations.LatchedConditionsAreRaised := by
  intro a n c detail hc
  cases hpending : c.pending with
  | false =>
    rw [raiseIn_first hc detail hpending]
    refine ⟨owe_mask _ n, fun m hm => ?_, fun _ => ⟨?_, owe_owed_new (a := modCond a n _),
      fun _ howed => owe_owed_kept (a := modCond a n _) (.inr howed), fun hdisabled => owe_owed_kept (a := modCond a n _) (.inl hdisabled)⟩, nofun⟩
    · rw [owe_conditions, modCond_getElem?_other a hm]
    · rw [owe_conditions, modCond_getElem?_self hc]
  | true =>
    rw [raiseIn_again hc detail hpending]
    exact ⟨rfl, fun m hm => modCond_getElem?_other a hm _, nofun, fun _ => ⟨(modCond_getElem?_self hc _).trans (by rw [← hpending]; rfl), rfl⟩⟩

/-! ### Level conditions (R183) -/

/-- The hull supervisor's three reports, one after the other (R80; log 27). -/
theorem reportHullCauses_attention (s : State) : (reportHullCauses s).attention =
    causeIn (causeIn (causeIn s.attention 0 (decide (s.hull.live.map EvalResult.band = some .amber)))
      1 (decide (s.hull.live.map EvalResult.band = some .red))) 13 (s.hull.live.any fun r => r.tableLow || r.tableHigh) := by
  have hclamp : (s.hull.live.map fun r => r.tableLow || r.tableHigh).getD false = s.hull.live.any fun r => r.tableLow || r.tableHigh := by
    cases s.hull.live <;> rfl
  rw [← hclamp]
  rfl

/-- A report leaves the records of the other conditions. -/
theorem causeIn_getElem?_other {a : Attention} {n m : Nat} {c : Condition} (holds : Bool) (hne : n ≠ m) (hc : a.conditions[m]? = some c) :
    (causeIn a n holds).conditions[m]? = some c := by
  obtain ⟨d, hd, hcause, hsame⟩ := causeIn_getElem? holds hc
  rw [if_neg hne] at hcause
  rw [hd, hsame hcause]

theorem causeIn_getElem?_own {a : Attention} {n : Nat} {c : Condition} (holds : Bool) (hc : a.conditions[n]? = some c) :
    ∃ d, (causeIn a n holds).conditions[n]? = some d ∧ d.cause = holds ∧ (d.cause = c.cause → d = c) := by
  simpa using causeIn_getElem? (n := n) holds hc

/-- The causes of the three hull conditions reported: each of the three records holds its own, and a record whose cause is as before is as before. -/
theorem hullCauses_getElem? {a : Attention} {n : Nat} {c : Condition} (hc : a.conditions[n]? = some c) (amber red clamp : Bool) :
    ∃ d, (causeIn (causeIn (causeIn a 0 amber) 1 red) 13 clamp).conditions[n]? = some d
      ∧ d.cause = (if n = 0 then amber else if n = 1 then red else if n = 13 then clamp else c.cause) ∧ (d.cause = c.cause → d = c) := by
  by_cases h0 : n = 0
  · subst h0
    obtain ⟨d, hd, hown⟩ := causeIn_getElem?_own amber hc
    exact ⟨d, causeIn_getElem?_other clamp (by decide) (causeIn_getElem?_other red (by decide) hd), hown⟩
  · have hamber := causeIn_getElem?_other amber (Ne.symm h0) hc
    rw [if_neg h0]
    by_cases h1 : n = 1
    · subst h1
      obtain ⟨d, hd, hown⟩ := causeIn_getElem?_own red hamber
      exact ⟨d, causeIn_getElem?_other clamp (by decide) hd, hown⟩
    · have hred := causeIn_getElem?_other red (Ne.symm h1) hamber
      rw [if_neg h1]
      by_cases h13 : n = 13
      · subst h13
        exact causeIn_getElem?_own clamp hred
      · rw [if_neg h13]
        exact ⟨c, causeIn_getElem?_other clamp (Ne.symm h13) hred, rfl, fun _ => rfl⟩

/-- Settles O57: the terminal port's report, the hull supervisor's, then the three cases of a report. -/
theorem levelConditionsFollowTheirCause : Obligations.LevelConditionsFollowTheirCause := by
  refine ⟨fun s l => rfl, fun s n c hc => ⟨rfl, rfl, ?_⟩, fun a n c hc => ⟨?_, fun hended => ?_, fun hholding => ?_⟩⟩
  · obtain ⟨d, hd, hcause, hsame⟩ := hullCauses_getElem? hc (decide (s.hull.live.map EvalResult.band = some .amber))
      (decide (s.hull.live.map EvalResult.band = some .red)) (s.hull.live.any fun r => r.tableLow || r.tableHigh)
    refine ⟨d, (congrArg (fun x : Attention => x.conditions[n]?) (reportHullCauses_attention s)).trans hd, hcause, hsame, fun hreset hn => ?_⟩
    rw [hcause, hreset]
    rcases hn with rfl | rfl | rfl <;> rfl
  · rintro _ rfl
    exact causeIn_repeated hc
  · rw [causeIn_begins hc hended]
    refine ⟨owe_mask _ n, fun m hm => ?_, ?_, owe_owed_new (a := modCond a n _),
      owe_owed_kept (a := modCond a n _)⟩
    · rw [owe_conditions, modCond_getElem?_other a hm]
    · rw [owe_conditions, modCond_getElem?_self hc]
      rfl
  · rw [causeIn_stops hc hholding]
    exact ⟨rfl, fun m hm => modCond_getElem?_other a hm _, modCond_getElem?_self hc _, rfl⟩

end Sys2Proof.Machine
end

section
/-! PROOFS. Numbers and field elements read back (R194, R195). -/

namespace Sys2Proof.Machine

/-! ### Numbers (R195) -/

/-- An integer within the range of `n` bytes is read back from its two's complement (R195). -/
theorem intOfBytes_intBytes {n : Nat} {x : Int} (hlow : -(2 ^ (8 * n)) ≤ 2 * x) (hhigh : 2 * x < 2 ^ (8 * n)) :
    intOfBytes (intBytes n x) = x := by
  have hlength : (intBytes n x).length = n := natBytes_length n _
  have hcast : ((2 ^ (8 * n) : Nat) : Int) = 2 ^ (8 * n) := Nat.cast_pow 2 (8 * n)
  have hcapacity : 256 ^ n = 2 ^ (8 * n) := (Nat.pow_mul 2 8 n).symm
  have hvalue : natOfBytes (intBytes n x) = (x % (2 ^ (8 * n) : Nat)).toNat % 2 ^ (8 * n) := by
    rw [intBytes, natOfBytes_natBytes, hcapacity]
  rw [intOfBytes, hvalue, hlength]
  generalize 2 ^ (8 * n) = capacity at hcast ⊢
  rw [← hcast] at hlow hhigh
  by_cases hsign : 0 ≤ x
  · have hmod : x % capacity = x := Int.emod_eq_of_lt hsign (by omega)
    have hfits : x.toNat % capacity = x.toNat := Nat.mod_eq_of_lt (by omega)
    rw [hmod, hfits, if_pos (by omega)]
    omega
  · have hmod : x % capacity = x + capacity := by
      rw [← Int.add_emod_right]
      exact Int.emod_eq_of_lt (by omega) (by omega)
    have hfits : (x + capacity).toNat % capacity = (x + capacity).toNat := Nat.mod_eq_of_lt (by omega)
    rw [hmod, hfits, if_neg (by omega)]
    omega

/-- A number of a reply is read back, whether it takes 4 bytes or 8 (R195). -/
theorem intOfBytes_numBytes {x : Int} (hlow : -(2 ^ 63) ≤ x) (hhigh : x < 2 ^ 63) : intOfBytes (numBytes x) = x := by
  unfold numBytes
  split
  next hshort =>
    have hrange := within_iff.1 hshort
    exact intOfBytes_intBytes (by omega) (by omega)
  next => exact intOfBytes_intBytes (by omega) (by omega)

/-! ### Field elements (R194) -/

/-- The element that a field of the part's is read back as (R194). -/
def elementOf (f : Field × Val) : Element := { name := fieldAscii f.1, value := valBytes f.2 }

/-- A field element at the front of a body is read off (R194). -/
theorem readElements_fieldBytes {f : Field × Val} (hlength : (valBytes f.2).length ≤ 255) (fuel : Nat) (rest : List Byte) :
    readElements (fuel + 1) (fieldBytes f ++ rest) = (readElements fuel rest).map (elementOf f :: ·) := by
  obtain ⟨a, b, hname⟩ : ∃ a b, fieldAscii f.1 = [a, b] := by cases f.1 <;> exact ⟨_, _, rfl⟩
  have hbytes : fieldBytes f ++ rest = a :: b :: BitVec.ofNat 8 (valBytes f.2).length :: (valBytes f.2 ++ rest) := by simp [fieldBytes, hname]
  have hlengthByte : (BitVec.ofNat 8 (valBytes f.2).length).toNat = (valBytes f.2).length := by
    rw [BitVec.toNat_ofNat]
    exact Nat.mod_eq_of_lt (by omega)
  simp [hbytes, readElements, hlengthByte, elementOf, hname]

/-- A body is read back with any fuel that counts its fields (R194). -/
theorem readElements_bodyBytes {fields : List (Field × Val)} (h : ∀ f ∈ fields, (valBytes f.2).length ≤ 255) {fuel : Nat}
    (hfuel : fields.length ≤ fuel) : readElements fuel (bodyBytes fields) = some (fields.map elementOf) := by
  unfold bodyBytes
  induction fields generalizing fuel with
  | nil => cases fuel <;> rfl
  | cons f fields ih =>
    obtain ⟨hf, hfields⟩ := List.forall_mem_cons.1 h
    cases fuel with
    | zero => cases hfuel
    | succ fuel => rw [List.flatMap_cons, readElements_fieldBytes hf, ih hfields (Nat.le_of_succ_le_succ hfuel), Option.map_some, List.map_cons]

/-- Each field element takes at least one byte, so the bytes count the fields. -/
theorem length_le_bodyBytes (fields : List (Field × Val)) : fields.length ≤ (bodyBytes fields).length := by
  unfold bodyBytes
  induction fields with
  | nil => simp
  | cons f fields ih =>
    simp only [List.length_cons, List.flatMap_cons, List.length_append, fieldBytes]
    omega

/-- Settles O9: the frame, then the body by induction on its fields, then the number by its width. -/
theorem framesAndNumbersReadBack : Obligations.FramesAndNumbersReadBack :=
  ⟨⟨fun _ tag _ rest hkind hbody => readFrame_frameBytes hkind hbody tag rest,
    fun fields h => readElements_bodyBytes h (length_le_bodyBytes fields)⟩, fun _ hlow hhigh => intOfBytes_numBytes hlow hhigh⟩

end Sys2Proof.Machine
end

section
/-! PROOFS. The receiver hunts, and discards damaged and incomplete frames (R188, R193; log 30). -/

namespace Sys2Proof.Machine

/-! ### Hunting -/

/-- The console's receiver does not listen while a WRST is pending (R193). -/
theorem listens_of_wrstPending {s : State} (h : s.wrstPending = true) : listens s .console = false := by simp [listens, h]

theorem huntIn_deaf {l : Link} {s : State} (h : listens s l = false) (bytes : List Byte) : huntIn l bytes s = s := by simp [huntIn, h]

theorem collectIn_deaf {l : Link} {s : State} (h : listens s l = false) (bytes : List Byte) : collectIn l bytes s = s := by
  simp [collectIn, h]

/-- Every byte before a start byte is discarded (R188). -/
theorem fromStart_noise {noise : List Byte} (h : ∀ b ∈ noise, b ≠ 0x5A#8) (bytes : List Byte) :
    fromStart (noise ++ bytes) = fromStart bytes := by
  induction noise with
  | nil => rfl
  | cons b noise ih =>
    obtain ⟨hb, hnoise⟩ := List.forall_mem_cons.1 h
    rw [List.cons_append, fromStart, if_neg hb, ih hnoise]

theorem fromStart_startByte (rest : List Byte) : fromStart (0x5A#8 :: rest) = 0x5A#8 :: rest := if_pos rfl

/-- A hunting receiver keeps what is left from the first start byte on, and collects where anything is (R188). -/
theorem exec_startByteFound_hunting {l : Link} {s : State} {bytes : List Byte} (hlisten : Listening s l)
    (hhunt : (portOf s l).rx.collecting = false) (hbytes : bytes ≠ []) :
    exec (.startByteFound l bytes) s = .next (setPort s l { portOf s l with rx :=
      { collecting := !(fromStart ((portOf s l).rx.bytes ++ bytes)).isEmpty, bytes := fromStart ((portOf s l).rx.bytes ++ bytes),
        lastByteAt := s.clocks.uptime } }) := by
  refine (event_powered hlisten.1 _).trans ?_
  simp [huntIn, hlisten.listens, hhunt, setRx, lastByte_of_ne_nil hbytes]

/-! ### Damaged frames -/

/-- A length above 1,024 is damaged as soon as its two bytes are in (R188). -/
theorem readFrame_overlong {bytes : List Byte} (hin : 3 ≤ bytes.length) (hlong : 1024 < natOfBytes ((bytes.drop 1).take 2)) :
    readFrame bytes = .bad := by
  rw [readFrame, if_neg (Nat.not_lt.2 hin)]
  exact if_pos hlong

/-- A collected frame whose CRC is not that of the bytes it covers is damaged; the length stands in the first two of them (R188, R189). -/
theorem readFrame_crcDiffers {covered : List Byte} {n : Nat} (hcovered : covered.length = 7 + n) (hnumber : natOfBytes (covered.take 2) = n)
    (hn : n ≤ 1024) {crc : Crc16} (hcrc : crc ≠ crc16 covered) (rest : List Byte) :
    readFrame ([0x5A#8] ++ covered ++ natBytes 2 crc.toNat ++ rest) = .bad := by
  have hlayout : [0x5A#8] ++ covered ++ natBytes 2 crc.toNat ++ rest = 0x5A#8 :: (covered ++ (natBytes 2 crc.toNat ++ rest)) := by simp
  have hwhole : (0x5A#8 :: (covered ++ (natBytes 2 crc.toNat ++ rest))).length = 10 + n + rest.length := by
    simp only [List.length_cons, List.length_append, natBytes_length, hcovered]
    omega
  have hlength : natOfBytes ((covered ++ (natBytes 2 crc.toNat ++ rest)).take 2) = n := by
    rw [List.take_append_of_le_length (by omega), hnumber]
  have hread : (covered ++ (natBytes 2 crc.toNat ++ rest)).take (7 + n) = covered := List.take_left' hcovered
  have hafter : (0x5A#8 :: (covered ++ (natBytes 2 crc.toNat ++ rest))).drop (8 + n) = natBytes 2 crc.toNat ++ rest := by
    rw [show 8 + n = 7 + n + 1 by omega, List.drop_succ_cons]
    exact List.drop_left' hcovered
  have hsent : (natBytes 2 crc.toNat ++ rest).take 2 = natBytes 2 crc.toNat := List.take_left' (natBytes_length 2 _)
  have hfits : ¬Config.bodyMax < n := Nat.not_lt.2 hn
  rw [hlayout, readFrame, if_neg (by omega)]
  simp only [List.drop_succ_cons, List.drop_zero, hlength, hread, hafter, hsent, crc_readBack, if_neg hfits, if_neg hcrc.symm]
  exact if_neg (by omega)

/-- A damaged frame is discarded without a reply, and the receiver hunts from the byte after its start byte (R188; log 30). -/
theorem exec_frameDiscarded_bad {l : Link} {s : State} {bytes : List Byte} (hlisten : Listening s l)
    (hcollect : (portOf s l).rx.collecting = true) (hbytes : bytes ≠ []) (hbad : readFrame ((portOf s l).rx.bytes ++ bytes) = .bad) :
    exec (.frameDiscarded l bytes) s = .next (setPort s l { portOf s l with
      rx := { collecting := false, bytes := ((portOf s l).rx.bytes ++ bytes).tail, lastByteAt := s.clocks.uptime } }) := by
  refine (event_powered hlisten.1 _).trans ?_
  simp [collectIn, hlisten.listens, hcollect, lastByte_of_ne_nil hbytes, hbad, huntOn, setRx]

/-! ### Incomplete frames -/

section Stale

variable {l : Link} {s : State} (hpower : s.powered = true)
include hpower

/-- An incomplete frame that has waited two seconds for its next byte is discarded (R188). -/
theorem exec_frameIncompleteTimeout_due (hcollect : (portOf s l).rx.collecting = true) (hwaits : readFrame (portOf s l).rx.bytes = .incomplete)
    (hdue : (portOf s l).rx.lastByteAt + 2 ≤ s.clocks.uptime) :
    exec (.frameIncompleteTimeout l) s = .next (setPort s l { portOf s l with
      rx := { collecting := false, bytes := (portOf s l).rx.bytes.tail, lastByteAt := (portOf s l).rx.lastByteAt } }) := by
  refine (event_powered hpower _).trans ?_
  simp [dropStale, hcollect, hwaits, now, hdue, huntOn, setRx]

/-- Before the two seconds are over the frame is left alone (R188). -/
theorem exec_frameIncompleteTimeout_early (hearly : s.clocks.uptime < (portOf s l).rx.lastByteAt + 2) :
    exec (.frameIncompleteTimeout l) s = .next s := by
  refine (event_powered hpower _).trans ?_
  simp [dropStale, now, Nat.not_le.2 hearly]

end Stale

/-- Settles O11: the hunt by what stands before the first start byte, then the two kinds of damage, the discard, and the two seconds. -/
theorem receiverHuntsAndDiscards : Obligations.ReceiverHuntsAndDiscards := by
  refine ⟨fun l s hlisten hhunt hheld => ⟨fun noise rest hnoise => ?_, fun noise hsome hnoise => ?_⟩, fun _ => readFrame_overlong,
    fun kind tag body rest crc hkind hbody hcrc => ?_, fun _ _ _ => exec_frameDiscarded_bad,
    fun _ _ hpower hcollect hwaits => ⟨exec_frameIncompleteTimeout_due hpower hcollect hwaits, exec_frameIncompleteTimeout_early hpower⟩⟩
  · have hfound : fromStart ((portOf s l).rx.bytes ++ (noise ++ 0x5A#8 :: rest)) = 0x5A#8 :: rest := by
      rw [fromStart_noise hheld, fromStart_noise hnoise, fromStart_startByte]
    rw [exec_startByteFound_hunting hlisten hhunt (by simp), hfound]
    rfl
  · have hfound : fromStart ((portOf s l).rx.bytes ++ noise) = [] := by
      rw [fromStart_noise hheld, ← List.append_nil noise, fromStart_noise hnoise, fromStart]
    rw [exec_startByteFound_hunting hlisten hhunt hsome, hfound]
    rfl
  · have hnumber : natOfBytes ((natBytes 2 body.length ++ kind ++ [tag] ++ body).take 2) = body.length := by
      rw [List.append_assoc, List.append_assoc, List.take_left' (natBytes_length 2 _), natOfBytes_natBytes]
      exact Nat.mod_eq_of_lt (by omega)
    refine readFrame_crcDiffers ?_ hnumber hbody hcrc rest
    simp only [List.length_append, natBytes_length, hkind, List.length_singleton]

end Sys2Proof.Machine
end

section
/-! PROOFS. Frames sent: the transmitter and the slot freed, and the warm reset after the reply to WRST (R191, R192, R193; log 7). -/

namespace Sys2Proof.Machine

/-! ### The transmitter freed -/

theorem exec_replyTransmitComplete {s : State} (h : s.powered = true) (l : Link) :
    exec (.replyTransmitComplete l) s = .next (frameSent l s) := event_powered h _

section Sent

variable {l : Link} {s : State} {r : Reply} {w : List Byte}

theorem frameSent_wrst {k : Nat} (htx : (portOf s l).tx = some { frame := .class1 (.reply r), wire := w }) (hslot : r.slot = some k)
    (hwrst : isWrst s l k = true) : frameSent l s = warmReset s := by
  rw [frameSent, htx]
  dsimp only
  rw [hslot]
  exact if_pos hwrst

theorem frameSent_reply {k : Nat} (htx : (portOf s l).tx = some { frame := .class1 (.reply r), wire := w }) (hslot : r.slot = some k)
    (hother : isWrst s l k = false) :
    frameSent l s = setPort s l { portOf s l with tx := none, slots := modAt (portOf s l).slots k fun _ => none } := by
  have hfreed : freeSlotAt (freeTx s l) l k
      = setPort s l { portOf s l with tx := none, slots := modAt (portOf s l).slots k fun _ => none } := by
    rw [freeSlotAt, freeTx, portOf_setPort, setPort_setPort]
  rw [frameSent, htx]
  dsimp only
  rw [hslot, ← hfreed]
  exact if_neg (Bool.not_eq_true _ ▸ hother)

theorem frameSent_portReply (htx : (portOf s l).tx = some { frame := .class1 (.reply r), wire := w }) (hslot : r.slot = none) :
    frameSent l s = setPort s l { portOf s l with tx := none } := by
  rw [frameSent, htx]
  dsimp only
  rw [hslot]
  rfl

theorem frameSent_unsolicited {u : Unsolicited} (htx : (portOf s l).tx = some { frame := .class1 (.unsolicited u), wire := w }) :
    frameSent l s = setPort s l { portOf s l with tx := none } := by
  rw [frameSent, htx]
  rfl

theorem frameSent_note {n : Note} (htx : (portOf s l).tx = some { frame := .note n, wire := w }) :
    frameSent l s = setPort s l { portOf s l with tx := none } := by
  rw [frameSent, htx]
  rfl

end Sent

/-- Without a WRST pending on the console no reply is that to WRST (R193). -/
theorem isWrst_eq_false {s : State} {l : Link} (h : ¬(l = .console ∧ s.wrstPending = true)) (k : Nat) : isWrst s l k = false := by
  have hnot : (decide (l = .console) && s.wrstPending) = false := by simpa using h
  rw [isWrst, hnot, Bool.false_and]

/-- Settles O14, by what has been sent: a slot's reply, a port reply, an unsolicited frame, a NOTE. -/
theorem sentFramesFreeTheLink : Obligations.SentFramesFreeTheLink :=
  ⟨fun l _ _ _ k hpower hnot htx hslot => (exec_replyTransmitComplete hpower l).trans (congrArg _ (frameSent_reply htx hslot (isWrst_eq_false hnot k))),
    fun l _ _ _ hpower htx hslot => (exec_replyTransmitComplete hpower l).trans (congrArg _ (frameSent_portReply htx hslot)),
    fun l _ _ _ hpower htx => (exec_replyTransmitComplete hpower l).trans (congrArg _ (frameSent_unsolicited htx)),
    fun l _ _ _ hpower htx => (exec_replyTransmitComplete hpower l).trans (congrArg _ (frameSent_note htx))⟩

/-! ### WRST (R193) -/

/-- An event that does nothing to the part leaves it, with power or without (log 24). -/
theorem event_of_fixed {s : State} {act : State → State} (h : act s = s) : event s act = .next s := by simp [event, h]

/-- Events that do the same to the part are the same event, with power or without (log 24). -/
theorem event_congr {s : State} {act act' : State → State} (h : act s = act' s) : event s act = event s act' := by rw [event, event, h]

/-- The reply to WRST is that of the slot that holds it, while a WRST is pending (R193). -/
theorem isWrst_eq_true {s : State} {k : Nat} {sl : Slot} (hpending : s.wrstPending = true) (hheld : slotAt s .console k = some sl)
    (hrequest : sl.request = .wrst) : isWrst s .console k = true := by simp [isWrst, hpending, hheld, hrequest]

/-- Settles O8: the answer, the console's receiver, the reset. -/
theorem wrstEndsInAWarmReset : Obligations.WrstEndsInAWarmReset := by
  refine ⟨fun k s hasked => exec_asked (r := .wrst) hasked, fun s bytes hpending => ?_, fun s k r w sl hpending htx hslot hheld hrequest => ?_⟩
  · have hdeaf : listens s .console = false := listens_of_wrstPending hpending
    exact ⟨event_of_fixed (huntIn_deaf hdeaf bytes), event_of_fixed (collectIn_deaf hdeaf bytes), event_of_fixed (collectIn_deaf hdeaf bytes)⟩
  · exact event_congr (frameSent_wrst (l := .console) htx hslot (isWrst_eq_true hpending hheld hrequest))

end Sys2Proof.Machine
end

section
/-! PROOFS. A step takes the command at the front of the queue (log 31). -/

namespace Sys2Proof.Machine

/-- On a queue with a front command a step is that command's effect, the queue's rest standing before it runs (log 31). -/
theorem step_of_pending_cons {s : State} {c : Instr} {rest : List Instr} (hqueue : s.pending = c :: rest) :
    step s = exec c (setPending s rest) := by rw [step, hqueue]

/-- Settles O1: the step's equation on a queue that is not empty; `setPending` changes the queue alone. -/
theorem stepRunsTheFrontCommand : Obligations.StepRunsTheFrontCommand :=
  fun _ _ _ hqueue => step_of_pending_cons hqueue

end Sys2Proof.Machine
end
